-- ==== Sys2Proof/Word.lean ====
section
/-! DEFINITION. Words, dies and the plainest arithmetic of the FZ6128 model. -/

namespace Sys2Proof

/-- A byte. -/
abbrev Byte := BitVec 8

/-- A 32-bit word, as the RV32IMAC cores and every register have it (R123). -/
abbrev Word := BitVec 32

/-- The two control dies (00_scope, "three dies"). -/
inductive Die where
  | d0 | d1
deriving DecidableEq, Repr

/-- The die other than `d`. -/
def Die.other : Die → Die
  | .d0 => .d1
  | .d1 => .d0

/-- Die number 0 or 1. -/
def Die.toNat : Die → Nat
  | .d0 => 0
  | .d1 => 1

/-- Die number as an index of a pair. -/
def Die.idx : Die → Fin 2
  | .d0 => 0
  | .d1 => 1

/-- The two regions of a control die (R121). -/
inductive Region where
  | a | b
deriving DecidableEq, Repr

/-- Region number, 0 for A and 1 for B. -/
def Region.toNat : Region → Nat
  | .a => 0
  | .b => 1

/-- Region number as an index. -/
def Region.idx : Region → Fin 2
  | .a => 0
  | .b => 1

/-- 1 for true, 0 for false: a one-bit field's value. -/
def b2n (b : Bool) : Nat := if b then 1 else 0

end Sys2Proof
end

