-- ==== Sys2Proof/Syntax.lean ====
section
/-! DEFINITION. The commands of the FZ6128 block: one constructor of `Instr` per row of spec/opcode_table.json. The
table gives the rows no operands; the operands here are what the rules of spec/ make the row depend on and that the
state does not already hold (which die, channel, lane or link; what the line, the pin, the peer or the regulator
delivered). -/

namespace Sys2Proof

/-- The I/O die's rails, in the order of IOD_RAIL_STAT [21:16] from bit 16 up (R40, R48). -/
inductive IodRail where
  | vddIod | vdd18 | vdd33Ch | vddaSer | vddhSer | vdda18
deriving DecidableEq, Repr

/-- What a regulator answers to an AVSBus transaction (R43, R44). -/
inductive AvsAnswer where
  | ok | noFrame | crcError | rejected
deriving DecidableEq, Repr

/-- What an access to an ECC-protected word meets (R126): no error, a single-bit error, or an uncorrectable one. -/
inductive Ecc where
  | clean | corrected | uncorrectable
deriving DecidableEq, Repr

/-- What a Ground request transfers (R160): a read or a write of consecutive words from an address, and a write's data. -/
inductive Xfer where
  | read (addr : Word)
  | write (addr : Word) (data : List Word)
deriving DecidableEq, Repr

/-- Width of a core access. -/
inductive Width where
  | byte | half | word
deriving DecidableEq, Repr

/-- The RV32A operations of R123's column "Atomic". -/
inductive AmoOp where
  | lr | sc | swap | add | xor | and | or | min | max | minu | maxu
deriving DecidableEq, Repr

/-- The boundary register (R30, R52): every signal ball but the lane, clock, analogue and JTAG balls. -/
structure BoundaryPins where
  gu : BitVec 128 := 0
  gl : BitVec 128 := 0
  syncOut : Bool := false
  picot : BitVec 8 := 0
  chSn : BitVec 128 := 0
  tripIn : BitVec 8 := 0
  syncIn : Bool := false
  replaceN : Bool := false
  degrade : BitVec 2 := 0
  /-- AVS0_CLK, AVS0_MDATA, AVS0_SDATA, then those of die 1. -/
  avs : BitVec 6 := 0
  /-- QSPI_CLK, QSPI_CS_N, QSPI_IO[3:0], QSPI_RST_N. -/
  qspi : BitVec 7 := 0
  porstN : Bool := false
  roleStrap : Bool := false
deriving DecidableEq, Repr

/-- What the flash's JESD216 discovery table reports (R75, R77). -/
structure FlashTable where
  sizeMbit : Nat
  fourByteAddr : Bool
deriving DecidableEq, Repr

/-- The critical-path monitor that reads low (R435, R436). -/
inductive CpmPath where
  | core | sram | cle
deriving DecidableEq, Repr

/-- A temperature sensor (R442): four on each control die, four on the I/O die. -/
inductive Sensor where
  | die (d : Die) (i : Fin 4)
  | iod (i : Fin 4)
deriving DecidableEq, Repr

/-- The header of a Nolri frame (R366), TYPE and LEN apart: TYPE is the command, LEN the payload's length. -/
structure NolHeader where
  flags : Byte
  src : BitVec 16
  dst : BitVec 16
  period : Word
deriving DecidableEq, Repr

/-- A Nolri timestamp (TS): 6 bytes of seconds, 4 of nanoseconds, 2 of fraction in 2^-16 ns. -/
structure TimeStamp where
  sec : BitVec 48
  ns : Word
  frac : BitVec 16
deriving DecidableEq, Repr

/-- CYCLE payload (R369). -/
structure CyclePayload where
  t1 : TimeStamp
  corr : BitVec 64
  cp : Word
  hub : BitVec 16
  flags : BitVec 16
deriving DecidableEq, Repr

/-- THRESHOLD payload (R264). -/
structure ThresholdPayload where
  period : Word
  k : BitVec 16
  tie : Byte
  flags : Byte
  imean : Word
deriving DecidableEq, Repr

/-- LADDER payload (R259). -/
structure LadderPayload where
  period : Word
  e : Byte
  ins : Byte
  flags : Byte
  /-- The reserved byte 0x007. -/
  reserved : Byte
  sumAll : Word
  sumIns : Word
  keys : List (BitVec 16)
deriving DecidableEq, Repr

/-- STATUS payload (R370). -/
structure StatusPayload where
  txTime : TimeStamp
  echo : TimeStamp
  turn : BitVec 64
  bulkCredit : Word
  rxSet : Byte
  sleep : Byte
  cpLo : BitVec 16
  grade : Byte
  memb : Byte
  cpHi : BitVec 16
  prickSeq : Word
deriving DecidableEq, Repr

/-- One entry of a HEALTH payload (R367): a channel number and the 16-byte record of R279. -/
structure HealthEntry where
  channel : Byte
  c : Word
  esr : Word
  nc : BitVec 16
  nr : BitVec 16
  nrej : BitVec 16
  flags : Byte
  runs : Byte
deriving DecidableEq, Repr

/-- JOIN payload (R383). -/
structure JoinPayload where
  uid : BitVec 64
  cp : Word
  arm : Byte
  ch : Byte
  grade : Byte
  prickSeq : Word
deriving DecidableEq, Repr

/-- A JOIN that arrives on link `l` (R384). -/
structure JoinArrival where
  l : Fin 32
  h : NolHeader
  p : JoinPayload
deriving DecidableEq, Repr

/-- What the hardware works on in a PTP event message that HSR forwards (R418): whether it is a Sync, its correctionField, and
its residence in the device, both in 2^-16 ns. -/
structure PtpRelay where
  sync : Bool
  corr : Int
  residence : Int
deriving DecidableEq, Repr

/-- An Ethernet frame as the MAC sees it (R394 to R400): addresses, tags, Ethertype after the tags, length with FCS,
and the redundancy trailer or tag it carries. -/
structure EthFrame where
  dst : BitVec 48
  src : BitVec 48
  /-- VIDs of the IEEE 802.1Q tags, outermost first. -/
  vids : List (BitVec 12)
  etherType : BitVec 16
  len : Nat
  fcsOk : Bool
  /-- The PRP redundancy control trailer: sequence number and LAN identifier B. -/
  rct : Option (BitVec 16 × Bool)
  /-- The HSR tag's sequence number, when the outer Ethertype is 0x892F. -/
  hsr : Option (BitVec 16)
  /-- The frame is a PTP event message. -/
  ptp : Option PtpRelay := none
deriving DecidableEq, Repr

/-- Where a maintenance request came from and its header (R403). -/
structure MaintHeader where
  port : Fin 4
  mac : BitVec 48
  ver : Byte
  tag : BitVec 16
  /-- LEN of the header agrees with the operation (R405). -/
  lenOk : Bool
  /-- The frame was sent to the broadcast address. -/
  bcast : Bool := false
  /-- The request carries this OP, which R404 does not list, in place of the row's. -/
  badOp : Option Byte := none
deriving DecidableEq, Repr

/-- One quantity pair of an ASDU's seqData (R409): an INT32 value and a 32-bit quality. -/
structure SvPair where
  value : Word
  quality : Word
deriving DecidableEq, Repr

/-- One ASDU of a sampled-value frame, the fields the device reads (R409). -/
structure SvAsdu where
  smpCnt : BitVec 32
  confRev : Word
  smpSynch : Byte
  simulation : Bool
  seqData : List SvPair
deriving DecidableEq, Repr

/-- A sampled-value frame: destination, APPID, svID of its first ASDU, its ASDUs and its arrival timestamp in 2^-32 ns. -/
structure SvFrame where
  dst : BitVec 48
  appid : BitVec 16
  svId : List Byte
  asdus : List SvAsdu
  arrival : Nat
deriving DecidableEq, Repr

/-- A value of a received GOOSE data set (R415). -/
inductive GooseVal where
  | bool (b : Bool)
  | int (v : Int)
  | uint (v : Nat)
  | bits (bs : List Bool)
  | other
deriving DecidableEq, Repr

/-- A GOOSE frame as R415 reads it. -/
structure GooseFrame where
  dst : BitVec 48
  appid : BitVec 16
  gocbRef : List Byte
  confRev : Word
  simulation : Bool
  ndsCom : Bool
  stNum : Word
  sqNum : Word
  ttlMs : Nat
  allData : List GooseVal
deriving DecidableEq, Repr

/-- A PTP dataset as an Announce carries it (R419, IEEE 1588-2019 clause 9.3). -/
structure PtpAnnounceMsg where
  domain : Byte
  gmId : BitVec 64
  p1 : Byte
  cls : Byte
  accuracy : Byte
  variance : BitVec 16
  p2 : Byte
  steps : BitVec 16
  sender : BitVec 64
  tti : BitVec 32
deriving DecidableEq, Repr

/-- What the hardware's tests of PHASE = APPLY find: quads whose termination resistor reads outside its limits (R338), and
the copies that fail of each channel unit (R306) and of each trip latch (R327). -/
structure ApplyTests where
  calFail : BitVec 8
  units : List (Fin 128 × BitVec 3)
  latches : List (Fin 16 × BitVec 3)
deriving DecidableEq, Repr

/-- The commands: one constructor per row of spec/opcode_table.json, in the table's order. -/
inductive Instr where
  /-- REGISTER_WRITE (R4). `full`: the FIFO of the crossing is full by an internal fault (R60). -/
  | registerWrite (d : Die) (addr v : Word) (full : Bool)
  /-- SAT_CLEAR (R10): a W1C write of 1 to SAT bit `bit` of the word at `addr`, with `events` counted in that cycle. -/
  | satClear (d : Die) (addr : Word) (bit : Fin 32) (events : Nat)
  /-- PORST_ASSERT (R39): PORST_N is held low for `lowNs` ns. -/
  | porstAssert (lowNs : Nat)
  /-- PORST_RELEASE (R39, R47, R42): strap with pull-up, TEST_EN, the I/O rails within tolerance, the regional rails present (bit 2d + r). -/
  | porstRelease (strapUp testEn iodRailsOk : Bool) (regionRails : BitVec 4)
  /-- STRAP_SECOND_SAMPLE (R47): the strap with the pull-down applied. -/
  | strapSecondSample (strapDn : Bool)
  /-- BOOT_ROM_START (R94), and whether the staging image of a replay meets a read error (R105, R115). -/
  | bootRomStart (readError : Bool)
  /-- GATE_PAD_POWER_ON (R32). -/
  | gatePadPowerOn
  /-- RAIL_UNDERVOLTAGE (R40). -/
  | railUndervoltage (rail : IodRail)
  /-- RAIL_RECOVERY (R40, R48): the rail that is back within its threshold. -/
  | railRecovery (rail : IodRail)
  /-- REGION_RAIL_CROSSING (R42). -/
  | regionRailCrossing (d : Die) (r : Region)
  /-- AVS_VOLTAGE_WRITE (R43). -/
  | avsVoltageWrite (d : Die) (r : Region) (a : AvsAnswer)
  /-- AVS_STATUS_READ (R43, R44). -/
  | avsStatusRead (d : Die) (r : Region) (a : AvsAnswer)
  /-- LANE_REF_LOSS (R45): the reference is absent or outside 200 ppm, or is within it again. -/
  | laneRefLoss (ref : Fin 2) (absent : Bool)
  /-- JTAG_EXTEST (R51). -/
  | jtagExtest
  /-- JTAG_SAMPLE_PRELOAD (R49): the values shifted into the boundary register. -/
  | jtagSamplePreload (preload : BoundaryPins)
  /-- JTAG_CLAMP (R51). -/
  | jtagClamp
  /-- JTAG_HIGHZ (R51). -/
  | jtagHighz
  /-- JTAG_IDCODE (R50). -/
  | jtagIdcode
  /-- JTAG_BYPASS (R49): the code shifted in, 0xFF or an unlisted one. -/
  | jtagBypass (code : Byte)
  /-- OVERTEMP_STOP (R54). -/
  | overtempStop
  /-- PERIOD_BOUNDARY (R65). -/
  | periodBoundary (marks : List (Fin 128 × Nat))
  /-- COMMIT_GUARD_TICK (R69): the words its engine read as uncorrectable where couching is cut short (R461). -/
  | commitGuardTick (couchBad : List Word)
  /-- XTAL_EDGE_TIMEOUT (R71). -/
  | xtalEdgeTimeout
  /-- XTAL_WINDOW_END (R71): the edges counted in the window. -/
  | xtalWindowEnd (edges : Nat)
  /-- IOD_PLL_UNLOCK (R72). -/
  | iodPllUnlock
  /-- REGION_PLL_UNLOCK (R72). -/
  | regionPllUnlock (d : Die) (r : Region)
  /-- TB_TIME_SNAPSHOT (R73): reader 0 to 11 is a core, 12 the debug port (R406). -/
  | tbTimeSnapshot (d : Die) (reader : Fin 13)
  /-- FLASH_DISCOVERY (R77): the discovery table, or none when no valid one answers. -/
  | flashDiscovery (table : Option FlashTable)
  /-- STAGE1_VERIFY (R105): `readError` when the flash read failed. -/
  | stage1Verify (readError : Bool)
  /-- IODSUP_VERIFY (R105). -/
  | iodsupVerify (readError : Bool)
  /-- PRICKING_COPY_CHECK (R89): read errors of copies A and B. -/
  | prickingCopyCheck (readErrorA readErrorB : Bool)
  /-- FIRMWARE_SLOT_CHECK (R105, R107): bit `n` of `readErrors`: the read of slot `n` fails. -/
  | firmwareSlotCheck (readErrors : BitVec 2)
  /-- PRICKING_APPLY (R91): bit 0, 1 of `readBackFaults`: the first, second copy applied reads back differently;
  `passiveAgrees`: R92; `tests`: what the tests of the phase find. -/
  | prickingApply (readBackFaults : BitVec 2) (passiveAgrees : Bool) (tests : ApplyTests)
  /-- REVOKE_FUSE_BURN (R87): `readsRevoked`: the fuse reads back as revoked. -/
  | revokeFuseBurn (slot : Fin 4) (readsRevoked : Bool)
  /-- LANE_WINDOW_CLOSE (R95). -/
  | laneWindowClose
  /-- MEMBERSHIP_WINDOW_CLOSE (R95). -/
  | membershipWindowClose
  /-- BOOT_RECORD_WRITE (R99). `full`: the FIFO of the crossing is full by an internal fault (R60). -/
  | bootRecordWrite (full : Bool)
  /-- ROM_SELF_CHECK (R98). -/
  | romSelfCheck (d : Die) (pass : Bool)
  /-- FW_FALLBACK (R111): die `d` writes `key` to FW_FALLBACK.KEY. -/
  | fwFallback (d : Die) (key : Byte)
  /-- SLOT_CONFIRM (R108). `full`: the FIFO of the crossing is full by an internal fault (R60). -/
  | slotConfirm (full : Bool)
  /-- REWRITE_SECTOR_DONE (R114). `full`: the FIFO of the crossing is full by an internal fault (R60). -/
  | rewriteSectorDone (full : Bool)
  /-- FZ_TWAIT (R138), with the number of rd (R131). -/
  | fzTwait (d : Die) (core : Fin 12) (rd : Fin 32)
  /-- FZ_TPOST (R136). -/
  | fzTpost (d : Die) (core : Fin 12) (rd : Fin 32) (rs1 rs2 : Word)
  /-- FZ_TCANCEL (R142). -/
  | fzTcancel (d : Die) (core : Fin 12) (rd : Fin 32) (rs1 : Word)
  /-- FZ_LOCK (R144). -/
  | fzLock (d : Die) (core : Fin 12) (rd : Fin 32) (rs1 : Word)
  /-- FZ_UNLOCK (R144). -/
  | fzUnlock (d : Die) (core : Fin 12) (rd : Fin 32) (rs1 : Word)
  /-- FZ_COMMIT (R134). `full`: the FIFO of the crossing is full by an internal fault (R60). -/
  | fzCommit (d : Die) (core : Fin 12) (rd : Fin 32) (rs1 : Word) (full : Bool)
  /-- DELAY_EXPIRY (R136): one Bobbin tick edge of the cluster. -/
  | delayExpiry (d : Die) (cluster : Fin 4)
  /-- TASK_WATCHDOG (R139). -/
  | taskWatchdog (d : Die) (core : Fin 12)
  /-- CORE_FAULT (R147): the cause and the core's mepc and mtval. -/
  | coreFault (d : Die) (core : Fin 12) (cause : Byte) (epc tval : Word)
  /-- CORE_LOCKS_BROKEN (R145). -/
  | coreLocksBroken (d : Die) (core : Fin 12)
  /-- CORE_RESTART (R147). -/
  | coreRestart (d : Die) (core : Fin 12)
  /-- CORE_LOAD (R125). `full`: the FIFO of the crossing is full by an internal fault (R60). -/
  | coreLoad (d : Die) (core : Fin 12) (rd : Fin 32) (addr : Word) (w : Width) (ecc : Ecc) (full : Bool)
  /-- CORE_STORE (R125); `full`: an internal fault has filled the FIFO to the I/O die (R60). -/
  | coreStore (d : Die) (core : Fin 12) (addr : Word) (w : Width) (v : Word) (ecc : Ecc) (full : Bool) (settings : List Byte)
  /-- CORE_ATOMIC (R123). -/
  | coreAtomic (d : Die) (core : Fin 12) (rd : Fin 32) (op : AmoOp) (addr v : Word) (ecc : Ecc)
  /-- SCRUB_READ (R127): the scrubber of region `r` reads the SRAM word at `addr`. -/
  | scrubRead (d : Die) (r : Region) (addr : Word) (ecc : Ecc)
  /-- BOBBIN_PARITY_ERROR (R128). -/
  | bobbinParityError (d : Die) (cluster : Fin 4)
  /-- LOCK_PARITY_ERROR (R128). -/
  | lockParityError (d : Die)
  /-- GROUND_REQUEST (R155, R160): `cycles` of the target's clock have passed since that clock's last Ground command; what is
  transferred; and that the region FIFO it crosses is full by an internal fault (R60). `errs`: what words
  of a read meet in their SRAM, by their place in the burst (R126). -/
  | groundRequest (d : Die) (target : Fin 38) (req : Fin 24) (words : Fin 17) (cycles : Nat) (xfer : Xfer) (full : Bool) (errs : List (Nat × Ecc))
  /-- GROUND_GRANT (R155). -/
  | groundGrant (d : Die) (target : Fin 38) (cycles : Nat)
  /-- REQUEST_CAPPED (R156). -/
  | requestCapped (d : Die) (target : Fin 38) (req : Fin 24) (cycles : Nat)
  /-- GND_LONG_CLR (R164). -/
  | gndLongClr (d : Die) (mask : BitVec 24)
  /-- SENSE_FRAME (R174): a frame of 25 cells as its 200 samples, four a half-bit, oldest first; and that the FIFO behind the receiver is
  full by an internal fault (R60). -/
  | senseFrame (ch : Fin 128) (samples : List Bool) (full : Bool)
  /-- FAULT_DASH (R179). -/
  | faultDash (ch : Fin 128)
  /-- DASH_END (R175). -/
  | dashEnd (ch : Fin 128)
  /-- MODULATOR_OVERLOAD (R169). -/
  | modulatorOverload (i : Fin 144)
  /-- DECIMATOR_OUTPUT (R181): for a local channel the R new bits, oldest first; a remote channel's come from its frames.
  `full`: the FIFO behind the modulator is full by an internal fault (R60). -/
  | decimatorOutput (i : Fin 144) (bits : List Bool) (full : Bool)
  /-- AUX_OUTPUT (R180). -/
  | auxOutput (ch : Fin 128)
  /-- OPEN_WIRE_TEST_START (R170). -/
  | openWireTestStart (m : Fin 16)
  /-- OPEN_WIRE_TEST_END (R170). -/
  | openWireTestEnd (m : Fin 16)
  /-- MEAS_CAL_REQ (R185). -/
  | measCalReq (d : Die) (mask : BitVec 16)
  /-- CAL_PERIOD_EXPIRY (R185). -/
  | calPeriodExpiry (m : Fin 16)
  /-- SELF_CAL_END (R186): the modulator's 640 bits of the zero half and of the reference half, oldest first. -/
  | selfCalEnd (m : Fin 16) (zero ref : List Bool)
  /-- SINC2_OUTPUT (R191): for a local channel its 8 new bits. -/
  | sinc2Output (i : Fin 144) (bits : List Bool)
  /-- MEAS_INJ_TRIG (R192). -/
  | measInjTrig (d : Die) (u : Fin 8)
  /-- INJ_WINDOW_END (R194). -/
  | injWindowEnd (u : Fin 8)
  /-- CLE_RUN_START (R223). -/
  | cleRunStart (d : Die) (c : Fin 4)
  /-- CLE_NOP (R226). -/
  | cleNop (d : Die) (c : Fin 4) (ecc : Ecc)
  /-- CLE_CLR (R226). -/
  | cleClr (d : Die) (c : Fin 4) (ecc : Ecc)
  /-- CLE_LDI (R226). -/
  | cleLdi (d : Die) (c : Fin 4) (ecc : Ecc)
  /-- CLE_MAC (R226). -/
  | cleMac (d : Die) (c : Fin 4) (ecc : Ecc)
  /-- CLE_ADD (R226). -/
  | cleAdd (d : Die) (c : Fin 4) (ecc : Ecc)
  /-- CLE_ADDI (R226). -/
  | cleAddi (d : Die) (c : Fin 4) (ecc : Ecc)
  /-- CLE_STI (R232). -/
  | cleSti (d : Die) (c : Fin 4) (ecc : Ecc)
  /-- CLE_PRE (R218). -/
  | clePre (d : Die) (c : Fin 4) (ecc : Ecc)
  /-- CLE_WB (R236). -/
  | cleWb (d : Die) (c : Fin 4) (ecc : Ecc)
  /-- CLE_FBK (R233). -/
  | cleFbk (d : Die) (c : Fin 4) (ecc : Ecc)
  /-- CLE_MOV (R226). -/
  | cleMov (d : Die) (c : Fin 4) (ecc : Ecc)
  /-- CLE_GET (R228). `ecc`: what word `word` of the transfer meets; `full` as in CLE_OUT. -/
  | cleGet (d : Die) (c : Fin 4) (ecc : Ecc) (word : Nat) (full : Bool)
  /-- CLE_PUT (R228). `ecc`: what word `word` of the transfer meets; `full` as in CLE_OUT. -/
  | clePut (d : Die) (c : Fin 4) (ecc : Ecc) (word : Nat) (full : Bool)
  /-- CLE_OUT (R226). `full`: the FIFO of the crossing is full by an internal fault (R60). -/
  | cleOut (d : Die) (c : Fin 4) (ecc : Ecc) (full : Bool)
  /-- CLE_END (R224). `full`: the FIFO of the crossing is full by an internal fault (R60). `fullIod`: the FIFO into the I/O die, which the commit crosses. -/
  | cleEnd (d : Die) (c : Fin 4) (full : Bool) (fullIod : Bool)
  /-- LOOP_RELEASE (R241). -/
  | loopRelease (d : Die) (c : Fin 4) (n : Fin 32)
  /-- CLE_FAULT (R246). -/
  | cleFault (d : Die) (c : Fin 4) (cause : Byte)
  /-- CLE_RUN_MAX_CLR (R248). -/
  | cleRunMaxClr (d : Die) (c : Fin 4)
  /-- LADDER_BUILD (R258), by the ladder engine of die `d`. `full`: the FIFO of the crossing is full by an internal fault (R60). -/
  | ladderBuild (d : Die) (full : Bool)
  /-- BAL_REINSTATE (R255). -/
  | balReinstate (d : Die) (n : Fin 128)
  /-- LEVEL_QUANTISER (R261), for arm `a` by the engine of die `d`. `full`: the FIFO of the crossing is full by an internal fault (R60). -/
  | levelQuantiser (d : Die) (a : Fin 6) (full : Bool)
  /-- THRESHOLD_DEADLINE (R271). -/
  | thresholdDeadline (d : Die)
  /-- HEALTH_EVALUATION (R278). -/
  | healthEvaluation (d : Die)
  /-- GATE_EDGE (R285): the pending edge of the upper or lower output of channel `n`. -/
  | gateEdge (n : Fin 128) (upper : Bool)
  /-- CARRIER_CYCLE_START (R294). -/
  | carrierCycleStart (n : Fin 128)
  /-- CARRIER_MID_RELOAD (R295). -/
  | carrierMidReload (n : Fin 128)
  /-- SYNC_IN_EDGE (R300): the synchronised rising edge comes `ticks` after the present tick. -/
  | syncInEdge (ticks : Nat)
  /-- SYNC_WINDOW_CLOSE (R300). -/
  | syncWindowClose
  /-- ECHO_WATCH_TIMEOUT (R301). -/
  | echoWatchTimeout (n : Fin 128)
  /-- TMR_MISMATCH (R305): copy `copy` of channel unit `n` differs from the other copies in use. -/
  | tmrMismatch (n : Fin 128) (copy : Fin 3)
  /-- GEN_DIS (R308): die `d` writes `v` to GEN_DIS[w]. -/
  | genDis (d : Die) (w : Fin 4) (v : Word)
  /-- TRIP_IN_EDGE (R319): TRIP_IN[p] goes to `level`; `pulse` is the width in 0.1 ns when it goes straight back. -/
  | tripInEdge (p : Fin 8) (level : Bool) (pulse : Option Nat)
  /-- BOS_QUIET_TIMEOUT (R318). -/
  | bosQuietTimeout
  /-- TRIP_FW_SET (R318). -/
  | tripFwSet (d : Die) (groups : BitVec 16)
  /-- TRIP_FW_CLR (R318). -/
  | tripFwClr (d : Die) (groups : BitVec 16)
  /-- TRIP_CLR (R323). -/
  | tripClr (d : Die) (groups : BitVec 16)
  /-- BYPASS_TURN_ON (R315). -/
  | bypassTurnOn (n : Fin 128)
  /-- TRIP_RECORD_WRITE (R329). -/
  | tripRecordWrite
  /-- LATCH_TMR_MISMATCH (R326). -/
  | latchTmrMismatch (g : Fin 16) (copy : Fin 3)
  /-- BOS_REPEAT (R322). -/
  | bosRepeat
  /-- LANE_TRAIN_START (R339). -/
  | laneTrainStart (k : Fin 32)
  /-- LANE_CDR_LOCK (R340). -/
  | laneCdrLock (k : Fin 32)
  /-- LANE_EQ_SEARCH_DONE (R345): the FoM taken at each code from CTLE_LO up. -/
  | laneEqSearchDone (k : Fin 32) (foms : List Byte)
  /-- LANE_ALIGN_WINDOW_END (R348), and the die whose BITSLIP write meets it (R356). -/
  | laneAlignWindowEnd (k : Fin 32) (aligned : Bool) (slip : Option Die)
  /-- TRAINING_WORD (R342): bytes 1 to 7 of the received word. -/
  | trainingWord (k : Fin 32) (b1 b2 b3 b4 b5 b6 b7 : Byte)
  /-- PCS_LINK_UP (R343). -/
  | pcsLinkUp (k : Fin 32)
  /-- LANE_ATTEMPT_TIMEOUT (R341). -/
  | laneAttemptTimeout (k : Fin 32)
  /-- SIGNAL_DETECT_LOSS (R350). -/
  | signalDetectLoss (k : Fin 32)
  /-- SIGNAL_DETECT_RISE (R351). -/
  | signalDetectRise (k : Fin 32)
  /-- LANE_BACKOFF_END (R341). -/
  | laneBackoffEnd (k : Fin 32)
  /-- LANE_ABSENT_POLL (R351). -/
  | laneAbsentPoll (k : Fin 32)
  /-- LANE_FOM_MEASURE (R344): the counts h and v. -/
  | laneFomMeasure (k : Fin 32) (h v : Nat)
  /-- DFE_UPDATE (R346): the sign of the update of each tap, tap 1 first. -/
  | dfeUpdate (k : Fin 32) (signs : List Int)
  /-- LANE_ALIGN_LOSS (R349): the invalid code-groups, misplaced K28.5 codes or invalid sync headers within 64. -/
  | laneAlignLoss (k : Fin 32) (invalid : Nat)
  /-- QUAD_PLL_UNLOCK (R336). -/
  | quadPllUnlock (q : Fin 8) (pll : Fin 2)
  /-- LANE_RETRAIN (R350). -/
  | laneRetrain (d : Die) (k : Fin 32)
  /-- LANE_BITSLIP (R348). -/
  | laneBitslip (d : Die) (k : Fin 32)
  /-- LANE_RT_CLR (R350): with `events` retrains in that cycle (R356). -/
  | laneRtClr (d : Die) (k : Fin 32) (events : Nat)
  /-- LANE_TX_SLEEP (R352). -/
  | laneTxSleep (d : Die) (k : Fin 32) (sleep : Bool)
  /-- LANE_RX_SLEEP (R352). -/
  | laneRxSleep (d : Die) (k : Fin 32) (sleep : Bool)
  /-- LANE_RX_RELOCK (R353): the window's outcome and the next FoM counts. -/
  | laneRxRelock (k : Fin 32) (aligned : Bool) (h v : Nat)
  /-- LANE_LOOPBACK (R354). -/
  | laneLoopback (d : Die) (k : Fin 32) (loop : BitVec 3)
  /-- LANE_PRBS (R355). -/
  | lanePrbs (d : Die) (k : Fin 32) (prbs : BitVec 3)
  /-- CYCLE (R369), received on link `l`, the first bit of its SOF `age` × 2^-16 ns ago (R371, R424). -/
  | cycle (l : Fin 32) (h : NolHeader) (p : CyclePayload) (age : Nat)
  /-- REF (R368). -/
  | ref (l : Fin 32) (h : NolHeader) (ws : List Word)
  /-- THRESHOLD (R267). -/
  | threshold (l : Fin 32) (h : NolHeader) (p : ThresholdPayload)
  /-- LADDER (R260). -/
  | ladder (l : Fin 32) (h : NolHeader) (p : LadderPayload)
  /-- STATUS (R371). -/
  | status (l : Fin 32) (h : NolHeader) (p : StatusPayload)
  /-- HEALTH (R367). -/
  | health (l : Fin 32) (h : NolHeader) (grade : Byte) (es : List HealthEntry)
  /-- BULK (R367). -/
  | bulk (l : Fin 32) (h : NolHeader) (bytes : List Byte)
  /-- JOIN (R384), and the other JOINs that arrive in its tick. -/
  | join (l : Fin 32) (h : NolHeader) (p : JoinPayload) (others : List JoinArrival)
  /-- ACCEPT (R385). -/
  | accept (l : Fin 32) (h : NolHeader) (uid : BitVec 64) (fromPeriod : Word)
  /-- REFUSE (R385). -/
  | refuse (l : Fin 32) (h : NolHeader) (uid : BitVec 64) (reason : Byte)
  /-- LEAVE (R386). -/
  | leave (l : Fin 32) (h : NolHeader) (uid : BitVec 64) (reason : Byte)
  /-- BLOCK_ORDER_SET (R320), recognised on lane `k`. -/
  | blockOrderSet (k : Fin 32)
  /-- BOND_MARKER (R381): bytes A and B on lane `k`, arriving `skew` words from the others. -/
  | bondMarker (k : Fin 32) (a b : Byte) (skew : Nat)
  /-- SLOT_START (R374): the START tick of entry `e` of the form in force of link `l`. `full`: the FIFO of the crossing is full by an internal fault (R60). -/
  | slotStart (l e : Fin 32) (full : Bool)
  /-- OPEN_FRAME_SEND (R375): where a STATUS leaves, with the bond positions the firmware is to put to sleep (R380). `full`: the FIFO of the crossing is full by an internal fault (R60). -/
  | openFrameSend (l : Fin 32) (sleep : BitVec 4) (full : Bool)
  /-- BULK_FRAME_SEND (R376). `full`: the FIFO of the crossing is full by an internal fault (R60). -/
  | bulkFrameSend (l : Fin 32) (full : Bool)
  /-- MARKER_DUE (R380). -/
  | markerDue (l : Fin 32)
  /-- ROUTE_EXPIRY (R362). -/
  | routeExpiry (j : Fin 32)
  /-- JOIN_START (R385). -/
  | joinStart
  /-- JOIN_RETRY (R385). -/
  | joinRetry
  /-- REFUSED_RETRY (R385). -/
  | refusedRetry
  /-- MEMBERSHIP_TIMEOUT (R385). -/
  | membershipTimeout
  /-- MEMBER_TIMEOUT (R386), and whether a frame from the Cell arrives in its tick (R388). -/
  | memberTimeout (j : Fin 32) (frame : Bool)
  /-- ETH_FRAME_RECEIVE (R394). `full`: the FIFO of the crossing is full by an internal fault (R60). -/
  | ethFrameReceive (p : Fin 4) (f : EthFrame) (full : Bool)
  /-- READ (R406). -/
  | read (h : MaintHeader) (addr : Word) (count : BitVec 16) (passive : Bool)
  /-- READ_SIGNAL (R404). -/
  | readSignal (h : MaintHeader) (index : BitVec 16)
  /-- IDENTITY (R404). -/
  | identity (h : MaintHeader) (offset : Word) (count : BitVec 16)
  /-- ATTEST (R117). -/
  | attest (h : MaintHeader) (nonce : BitVec 128)
  /-- DELIVER_BEGIN (R407). -/
  | deliverBegin (h : MaintHeader) (kind : Byte) (total : Word)
  /-- DELIVER_DATA (R407). -/
  | deliverData (h : MaintHeader) (offset : Word) (bytes : List Byte)
  /-- DELIVER_END (R407), whether what is written then reads back as it was sent (R109), and whether the check of a privileged
image meets a read error (R105, R114). -/
  | deliverEnd (h : MaintHeader) (crc : Word) (readBack : Bool) (readError : Bool)
  /-- DELIVER_STAT (R404). -/
  | deliverStat (h : MaintHeader)
  /-- DELIVERY_TIMEOUT (R407), and whether a request of the delivery is taken in its tick (R428). -/
  | deliveryTimeout (request : Bool)
  /-- PRP_SUPERVISION_SEND (R398). `full`: the FIFO of the crossing is full by an internal fault (R60). -/
  | prpSupervisionSend (pair : Fin 2) (full : Bool)
  /-- PRP_SUPERVISION_FRAME (R398). -/
  | prpSupervisionFrame (p : Fin 4)
  /-- DUPLICATE_ENTRY_EXPIRY (R399): the oldest entry of the pair's table. -/
  | duplicateEntryExpiry (pair : Fin 2)
  /-- SV_FRAME (R409). -/
  | svFrame (f : SvFrame)
  /-- GOOSE_SEND (R414). `full`: the FIFO of the crossing is full by an internal fault (R60). -/
  | gooseSend (d : Die) (b : Fin 8) (full : Bool)
  /-- GOOSE_REPEAT (R414). `full`: the FIFO of the crossing is full by an internal fault (R60). -/
  | gooseRepeat (b : Fin 8) (full : Bool)
  /-- GOOSE_FRAME (R415). -/
  | gooseFrame (f : GooseFrame)
  /-- GOOSE_STALE (R416). -/
  | gooseStale (sub : Fin 32)
  /-- PTP_SYNC (R420): t1, t2 and correctionField in 2^-16 ns; `twoStep`: a Follow_Up will come. The device's own stamps are
  those of its pins, before ETH_TS_ADJ (R418), here and in the rows below. -/
  | ptpSync (p : Fin 4) (domain : Byte) (seq : BitVec 16) (twoStep : Bool) (t1 t2 corr : Int)
  /-- PTP_FOLLOW_UP (R420): the precise t1 and the Follow_Up's correctionField. -/
  | ptpFollowUp (p : Fin 4) (domain : Byte) (seq : BitVec 16) (t1 corr : Int)
  /-- PTP_PDELAY_REQ (R418): receipt t2 and departure t3 of the answer, in 2^-16 ns. `full`: the FIFO of the crossing is full by an internal fault (R60). -/
  | ptpPdelayReq (p : Fin 4) (domain : Byte) (seq : BitVec 16) (corr t2 t3 : Int) (full : Bool)
  /-- PTP_PDELAY_RESP (R420): requestReceiptTimestamp t2, arrival t4, correctionField, two-step flag. -/
  | ptpPdelayResp (p : Fin 4) (domain : Byte) (seq : BitVec 16) (twoStep : Bool) (t2 t4 corr : Int)
  /-- PTP_PDELAY_RESP_FOLLOW_UP (R420): responseOriginTimestamp t3 and correctionField. -/
  | ptpPdelayRespFollowUp (p : Fin 4) (domain : Byte) (seq : BitVec 16) (t3 corr : Int)
  /-- PTP_ANNOUNCE (R419). -/
  | ptpAnnounce (p : Fin 4) (m : PtpAnnounceMsg)
  /-- PTP_MANAGEMENT (R417). -/
  | ptpManagement (p : Fin 4)
  /-- PTP_SYNC_SEND (R418): the departure time in 2^-16 ns. `full`: the FIFO of the crossing is full by an internal fault (R60). -/
  | ptpSyncSend (p : Fin 4) (departure : Nat) (full : Bool)
  /-- PTP_ANNOUNCE_SEND (R419). `full`: the FIFO of the crossing is full by an internal fault (R60). -/
  | ptpAnnounceSend (p : Fin 4) (full : Bool)
  /-- PTP_PDELAY_REQ_SEND (R419): the departure t1 in 2^-16 ns. `full`: the FIFO of the crossing is full by an internal fault (R60). -/
  | ptpPdelayReqSend (p : Fin 4) (t1 : Int) (full : Bool)
  /-- PTP_ANNOUNCE_TIMEOUT (R423). -/
  | ptpAnnounceTimeout (p : Fin 4)
  /-- PTP_SYNC_TIMEOUT (R423). -/
  | ptpSyncTimeout (p : Fin 4)
  /-- NOLRI_SOURCE_LOSS (R423). -/
  | nolriSourceLoss
  /-- SERVO_HOLDOVER_EXPIRY (R423), and whether a sample comes in its tick (R428). -/
  | servoHoldoverExpiry (sample : Bool)
  /-- PICOT_PULSE_START (R426). -/
  | picotPulseStart (p : Fin 8)
  /-- PICOT_PULSE_END (R426). -/
  | picotPulseEnd (p : Fin 8)
  /-- CPM_EMERGENCY (R436). -/
  | cpmEmergency (d : Die) (r : Region) (path : CpmPath)
  /-- AVS_UPDATE (R437): the interval's minima S_core and S_cle, in taps. -/
  | avsUpdate (d : Die) (r : Region) (sCore sCle : BitVec 7)
  /-- FREQ_STEP_DONE (R439). -/
  | freqStepDone (d : Die) (r : Region)
  /-- SENSOR_CONVERSION (R442): the reading, signed Q8.8 degrees C. -/
  | sensorConversion (sensor : Sensor) (t : BitVec 16)
  /-- THERMAL_CAP_LIFT (R443). -/
  | thermalCapLift (d : Die) (r : Region)
  /-- PLACEMENT_EVAL (R446). -/
  | placementEval (d : Die)
  /-- SPARE_SELF_TEST (R448). -/
  | spareSelfTest (d : Die) (pass : Bool)
  /-- SUBST_REAPPLY_DONE (R449). -/
  | substReapplyDone (d : Die) (readBackOk : Bool)
  /-- SUBST_STATE_COPY_DONE (R449). -/
  | substStateCopyDone (d : Die)
  /-- COUCH_START (R461). -/
  | couchStart
  /-- COUCH_STREAM_DONE (R461): the words the worker's engine read as uncorrectable. `lost`: the addresses of the words that a full FIFO
  lost (R60). -/
  | couchStreamDone (bad : List Word) (lost : List Word)
  /-- FULL_PASS_DONE (R462). -/
  | fullPassDone (readBackOk : Bool)
  /-- FULL_PASS_TIMEOUT (R462). -/
  | fullPassTimeout
  /-- DIE_SELF_CHECK_VERDICT (R466): the worker's and the passive's verdicts. -/
  | dieSelfCheckVerdict (workerPass passivePass : Bool)
  /-- ROLE_CHANGE (R467). -/
  | roleChange
  /-- BRIDE_CRC_FAULT (R468). -/
  | brideCrcFault (d : Die)
  /-- HEARTBEAT_FAULT (R468). -/
  | heartbeatFault (d : Die)
  /-- DIE_REJOIN_RESET (R470). -/
  | dieRejoinReset (d : Die)
  /-- DIE_REJOIN_READY (R470). -/
  | dieRejoinReady (d : Die) (agrees : Bool)
  /-- REJOIN_TIMEOUT (R470). -/
  | rejoinTimeout (d : Die)
  /-- SPARE_BANK_COPY_DONE (R472). -/
  | spareBankCopyDone (d : Die) (r : Region)
  /-- CE_WINDOW_END (R471). -/
  | ceWindowEnd (d : Die)
  /-- STOP_HALT (R478). -/
  | stopHalt
  /-- LOG_RECORD_WRITE (R480). `full`: the FIFO of the crossing is full by an internal fault (R60). -/
  | logRecordWrite (full : Bool)
  /-- RED_CNT_CLR (R466): with `events` discords counted in that tick (R481). -/
  | redCntClr (d : Die) (events : Nat)
  /-- LAST_RAIL_IN_TOLERANCE (R37). -/
  | lastRailInTolerance
  /-- DEVICE_EPOCH (R300). -/
  | deviceEpoch
  /-- SYNC_OUT_PULSE_END (R298). -/
  | syncOutPulseEnd
  /-- PRBS_CHECKER_LOCK (R355): bits that reach the checker, oldest first, and whether it loses lock after them. -/
  | prbsCheckerLock (k : Fin 32) (bits : List Bool) (lost : Bool)
  /-- NOLRI_FRAME_BAD (R367). `full`: the FIFO of the crossing is full by an internal fault (R60). -/
  | nolriFrameBad (l : Fin 32) (full : Bool)
  /-- ATTEST_REPORT_SIGNED (R118). `full`: the FIFO of the crossing is full by an internal fault (R60). -/
  | attestReportSigned (full : Bool)
  /-- MAINT_REQUEST_ANSWERED (R408). `full`: the FIFO of the lane; `fullFlash`: that into the flash (R60). -/
  | maintRequestAnswered (full : Bool) (fullFlash : Bool)
deriving DecidableEq, Repr

end Sys2Proof
end

