-- ==== Sys2Proof/Decode.lean ====
section
/-! DEFINITION. The commands that table words spell. spec/opcode_table.json gives no row of this block any bits, so no
word spells a command. The control-law engine's instruction words have their own decoder in Machine/CleCode.lean. -/

namespace Sys2Proof

/-- The command that the word `w` of `nbits` bits spells: none, since no row of the table has bits. -/
def decodeTableWord (nbits w : Nat) : Option Instr :=
  match nbits, w with
  | _, _ => none

end Sys2Proof
end

