-- ==== Sys2Proof/Config.lean ====
section
/-! DEFINITION. What an implementation fixes and the spec leaves open: free values with no body, and the cryptographic
primitives of the boot, which no claim evaluates. -/

namespace Sys2Proof.Config

/-- The n-th free value drawn (log entry 3): nothing constrains it. -/
opaque free : Nat → Nat

/-- Bytes beyond the least of the frame that begins to leave Ethernet port `p` in tick `t`, where another standard fixes its
encoding (log entry 145): nothing constrains it. -/
opaque frameBytes : (p t : Nat) → Nat

/-- Priority of a tagged PTP frame, which R395 leaves open (log entry 145): nothing constrains it. -/
opaque ptpPriority : Nat

/-- Instructions of a core in tick `t` that no command shows (log entry 13): nothing constrains it. -/
opaque coreInstrs : (die core t : Nat) → Nat

/-- SHAKE256 with 256 bits of output over a byte string (R78, R85). -/
opaque shake256 : List Byte → List Byte

/-- Falcon-1024 verification of a padded signature over a message under a public key (R85). -/
opaque falconVerify : (pubKey msg sig : List Byte) → Bool

/-- Falcon-1024 signature of the unit's own key over a message (R117). -/
opaque falconSign : (msg : List Byte) → List Byte

/-- The identity record at 0x7002_0000: the unit's public key and Hennaryn's signature over it (R117). -/
opaque identity : Nat → Byte

/-- The boot ROM's bytes (R123). -/
opaque bootRom : Nat → Byte

end Sys2Proof.Config
end

