-- ==== Sys2Proof/Machine/Registers.lean ====
section
/-! DEFINITION. The register map: every register field of the spec's register tables, with its address, bits, access code
and reset value, and the table of register words. Rules R1, R18, R47, R48, R73, R100, R101, R119, R149, R165, R197,
R248 to R250, R280, R281, R310, R311, R331 to R333, R357, R358, R389 to R391, R429 to R433, R452, R453, R482, R483. -/

namespace Sys2Proof.Machine

/-- The access codes of R4. -/
inductive Access where
  | rw | ro | w1c | wo | sh | pk
deriving DecidableEq, Repr

/-- A register field: the word's byte address, lowest bit, width, access code and reset value. A reset that the spec takes
from OTP or a pin stands here at the value of log entry 2. -/
structure Field where
  addr : Nat
  lo : Nat
  width : Nat
  acc : Access
  reset : Nat
deriving DecidableEq, Repr

/-- A family of register words: the first word's address, the (stride, count) of each index, and the word's fields. -/
structure RegSpec where
  base : Nat
  dims : List (Nat × Nat)
  fields : List Field
deriving DecidableEq, Repr

namespace Reg

/-- SYS_CHIP_ID.TYPE (R1). -/
def SYS_CHIP_ID_TYPE : Field := ⟨0x50000000, 16, 16, .ro, 0x6128⟩
/-- SYS_CHIP_ID.CTL_MAJ (R1). -/
def SYS_CHIP_ID_CTL_MAJ : Field := ⟨0x50000000, 12, 4, .ro, 1⟩
/-- SYS_CHIP_ID.CTL_MIN (R1). -/
def SYS_CHIP_ID_CTL_MIN : Field := ⟨0x50000000, 8, 4, .ro, 0⟩
/-- SYS_CHIP_ID.IOD_MAJ (R1). -/
def SYS_CHIP_ID_IOD_MAJ : Field := ⟨0x50000000, 4, 4, .ro, 1⟩
/-- SYS_CHIP_ID.IOD_MIN (R1). -/
def SYS_CHIP_ID_IOD_MIN : Field := ⟨0x50000000, 1, 3, .ro, 0⟩
/-- SYS_CHIP_ID.ES (R1). -/
def SYS_CHIP_ID_ES : Field := ⟨0x50000000, 0, 1, .ro, 0⟩

/-- SYS_UID_LO.UID (R1). -/
def SYS_UID_LO_UID : Field := ⟨0x50000004, 0, 32, .ro, 0⟩

/-- SYS_UID_HI.UID (R1). -/
def SYS_UID_HI_UID : Field := ⟨0x50000008, 0, 32, .ro, 0⟩

/-- SYS_NODE.ROLE (R18). -/
def SYS_NODE_ROLE : Field := ⟨0x50000010, 31, 1, .pk, 0⟩
/-- SYS_NODE.ARM (R18). -/
def SYS_NODE_ARM : Field := ⟨0x50000010, 28, 3, .pk, 7⟩
/-- SYS_NODE.PARENT (R18). -/
def SYS_NODE_PARENT : Field := ⟨0x50000010, 16, 12, .pk, 0⟩
/-- SYS_NODE.NODE_ID (R18). -/
def SYS_NODE_NODE_ID : Field := ⟨0x50000010, 0, 12, .pk, 0⟩

/-- SYS_TOPO.CELLS (R18). -/
def SYS_TOPO_CELLS : Field := ⟨0x50000014, 24, 6, .pk, 0⟩
/-- SYS_TOPO.ARMS (R18). -/
def SYS_TOPO_ARMS : Field := ⟨0x50000014, 16, 3, .pk, 0⟩
/-- SYS_TOPO.SM_COUNT (R18). -/
def SYS_TOPO_SM_COUNT : Field := ⟨0x50000014, 0, 13, .pk, 0⟩

/-- SYS_STRAP.TEST_EN (R47). -/
def SYS_STRAP_TEST_EN : Field := ⟨0x50000018, 9, 1, .ro, 0⟩
/-- SYS_STRAP.OPEN (R47). -/
def SYS_STRAP_OPEN : Field := ⟨0x50000018, 8, 1, .ro, 0⟩
/-- SYS_STRAP.SAMPLE_DN (R47). -/
def SYS_STRAP_SAMPLE_DN : Field := ⟨0x50000018, 1, 1, .ro, 0⟩
/-- SYS_STRAP.SAMPLE_UP (R47). -/
def SYS_STRAP_SAMPLE_UP : Field := ⟨0x50000018, 0, 1, .ro, 0⟩

/-- IOD_PAD_CFG.PICOT_SLOW (R48). -/
def IOD_PAD_CFG_PICOT_SLOW : Field := ⟨0x40F00000, 3, 1, .pk, 0⟩
/-- IOD_PAD_CFG.CH_SN_TERM (R48). -/
def IOD_PAD_CFG_CH_SN_TERM : Field := ⟨0x40F00000, 2, 1, .pk, 0⟩
/-- IOD_PAD_CFG.CH_DRIVE (R48). -/
def IOD_PAD_CFG_CH_DRIVE : Field := ⟨0x40F00000, 0, 1, .pk, 1⟩

/-- IOD_RAIL_STAT.UVS_VDDA18 (R48). -/
def IOD_RAIL_STAT_UVS_VDDA18 : Field := ⟨0x40F00004, 21, 1, .w1c, 0⟩
/-- IOD_RAIL_STAT.UVS_VDDH_SER (R48). -/
def IOD_RAIL_STAT_UVS_VDDH_SER : Field := ⟨0x40F00004, 20, 1, .w1c, 0⟩
/-- IOD_RAIL_STAT.UVS_VDDA_SER (R48). -/
def IOD_RAIL_STAT_UVS_VDDA_SER : Field := ⟨0x40F00004, 19, 1, .w1c, 0⟩
/-- IOD_RAIL_STAT.UVS_VDD33_CH (R48). -/
def IOD_RAIL_STAT_UVS_VDD33_CH : Field := ⟨0x40F00004, 18, 1, .w1c, 0⟩
/-- IOD_RAIL_STAT.UVS_VDD18 (R48). -/
def IOD_RAIL_STAT_UVS_VDD18 : Field := ⟨0x40F00004, 17, 1, .w1c, 0⟩
/-- IOD_RAIL_STAT.UVS_VDD_IOD (R48). -/
def IOD_RAIL_STAT_UVS_VDD_IOD : Field := ⟨0x40F00004, 16, 1, .w1c, 0⟩
/-- IOD_RAIL_STAT.UV_NOW (R48). -/
def IOD_RAIL_STAT_UV_NOW : Field := ⟨0x40F00004, 0, 6, .ro, 0⟩

/-- TB_PERIOD.CP (R73). -/
def TB_PERIOD_CP : Field := ⟨0x40100000, 0, 19, .pk, 0x1388⟩

/-- TB_GUARD.GUARD (R73). -/
def TB_GUARD_GUARD : Field := ⟨0x40100004, 0, 10, .pk, 0x64⟩

/-- TB_TIME_SEC_HI.SEC (R73). -/
def TB_TIME_SEC_HI_SEC : Field := ⟨0x40100008, 0, 16, .ro, 0⟩

/-- TB_TIME_SEC_LO.SEC (R73). -/
def TB_TIME_SEC_LO_SEC : Field := ⟨0x4010000C, 0, 32, .ro, 0⟩

/-- TB_TIME_NS.NS (R73). -/
def TB_TIME_NS_NS : Field := ⟨0x40100010, 0, 30, .ro, 0⟩

/-- TB_TIME_FRAC.FRAC (R73). -/
def TB_TIME_FRAC_FRAC : Field := ⟨0x40100014, 0, 8, .ro, 0⟩

/-- TB_PERIOD_NUM.K (R73). -/
def TB_PERIOD_NUM_K : Field := ⟨0x40100018, 0, 32, .ro, 0⟩

/-- TB_ADDEND_HI.NS (R73). -/
def TB_ADDEND_HI_NS : Field := ⟨0x4010001C, 0, 4, .ro, 2⟩

/-- TB_ADDEND_LO.FRAC (R73). -/
def TB_ADDEND_LO_FRAC : Field := ⟨0x40100020, 0, 32, .ro, 0⟩

/-- TB_STAT.STEP_REFUSED (R73). -/
def TB_STAT_STEP_REFUSED : Field := ⟨0x40100024, 5, 1, .w1c, 0⟩
/-- TB_STAT.TIME_VALID (R73). -/
def TB_STAT_TIME_VALID : Field := ⟨0x40100024, 4, 1, .ro, 0⟩
/-- TB_STAT.PLL_LOCK (R73). -/
def TB_STAT_PLL_LOCK : Field := ⟨0x40100024, 3, 1, .ro, 0⟩
/-- TB_STAT.XTAL_LOST (R73). -/
def TB_STAT_XTAL_LOST : Field := ⟨0x40100024, 2, 1, .w1c, 0⟩
/-- TB_STAT.SHORT (R73). -/
def TB_STAT_SHORT : Field := ⟨0x40100024, 1, 1, .w1c, 0⟩
/-- TB_STAT.MISS (R73). -/
def TB_STAT_MISS : Field := ⟨0x40100024, 0, 1, .w1c, 0⟩

/-- TB_MISS_CNT.COUNT (R73). -/
def TB_MISS_CNT_COUNT : Field := ⟨0x40100028, 0, 32, .ro, 0⟩

/-- TB_MISS_SAT.SAT (R73). -/
def TB_MISS_SAT_SAT : Field := ⟨0x4010002C, 0, 1, .w1c, 0⟩

/-- BOOT_STAT.PHASE (R100). -/
def BOOT_STAT_PHASE : Field := ⟨0x50000100, 28, 4, .ro, 0⟩
/-- BOOT_STAT.MAINT (R100). -/
def BOOT_STAT_MAINT : Field := ⟨0x50000100, 24, 1, .ro, 0⟩
/-- BOOT_STAT.COPY (R100). -/
def BOOT_STAT_COPY : Field := ⟨0x50000100, 20, 1, .ro, 0⟩
/-- BOOT_STAT.FW_SLOT (R100). -/
def BOOT_STAT_FW_SLOT : Field := ⟨0x50000100, 16, 1, .ro, 0⟩
/-- BOOT_STAT.WORKER (R100). -/
def BOOT_STAT_WORKER : Field := ⟨0x50000100, 1, 1, .ro, 0⟩
/-- BOOT_STAT.UNSIGNED (R100). -/
def BOOT_STAT_UNSIGNED : Field := ⟨0x50000100, 0, 1, .ro, 0⟩

/-- BOOT_COPY_STAT.FAIL_OFFSET (R100). -/
def BOOT_COPY_STAT_FAIL_OFFSET (i : Nat) : Field := ⟨0x50000104 + 0x4 * i, 8, 24, .ro, 0⟩
/-- BOOT_COPY_STAT.RESULT (R100). -/
def BOOT_COPY_STAT_RESULT (i : Nat) : Field := ⟨0x50000104 + 0x4 * i, 0, 8, .ro, 0xFF⟩

/-- BOOT_SEQ.SEQ (R100). -/
def BOOT_SEQ_SEQ (i : Nat) : Field := ⟨0x5000010C + 0x4 * i, 0, 32, .ro, 0⟩

/-- BOOT_STAT_SEQ.SEQ (R100). -/
def BOOT_STAT_SEQ_SEQ : Field := ⟨0x50000114, 0, 32, .ro, 0⟩

/-- BOOT_READY_TIME.US (R100). -/
def BOOT_READY_TIME_US : Field := ⟨0x50000118, 0, 20, .ro, 0⟩

/-- SEC_FUSE_CFG.KEY_REVOKED (R101). -/
def SEC_FUSE_CFG_KEY_REVOKED : Field := ⟨0x70010000, 8, 4, .ro, 0⟩
/-- SEC_FUSE_CFG.KEY_PRESENT (R101). -/
def SEC_FUSE_CFG_KEY_PRESENT : Field := ⟨0x70010000, 4, 4, .ro, 0⟩
/-- SEC_FUSE_CFG.FW_SIGN (R101). -/
def SEC_FUSE_CFG_FW_SIGN : Field := ⟨0x70010000, 1, 1, .ro, 0⟩
/-- SEC_FUSE_CFG.PRICK_SIGN (R101). -/
def SEC_FUSE_CFG_PRICK_SIGN : Field := ⟨0x70010000, 0, 1, .ro, 0⟩

/-- SEC_KEY_DIGEST.D (R101). -/
def SEC_KEY_DIGEST_D (i : Nat) (j : Nat) : Field := ⟨0x70010100 + 0x20 * i + 0x4 * j, 0, 32, .ro, 0⟩

/-- FW_SLOT_STAT.RESULT (R119). -/
def FW_SLOT_STAT_RESULT (i : Nat) : Field := ⟨0x50000120 + 0x4 * i, 24, 8, .ro, 0xFF⟩
/-- FW_SLOT_STAT.STATE (R119). -/
def FW_SLOT_STAT_STATE (i : Nat) : Field := ⟨0x50000120 + 0x4 * i, 16, 4, .ro, 0⟩
/-- FW_SLOT_STAT.ATTEMPTS (R119). -/
def FW_SLOT_STAT_ATTEMPTS (i : Nat) : Field := ⟨0x50000120 + 0x4 * i, 8, 2, .ro, 0⟩
/-- FW_SLOT_STAT.REVERT (R119). -/
def FW_SLOT_STAT_REVERT (i : Nat) : Field := ⟨0x50000120 + 0x4 * i, 4, 1, .ro, 0⟩
/-- FW_SLOT_STAT.RUNNING (R119). -/
def FW_SLOT_STAT_RUNNING (i : Nat) : Field := ⟨0x50000120 + 0x4 * i, 0, 1, .ro, 0⟩

/-- FW_VERSION.VERSION (R119). -/
def FW_VERSION_VERSION (i : Nat) : Field := ⟨0x50000128 + 0x4 * i, 0, 32, .ro, 0⟩

/-- FW_FALLBACK.KEY (R119). -/
def FW_FALLBACK_KEY : Field := ⟨0x50000130, 0, 8, .wo, 0⟩

/-- CORE_CLUSTER_CFG.SPARE (R149). -/
def CORE_CLUSTER_CFG_SPARE : Field := ⟨0x50001000, 0, 2, .pk, 3⟩

/-- CORE_RESTART.VECTOR (R149). -/
def CORE_RESTART_VECTOR : Field := ⟨0x50001004, 1, 31, .pk, 0x38000000⟩

/-- BOB_CFG.RUN_LIMIT (R149). -/
def BOB_CFG_RUN_LIMIT (i : Nat) : Field := ⟨0x50002000 + 0x100 * i, 8, 12, .pk, 0x64⟩
/-- BOB_CFG.TICK (R149). -/
def BOB_CFG_TICK (i : Nat) : Field := ⟨0x50002000 + 0x100 * i, 0, 8, .pk, 4⟩

/-- BOB_DESC.VALID (R149). -/
def BOB_DESC_VALID (i : Nat) (j : Nat) : Field := ⟨0x50004000 + 0x200 * i + 0x4 * j, 31, 1, .pk, 0⟩
/-- BOB_DESC.CORES (R149). -/
def BOB_DESC_CORES (i : Nat) (j : Nat) : Field := ⟨0x50004000 + 0x200 * i + 0x4 * j, 24, 3, .rw, 0⟩
/-- BOB_DESC.PRIO (R149). -/
def BOB_DESC_PRIO (i : Nat) (j : Nat) : Field := ⟨0x50004000 + 0x200 * i + 0x4 * j, 16, 3, .rw, 0⟩

/-- EVC_ROUTE.EN (R149). -/
def EVC_ROUTE_EN (i : Nat) : Field := ⟨0x50003000 + 0x4 * i, 31, 1, .rw, 0⟩
/-- EVC_ROUTE.CLUSTER (R149). -/
def EVC_ROUTE_CLUSTER (i : Nat) : Field := ⟨0x50003000 + 0x4 * i, 8, 2, .rw, 0⟩
/-- EVC_ROUTE.DESC (R149). -/
def EVC_ROUTE_DESC (i : Nat) : Field := ⟨0x50003000 + 0x4 * i, 0, 7, .rw, 0⟩

/-- LOCK_HELD.MAP (R149). -/
def LOCK_HELD_MAP (i : Nat) : Field := ⟨0x50005000 + 0x4 * i, 0, 32, .ro, 0⟩

/-- LOCK_BROKEN.MAP (R149). -/
def LOCK_BROKEN_MAP (i : Nat) : Field := ⟨0x50005008 + 0x4 * i, 0, 32, .ro, 0⟩

/-- CORE_FAULT_REC0.CAUSE (R149). -/
def CORE_FAULT_REC0_CAUSE (i : Nat) : Field := ⟨0x50006000 + 0x10 * i, 0, 8, .ro, 0⟩
/-- CORE_FAULT_REC0.COUNT (R149). -/
def CORE_FAULT_REC0_COUNT (i : Nat) : Field := ⟨0x50006000 + 0x10 * i, 16, 16, .ro, 0⟩

/-- CORE_FAULT_REC1.EPC (R149). -/
def CORE_FAULT_REC1_EPC (i : Nat) : Field := ⟨0x50006004 + 0x10 * i, 0, 32, .ro, 0⟩

/-- CORE_FAULT_REC2.TVAL (R149). -/
def CORE_FAULT_REC2_TVAL (i : Nat) : Field := ⟨0x50006008 + 0x10 * i, 0, 32, .ro, 0⟩

/-- CORE_FAULT_REC3.TASK (R149). -/
def CORE_FAULT_REC3_TASK (i : Nat) : Field := ⟨0x5000600C + 0x10 * i, 0, 32, .ro, 0⟩

/-- MEM_ECC_CE_CNT.COUNT (R149). -/
def MEM_ECC_CE_CNT_COUNT (i : Nat) : Field := ⟨0x50007000 + 0x10 * i, 0, 32, .ro, 0⟩

/-- MEM_ECC_STAT.SAT (R149). -/
def MEM_ECC_STAT_SAT (i : Nat) : Field := ⟨0x50007004 + 0x10 * i, 31, 1, .w1c, 0⟩
/-- MEM_ECC_STAT.UE (R149). -/
def MEM_ECC_STAT_UE (i : Nat) : Field := ⟨0x50007004 + 0x10 * i, 30, 1, .w1c, 0⟩
/-- MEM_ECC_STAT.UE_ADDR (R149). -/
def MEM_ECC_STAT_UE_ADDR (i : Nat) : Field := ⟨0x50007004 + 0x10 * i, 0, 24, .ro, 0⟩

/-- GND_CFG.WAIT_CAP (R165). -/
def GND_CFG_WAIT_CAP : Field := ⟨0x50008000, 16, 12, .pk, 0x100⟩
/-- GND_CFG.SEED (R165). -/
def GND_CFG_SEED : Field := ⟨0x50008000, 0, 16, .pk, 0xACE1⟩

/-- GND_PREEMPT_LO.MODE (R165). -/
def GND_PREEMPT_LO_MODE : Field := ⟨0x50008004, 0, 32, .pk, 0⟩

/-- GND_PREEMPT_HI.MODE (R165). -/
def GND_PREEMPT_HI_MODE : Field := ⟨0x50008008, 0, 6, .pk, 0⟩

/-- GND_BULK_DESC.BULK (R165). -/
def GND_BULK_DESC_BULK (i : Nat) (j : Nat) : Field := ⟨0x50008010 + 0x10 * i + 0x4 * j, 0, 32, .rw, 0⟩

/-- GND_TKT.CTL (R165). -/
def GND_TKT_CTL (i : Nat) : Field := ⟨0x50008100 + 0x4 * i, 8, 8, .sh, 0x10⟩
/-- GND_TKT.BLK (R165). -/
def GND_TKT_BLK (i : Nat) : Field := ⟨0x50008100 + 0x4 * i, 0, 8, .rw, 0x10⟩

/-- GND_GRANT_CNT.COUNT (R165). -/
def GND_GRANT_CNT_COUNT (i : Nat) : Field := ⟨0x50008200 + 0x10 * i, 0, 32, .ro, 0⟩

/-- GND_WAIT_CNT.COUNT (R165). -/
def GND_WAIT_CNT_COUNT (i : Nat) : Field := ⟨0x50008204 + 0x10 * i, 0, 32, .ro, 0⟩

/-- GND_LONGEST.COUNT (R165). -/
def GND_LONGEST_COUNT (i : Nat) : Field := ⟨0x50008208 + 0x10 * i, 0, 32, .ro, 0⟩

/-- GND_CNT_STAT.GRANT_SAT (R165). -/
def GND_CNT_STAT_GRANT_SAT (i : Nat) : Field := ⟨0x5000820C + 0x10 * i, 31, 1, .w1c, 0⟩
/-- GND_CNT_STAT.WAIT_SAT (R165). -/
def GND_CNT_STAT_WAIT_SAT (i : Nat) : Field := ⟨0x5000820C + 0x10 * i, 30, 1, .w1c, 0⟩
/-- GND_CNT_STAT.WRAPS (R165). -/
def GND_CNT_STAT_WRAPS (i : Nat) : Field := ⟨0x5000820C + 0x10 * i, 0, 8, .ro, 0⟩

/-- GND_LONG_CLR.CLR (R165). -/
def GND_LONG_CLR_CLR : Field := ⟨0x50008400, 0, 24, .wo, 0⟩

/-- MEAS_CFG.EN (R197). -/
def MEAS_CFG_EN (i : Nat) : Field := ⟨0x40200000 + 0x20 * i, 31, 1, .pk, 0⟩
/-- MEAS_CFG.RATIO (R197). -/
def MEAS_CFG_RATIO (i : Nat) : Field := ⟨0x40200000 + 0x20 * i, 24, 3, .pk, 4⟩
/-- MEAS_CFG.FIR_EN (R197). -/
def MEAS_CFG_FIR_EN (i : Nat) : Field := ⟨0x40200000 + 0x20 * i, 20, 1, .pk, 0⟩
/-- MEAS_CFG.FIR_SET (R197). -/
def MEAS_CFG_FIR_SET (i : Nat) : Field := ⟨0x40200000 + 0x20 * i, 16, 2, .pk, 0⟩
/-- MEAS_CFG.OW (R197). -/
def MEAS_CFG_OW (i : Nat) : Field := ⟨0x40200000 + 0x20 * i, 12, 2, .pk, 0⟩
/-- MEAS_CFG.AUX_KIND (R197). -/
def MEAS_CFG_AUX_KIND (i : Nat) : Field := ⟨0x40200000 + 0x20 * i, 11, 1, .pk, 0⟩
/-- MEAS_CFG.TSRC (R197). -/
def MEAS_CFG_TSRC (i : Nat) : Field := ⟨0x40200000 + 0x20 * i, 10, 1, .pk, 0⟩
/-- MEAS_CFG.LOSS_LIMIT (R197). -/
def MEAS_CFG_LOSS_LIMIT (i : Nat) : Field := ⟨0x40200000 + 0x20 * i, 0, 8, .pk, 4⟩

/-- MEAS_GAIN.GAIN (R197). -/
def MEAS_GAIN_GAIN (i : Nat) : Field := ⟨0x40200004 + 0x20 * i, 0, 32, .pk, 0x40000000⟩

/-- MEAS_OFS.OFS (R197). -/
def MEAS_OFS_OFS (i : Nat) : Field := ⟨0x40200008 + 0x20 * i, 0, 24, .pk, 0⟩

/-- MEAS_TC.TREF (R197). -/
def MEAS_TC_TREF (i : Nat) : Field := ⟨0x4020000C + 0x20 * i, 16, 16, .pk, 0x1900⟩
/-- MEAS_TC.TC (R197). -/
def MEAS_TC_TC (i : Nat) : Field := ⟨0x4020000C + 0x20 * i, 0, 16, .pk, 0⟩

/-- MEAS_TRIM.AT_LIMIT (R197). -/
def MEAS_TRIM_AT_LIMIT (i : Nat) : Field := ⟨0x40200010 + 0x20 * i, 31, 1, .ro, 0⟩
/-- MEAS_TRIM.TRIM (R197). -/
def MEAS_TRIM_TRIM (i : Nat) : Field := ⟨0x40200010 + 0x20 * i, 0, 16, .sh, 0⟩

/-- MEAS_FREEZE.FREEZE_COUNT (R197). -/
def MEAS_FREEZE_FREEZE_COUNT (i : Nat) : Field := ⟨0x40200014 + 0x20 * i, 16, 16, .pk, 0⟩
/-- MEAS_FREEZE.FREEZE_BAND (R197). -/
def MEAS_FREEZE_FREEZE_BAND (i : Nat) : Field := ⟨0x40200014 + 0x20 * i, 0, 16, .pk, 0⟩

/-- MEAS_FP.EN (R197). -/
def MEAS_FP_EN (i : Nat) : Field := ⟨0x40200018 + 0x20 * i, 31, 1, .pk, 0⟩
/-- MEAS_FP.FILT (R197). -/
def MEAS_FP_FILT (i : Nat) : Field := ⟨0x40200018 + 0x20 * i, 16, 3, .pk, 1⟩
/-- MEAS_FP.OV_TH (R197). -/
def MEAS_FP_OV_TH (i : Nat) : Field := ⟨0x40200018 + 0x20 * i, 8, 8, .pk, 0x40⟩
/-- MEAS_FP.UV_TH (R197). -/
def MEAS_FP_UV_TH (i : Nat) : Field := ⟨0x40200018 + 0x20 * i, 0, 8, .pk, 0xC0⟩

/-- MEAS_FLAG.VALID (R197). -/
def MEAS_FLAG_VALID (i : Nat) : Field := ⟨0x4020001C + 0x20 * i, 31, 1, .ro, 0⟩
/-- MEAS_FLAG.RX_STATE (R197). -/
def MEAS_FLAG_RX_STATE (i : Nat) : Field := ⟨0x4020001C + 0x20 * i, 28, 2, .ro, 0⟩
/-- MEAS_FLAG.DASH (R197). -/
def MEAS_FLAG_DASH (i : Nat) : Field := ⟨0x4020001C + 0x20 * i, 15, 1, .w1c, 0⟩
/-- MEAS_FLAG.LOST (R197). -/
def MEAS_FLAG_LOST (i : Nat) : Field := ⟨0x4020001C + 0x20 * i, 14, 1, .w1c, 0⟩
/-- MEAS_FLAG.BADFRAME (R197). -/
def MEAS_FLAG_BADFRAME (i : Nat) : Field := ⟨0x4020001C + 0x20 * i, 13, 1, .w1c, 0⟩
/-- MEAS_FLAG.OVL (R197). -/
def MEAS_FLAG_OVL (i : Nat) : Field := ⟨0x4020001C + 0x20 * i, 12, 1, .w1c, 0⟩
/-- MEAS_FLAG.OPEN (R197). -/
def MEAS_FLAG_OPEN (i : Nat) : Field := ⟨0x4020001C + 0x20 * i, 11, 1, .w1c, 0⟩
/-- MEAS_FLAG.FROZEN (R197). -/
def MEAS_FLAG_FROZEN (i : Nat) : Field := ⟨0x4020001C + 0x20 * i, 10, 1, .w1c, 0⟩
/-- MEAS_FLAG.SAT (R197). -/
def MEAS_FLAG_SAT (i : Nat) : Field := ⟨0x4020001C + 0x20 * i, 9, 1, .w1c, 0⟩
/-- MEAS_FLAG.CAL_FAIL (R197). -/
def MEAS_FLAG_CAL_FAIL (i : Nat) : Field := ⟨0x4020001C + 0x20 * i, 8, 1, .w1c, 0⟩
/-- MEAS_FLAG.ECHO_OVF (R197). -/
def MEAS_FLAG_ECHO_OVF (i : Nat) : Field := ⟨0x4020001C + 0x20 * i, 7, 1, .w1c, 0⟩
/-- MEAS_FLAG.FP_OV (R197). -/
def MEAS_FLAG_FP_OV (i : Nat) : Field := ⟨0x4020001C + 0x20 * i, 6, 1, .w1c, 0⟩
/-- MEAS_FLAG.FP_UV (R197). -/
def MEAS_FLAG_FP_UV (i : Nat) : Field := ⟨0x4020001C + 0x20 * i, 5, 1, .w1c, 0⟩
/-- MEAS_FLAG.GU_STATUS (R197). -/
def MEAS_FLAG_GU_STATUS (i : Nat) : Field := ⟨0x4020001C + 0x20 * i, 0, 3, .ro, 0⟩

/-- MEAS_VAL.Y (R197). -/
def MEAS_VAL_Y (i : Nat) : Field := ⟨0x40202000 + 0x4 * i, 8, 24, .ro, 0⟩

/-- MEAS_SNAP0.Y (R197). -/
def MEAS_SNAP0_Y (i : Nat) : Field := ⟨0x40203000 + 0x8 * i, 8, 24, .ro, 0⟩

/-- MEAS_SNAP1.AGE (R197). -/
def MEAS_SNAP1_AGE (i : Nat) : Field := ⟨0x40203004 + 0x8 * i, 16, 16, .ro, 0⟩
/-- MEAS_SNAP1.GU_STATUS (R197). -/
def MEAS_SNAP1_GU_STATUS (i : Nat) : Field := ⟨0x40203004 + 0x8 * i, 8, 3, .ro, 0⟩
/-- MEAS_SNAP1.FLAGS (R197). -/
def MEAS_SNAP1_FLAGS (i : Nat) : Field := ⟨0x40203004 + 0x8 * i, 0, 8, .ro, 0⟩

/-- MEAS_SNAP_K.K (R197). -/
def MEAS_SNAP_K_K : Field := ⟨0x40203480, 0, 32, .ro, 0⟩

/-- MEAS_AUX.X (R197). -/
def MEAS_AUX_X (i : Nat) : Field := ⟨0x40204000 + 0x4 * i, 8, 24, .ro, 0⟩
/-- MEAS_AUX.VALID (R197). -/
def MEAS_AUX_VALID (i : Nat) : Field := ⟨0x40204000 + 0x4 * i, 0, 1, .ro, 0⟩

/-- MEAS_ECHO.PERIOD (R197). -/
def MEAS_ECHO_PERIOD (i : Nat) (j : Nat) : Field := ⟨0x40205000 + 0x10 * i + 0x4 * j, 24, 8, .ro, 0⟩
/-- MEAS_ECHO.DEFER (R197). -/
def MEAS_ECHO_DEFER (i : Nat) (j : Nat) : Field := ⟨0x40205000 + 0x10 * i + 0x4 * j, 23, 1, .ro, 0⟩
/-- MEAS_ECHO.OFFSET (R197). -/
def MEAS_ECHO_OFFSET (i : Nat) (j : Nat) : Field := ⟨0x40205000 + 0x10 * i + 0x4 * j, 0, 19, .ro, 0⟩

/-- MEAS_SCAL0.CORR (R197). -/
def MEAS_SCAL0_CORR (i : Nat) : Field := ⟨0x40206000 + 0x8 * i, 0, 32, .ro, 0x40000000⟩

/-- MEAS_SCAL1.Z (R197). -/
def MEAS_SCAL1_Z (i : Nat) : Field := ⟨0x40206004 + 0x8 * i, 0, 24, .ro, 0⟩

/-- MEAS_REF.CODE (R197). -/
def MEAS_REF_CODE : Field := ⟨0x40206080, 0, 24, .ro, 0x4CCCCD⟩

/-- MEAS_CAL_REQ.REQ (R197). -/
def MEAS_CAL_REQ_REQ : Field := ⟨0x40206084, 0, 16, .wo, 0⟩

/-- MEAS_CAL_PERIOD.SEC (R197). -/
def MEAS_CAL_PERIOD_SEC : Field := ⟨0x40206088, 0, 16, .pk, 0xE10⟩

/-- MEAS_LOCAL_EVT.CH (R197). -/
def MEAS_LOCAL_EVT_CH : Field := ⟨0x4020608C, 0, 16, .w1c, 0⟩

/-- MEAS_INJ_CFG.EN (R197). -/
def MEAS_INJ_CFG_EN (i : Nat) : Field := ⟨0x40207000 + 0x10 * i, 31, 1, .pk, 0⟩
/-- MEAS_INJ_CFG.CH (R197). -/
def MEAS_INJ_CFG_CH (i : Nat) : Field := ⟨0x40207000 + 0x10 * i, 16, 8, .pk, 0⟩
/-- MEAS_INJ_CFG.SRC_CH (R197). -/
def MEAS_INJ_CFG_SRC_CH (i : Nat) : Field := ⟨0x40207000 + 0x10 * i, 8, 8, .pk, 0⟩
/-- MEAS_INJ_CFG.SRC (R197). -/
def MEAS_INJ_CFG_SRC (i : Nat) : Field := ⟨0x40207000 + 0x10 * i, 6, 1, .pk, 0⟩
/-- MEAS_INJ_CFG.FNOM (R197). -/
def MEAS_INJ_CFG_FNOM (i : Nat) : Field := ⟨0x40207000 + 0x10 * i, 4, 2, .pk, 2⟩
/-- MEAS_INJ_CFG.PICOT_EN (R197). -/
def MEAS_INJ_CFG_PICOT_EN (i : Nat) : Field := ⟨0x40207000 + 0x10 * i, 3, 1, .pk, 0⟩
/-- MEAS_INJ_CFG.PICOT (R197). -/
def MEAS_INJ_CFG_PICOT (i : Nat) : Field := ⟨0x40207000 + 0x10 * i, 0, 3, .pk, 0⟩

/-- MEAS_INJ_TRIG.GO (R197). -/
def MEAS_INJ_TRIG_GO (i : Nat) : Field := ⟨0x40207004 + 0x10 * i, 0, 1, .wo, 0⟩

/-- MEAS_INJ_RES.WORD (R197). -/
def MEAS_INJ_RES_WORD (i : Nat) : Field := ⟨0x40207008 + 0x10 * i, 0, 32, .ro, 0⟩

/-- MEAS_INJ_STAT.OVERRUN (R197). -/
def MEAS_INJ_STAT_OVERRUN (i : Nat) : Field := ⟨0x4020700C + 0x10 * i, 31, 1, .w1c, 0⟩
/-- MEAS_INJ_STAT.STATE (R197). -/
def MEAS_INJ_STAT_STATE (i : Nat) : Field := ⟨0x4020700C + 0x10 * i, 28, 2, .ro, 0⟩
/-- MEAS_INJ_STAT.N (R197). -/
def MEAS_INJ_STAT_N (i : Nat) : Field := ⟨0x4020700C + 0x10 * i, 0, 21, .ro, 0⟩

/-- MEAS_FIR.C (R197). -/
def MEAS_FIR_C (i : Nat) (j : Nat) : Field := ⟨0x40208000 + 0x40 * i + 0x4 * j, 0, 24, .pk, 0⟩

/-- MEAS_BAD_CNT.COUNT (R197). -/
def MEAS_BAD_CNT_COUNT (i : Nat) : Field := ⟨0x40209000 + 0x8 * i, 0, 32, .ro, 0⟩

/-- MEAS_BAD_STAT.SAT (R197). -/
def MEAS_BAD_STAT_SAT (i : Nat) : Field := ⟨0x40209004 + 0x8 * i, 0, 1, .w1c, 0⟩

/-- CLE_CFG.EN (R248). -/
def CLE_CFG_EN (i : Nat) : Field := ⟨0x50009000 + 0x100 * i, 31, 1, .pk, 0⟩
/-- CLE_CFG.ENTRY (R248). -/
def CLE_CFG_ENTRY (i : Nat) : Field := ⟨0x50009000 + 0x100 * i, 16, 12, .pk, 0⟩
/-- CLE_CFG.DONE_EN (R248). -/
def CLE_CFG_DONE_EN (i : Nat) : Field := ⟨0x50009000 + 0x100 * i, 15, 1, .pk, 0⟩
/-- CLE_CFG.DONE_DESC (R248). -/
def CLE_CFG_DONE_DESC (i : Nat) : Field := ⟨0x50009000 + 0x100 * i, 8, 7, .pk, 0⟩
/-- CLE_CFG.MISS_LIMIT (R248). -/
def CLE_CFG_MISS_LIMIT (i : Nat) : Field := ⟨0x50009000 + 0x100 * i, 0, 8, .pk, 3⟩

/-- CLE_STAT.STATE (R248). -/
def CLE_STAT_STATE (i : Nat) : Field := ⟨0x50009004 + 0x100 * i, 30, 2, .ro, 0⟩
/-- CLE_STAT.MISS_RUN (R248). -/
def CLE_STAT_MISS_RUN (i : Nat) : Field := ⟨0x50009004 + 0x100 * i, 16, 8, .ro, 0⟩
/-- CLE_STAT.MISS_LIM (R248). -/
def CLE_STAT_MISS_LIM (i : Nat) : Field := ⟨0x50009004 + 0x100 * i, 7, 1, .w1c, 0⟩
/-- CLE_STAT.WB_SAT (R248). -/
def CLE_STAT_WB_SAT (i : Nat) : Field := ⟨0x50009004 + 0x100 * i, 6, 1, .w1c, 0⟩
/-- CLE_STAT.ACC_OVF (R248). -/
def CLE_STAT_ACC_OVF (i : Nat) : Field := ⟨0x50009004 + 0x100 * i, 5, 1, .w1c, 0⟩
/-- CLE_STAT.FAULT (R248). -/
def CLE_STAT_FAULT (i : Nat) : Field := ⟨0x50009004 + 0x100 * i, 4, 1, .w1c, 0⟩
/-- CLE_STAT.OVERRUN (R248). -/
def CLE_STAT_OVERRUN (i : Nat) : Field := ⟨0x50009004 + 0x100 * i, 3, 1, .w1c, 0⟩
/-- CLE_STAT.MISS (R248). -/
def CLE_STAT_MISS (i : Nat) : Field := ⟨0x50009004 + 0x100 * i, 2, 1, .w1c, 0⟩
/-- CLE_STAT.PM_WRITE (R248). -/
def CLE_STAT_PM_WRITE (i : Nat) : Field := ⟨0x50009004 + 0x100 * i, 1, 1, .w1c, 0⟩
/-- CLE_STAT.PRE_SHORT (R248). -/
def CLE_STAT_PRE_SHORT (i : Nat) : Field := ⟨0x50009004 + 0x100 * i, 0, 1, .w1c, 0⟩

/-- CLE_RUN_LAST.NS (R248). -/
def CLE_RUN_LAST_NS (i : Nat) : Field := ⟨0x50009008 + 0x100 * i, 0, 20, .ro, 0⟩

/-- CLE_RUN_MAX.CLR (R248). -/
def CLE_RUN_MAX_CLR (i : Nat) : Field := ⟨0x5000900C + 0x100 * i, 31, 1, .wo, 0⟩
/-- CLE_RUN_MAX.NS (R248). -/
def CLE_RUN_MAX_NS (i : Nat) : Field := ⟨0x5000900C + 0x100 * i, 0, 20, .ro, 0⟩

/-- CLE_FAULT_REC.COUNT (R248). -/
def CLE_FAULT_REC_COUNT (i : Nat) : Field := ⟨0x50009010 + 0x100 * i, 20, 12, .ro, 0⟩
/-- CLE_FAULT_REC.PC (R248). -/
def CLE_FAULT_REC_PC (i : Nat) : Field := ⟨0x50009010 + 0x100 * i, 8, 12, .ro, 0⟩
/-- CLE_FAULT_REC.CAUSE (R248). -/
def CLE_FAULT_REC_CAUSE (i : Nat) : Field := ⟨0x50009010 + 0x100 * i, 0, 8, .ro, 0⟩

/-- CLE_FAULT_K.K (R248). -/
def CLE_FAULT_K_K (i : Nat) : Field := ⟨0x50009014 + 0x100 * i, 0, 32, .ro, 0⟩

/-- CLE_PC_REC.OVF_PC (R248). -/
def CLE_PC_REC_OVF_PC (i : Nat) : Field := ⟨0x50009018 + 0x100 * i, 16, 12, .ro, 0⟩
/-- CLE_PC_REC.SAT_PC (R248). -/
def CLE_PC_REC_SAT_PC (i : Nat) : Field := ⟨0x50009018 + 0x100 * i, 0, 12, .ro, 0⟩

/-- CLE_MISS_CNT.COUNT (R248). -/
def CLE_MISS_CNT_COUNT (i : Nat) : Field := ⟨0x5000901C + 0x100 * i, 0, 32, .ro, 0⟩

/-- CLE_MISS_SAT.SAT (R248). -/
def CLE_MISS_SAT_SAT (i : Nat) : Field := ⟨0x50009020 + 0x100 * i, 0, 1, .w1c, 0⟩

/-- LOOP_CFG.EN (R249). -/
def LOOP_CFG_EN (i : Nat) (j : Nat) : Field := ⟨0x5000A000 + 0x800 * i + 0x40 * j, 31, 1, .pk, 0⟩
/-- LOOP_CFG.REF (R249). -/
def LOOP_CFG_REF (i : Nat) (j : Nat) : Field := ⟨0x5000A000 + 0x800 * i + 0x40 * j, 16, 13, .pk, 0⟩
/-- LOOP_CFG.MEAS (R249). -/
def LOOP_CFG_MEAS (i : Nat) (j : Nat) : Field := ⟨0x5000A000 + 0x800 * i + 0x40 * j, 0, 13, .pk, 0⟩

/-- LOOP_WORDS.OUT (R249). -/
def LOOP_WORDS_OUT (i : Nat) (j : Nat) : Field := ⟨0x5000A004 + 0x800 * i + 0x40 * j, 16, 13, .pk, 0⟩
/-- LOOP_WORDS.EST (R249). -/
def LOOP_WORDS_EST (i : Nat) (j : Nat) : Field := ⟨0x5000A004 + 0x800 * i + 0x40 * j, 0, 13, .pk, 0⟩

/-- LOOP_SRC.KIND (R249). -/
def LOOP_SRC_KIND (i : Nat) (j : Nat) : Field := ⟨0x5000A008 + 0x800 * i + 0x40 * j, 30, 2, .pk, 0⟩
/-- LOOP_SRC.FRZ_EN (R249). -/
def LOOP_SRC_FRZ_EN (i : Nat) (j : Nat) : Field := ⟨0x5000A008 + 0x800 * i + 0x40 * j, 16, 1, .pk, 0⟩
/-- LOOP_SRC.INDEX (R249). -/
def LOOP_SRC_INDEX (i : Nat) (j : Nat) : Field := ⟨0x5000A008 + 0x800 * i + 0x40 * j, 0, 8, .pk, 0⟩

/-- LOOP_LIM.LIMIT (R249). -/
def LOOP_LIM_LIMIT (i : Nat) (j : Nat) : Field := ⟨0x5000A00C + 0x800 * i + 0x40 * j, 0, 32, .pk, 0xFFFFFFFF⟩

/-- LOOP_TIME.TIMER (R249). -/
def LOOP_TIME_TIMER (i : Nat) (j : Nat) : Field := ⟨0x5000A010 + 0x800 * i + 0x40 * j, 16, 16, .pk, 1⟩
/-- LOOP_TIME.T_HOLD (R249). -/
def LOOP_TIME_T_HOLD (i : Nat) (j : Nat) : Field := ⟨0x5000A010 + 0x800 * i + 0x40 * j, 0, 16, .pk, 0⟩

/-- LOOP_ACT.TRIP_MASK (R249). -/
def LOOP_ACT_TRIP_MASK (i : Nat) (j : Nat) : Field := ⟨0x5000A014 + 0x800 * i + 0x40 * j, 16, 16, .pk, 0⟩
/-- LOOP_ACT.RAMP_LOG2 (R249). -/
def LOOP_ACT_RAMP_LOG2 (i : Nat) (j : Nat) : Field := ⟨0x5000A014 + 0x800 * i + 0x40 * j, 8, 4, .pk, 0⟩
/-- LOOP_ACT.ENDING (R249). -/
def LOOP_ACT_ENDING (i : Nat) (j : Nat) : Field := ⟨0x5000A014 + 0x800 * i + 0x40 * j, 4, 2, .pk, 0⟩
/-- LOOP_ACT.ACTION (R249). -/
def LOOP_ACT_ACTION (i : Nat) (j : Nat) : Field := ⟨0x5000A014 + 0x800 * i + 0x40 * j, 0, 2, .pk, 0⟩

/-- LOOP_CTL.RELEASE (R249). -/
def LOOP_CTL_RELEASE (i : Nat) (j : Nat) : Field := ⟨0x5000A018 + 0x800 * i + 0x40 * j, 8, 1, .wo, 0⟩
/-- LOOP_CTL.MODE (R249). -/
def LOOP_CTL_MODE (i : Nat) (j : Nat) : Field := ⟨0x5000A018 + 0x800 * i + 0x40 * j, 0, 1, .sh, 0⟩

/-- LOOP_STAT.STATE (R249). -/
def LOOP_STAT_STATE (i : Nat) (j : Nat) : Field := ⟨0x5000A01C + 0x800 * i + 0x40 * j, 29, 3, .ro, 0⟩
/-- LOOP_STAT.MODE (R249). -/
def LOOP_STAT_MODE (i : Nat) (j : Nat) : Field := ⟨0x5000A01C + 0x800 * i + 0x40 * j, 28, 1, .ro, 0⟩
/-- LOOP_STAT.FIRST (R249). -/
def LOOP_STAT_FIRST (i : Nat) (j : Nat) : Field := ⟨0x5000A01C + 0x800 * i + 0x40 * j, 27, 1, .ro, 0⟩
/-- LOOP_STAT.RAMP_J (R249). -/
def LOOP_STAT_RAMP_J (i : Nat) (j : Nat) : Field := ⟨0x5000A01C + 0x800 * i + 0x40 * j, 16, 9, .ro, 0⟩
/-- LOOP_STAT.SAT (R249). -/
def LOOP_STAT_SAT (i : Nat) (j : Nat) : Field := ⟨0x5000A01C + 0x800 * i + 0x40 * j, 15, 1, .w1c, 0⟩
/-- LOOP_STAT.LIM_HI (R249). -/
def LOOP_STAT_LIM_HI (i : Nat) (j : Nat) : Field := ⟨0x5000A01C + 0x800 * i + 0x40 * j, 14, 1, .ro, 0⟩
/-- LOOP_STAT.LIM_LO (R249). -/
def LOOP_STAT_LIM_LO (i : Nat) (j : Nat) : Field := ⟨0x5000A01C + 0x800 * i + 0x40 * j, 13, 1, .ro, 0⟩
/-- LOOP_STAT.ACC_OVF (R249). -/
def LOOP_STAT_ACC_OVF (i : Nat) (j : Nat) : Field := ⟨0x5000A01C + 0x800 * i + 0x40 * j, 12, 1, .w1c, 0⟩
/-- LOOP_STAT.PRE_SHORT (R249). -/
def LOOP_STAT_PRE_SHORT (i : Nat) (j : Nat) : Field := ⟨0x5000A01C + 0x800 * i + 0x40 * j, 11, 1, .w1c, 0⟩
/-- LOOP_STAT.FE (R249). -/
def LOOP_STAT_FE (i : Nat) (j : Nat) : Field := ⟨0x5000A01C + 0x800 * i + 0x40 * j, 10, 1, .w1c, 0⟩
/-- LOOP_STAT.FB_LOSS (R249). -/
def LOOP_STAT_FB_LOSS (i : Nat) (j : Nat) : Field := ⟨0x5000A01C + 0x800 * i + 0x40 * j, 9, 1, .w1c, 0⟩
/-- LOOP_STAT.REL_REFUSED (R249). -/
def LOOP_STAT_REL_REFUSED (i : Nat) (j : Nat) : Field := ⟨0x5000A01C + 0x800 * i + 0x40 * j, 8, 1, .w1c, 0⟩
/-- LOOP_STAT.MISS_END (R249). -/
def LOOP_STAT_MISS_END (i : Nat) (j : Nat) : Field := ⟨0x5000A01C + 0x800 * i + 0x40 * j, 7, 1, .w1c, 0⟩

/-- LOOP_CNT.FE_CNT (R249). -/
def LOOP_CNT_FE_CNT (i : Nat) (j : Nat) : Field := ⟨0x5000A020 + 0x800 * i + 0x40 * j, 16, 16, .ro, 0⟩
/-- LOOP_CNT.SUB_CNT (R249). -/
def LOOP_CNT_SUB_CNT (i : Nat) (j : Nat) : Field := ⟨0x5000A020 + 0x800 * i + 0x40 * j, 0, 16, .ro, 0⟩

/-- LOOP_Y.YIN (R249). -/
def LOOP_Y_YIN (i : Nat) (j : Nat) : Field := ⟨0x5000A024 + 0x800 * i + 0x40 * j, 0, 32, .ro, 0⟩

/-- LOOP_YAPP.Y (R249). -/
def LOOP_YAPP_Y (i : Nat) (j : Nat) : Field := ⟨0x5000A028 + 0x800 * i + 0x40 * j, 0, 32, .ro, 0⟩

/-- LOOP_YFROM.Y (R249). -/
def LOOP_YFROM_Y (i : Nat) (j : Nat) : Field := ⟨0x5000A02C + 0x800 * i + 0x40 * j, 0, 32, .ro, 0⟩

/-- CLE_OUT.Y (R250). -/
def CLE_OUT_Y (i : Nat) (j : Nat) : Field := ⟨0x40300000 + 0x400 * i + 0x4 * j, 0, 32, .sh, 0⟩

/-- CLE_OUTA.Y (R250). -/
def CLE_OUTA_Y (i : Nat) (j : Nat) : Field := ⟨0x40301000 + 0x400 * i + 0x4 * j, 0, 32, .ro, 0⟩

/-- BAL_CFG.EN (R280). -/
def BAL_CFG_EN : Field := ⟨0x5000C000, 31, 1, .pk, 0⟩
/-- BAL_CFG.MISS_LIMIT (R280). -/
def BAL_CFG_MISS_LIMIT : Field := ⟨0x5000C000, 24, 4, .pk, 3⟩
/-- BAL_CFG.TRIP_MASK (R280). -/
def BAL_CFG_TRIP_MASK : Field := ⟨0x5000C000, 0, 16, .pk, 0⟩

/-- BAL_TSORT.T_SORT (R280). -/
def BAL_TSORT_T_SORT : Field := ⟨0x5000C004, 0, 19, .pk, 0x2EE⟩

/-- BAL_TSEL.T_SEL (R280). -/
def BAL_TSEL_T_SEL : Field := ⟨0x5000C008, 0, 19, .pk, 0xFA0⟩

/-- BAL_KEY.BASE (R280). -/
def BAL_KEY_BASE : Field := ⟨0x5000C00C, 8, 24, .pk, 0x400000⟩
/-- BAL_KEY.SHIFT (R280). -/
def BAL_KEY_SHIFT : Field := ⟨0x5000C00C, 0, 4, .pk, 6⟩

/-- BAL_HYST0.H_MIN (R280). -/
def BAL_HYST0_H_MIN : Field := ⟨0x5000C010, 16, 16, .pk, 0⟩
/-- BAL_HYST0.H_MAX (R280). -/
def BAL_HYST0_H_MAX : Field := ⟨0x5000C010, 0, 16, .pk, 0x100⟩

/-- BAL_HYST1.STEP (R280). -/
def BAL_HYST1_STEP : Field := ⟨0x5000C014, 16, 16, .pk, 4⟩
/-- BAL_HYST1.WIN_LOG2 (R280). -/
def BAL_HYST1_WIN_LOG2 : Field := ⟨0x5000C014, 8, 4, .pk, 0xC⟩
/-- BAL_HYST1.CEIL (R280). -/
def BAL_HYST1_CEIL : Field := ⟨0x5000C014, 0, 8, .pk, 8⟩

/-- BAL_HLT_CFG.K_MAD (R280). -/
def BAL_HLT_CFG_K_MAD : Field := ⟨0x5000C018, 24, 8, .pk, 0x50⟩
/-- BAL_HLT_CFG.ALPHA (R280). -/
def BAL_HLT_CFG_ALPHA : Field := ⟨0x5000C018, 16, 4, .pk, 4⟩
/-- BAL_HLT_CFG.DV_MIN (R280). -/
def BAL_HLT_CFG_DV_MIN : Field := ⟨0x5000C018, 0, 16, .pk, 0x100⟩

/-- BAL_HLT_KC.KC (R280). -/
def BAL_HLT_KC_KC : Field := ⟨0x5000C01C, 0, 32, .pk, 0⟩

/-- BAL_HLT_IMIN.I_MIN (R280). -/
def BAL_HLT_IMIN_I_MIN : Field := ⟨0x5000C020, 0, 31, .pk, 0x7FFFFFFF⟩

/-- BAL_STAT.SIGMA (R280). -/
def BAL_STAT_SIGMA : Field := ⟨0x5000C024, 31, 1, .ro, 0⟩
/-- BAL_STAT.POL (R280). -/
def BAL_STAT_POL : Field := ⟨0x5000C024, 30, 1, .ro, 0⟩
/-- BAL_STAT.MISS_RUN (R280). -/
def BAL_STAT_MISS_RUN : Field := ⟨0x5000C024, 24, 4, .ro, 0⟩
/-- BAL_STAT.E (R280). -/
def BAL_STAT_E : Field := ⟨0x5000C024, 16, 8, .ro, 0⟩
/-- BAL_STAT.REINST_REFUSED (R280). -/
def BAL_STAT_REINST_REFUSED : Field := ⟨0x5000C024, 8, 1, .w1c, 0⟩
/-- BAL_STAT.POP_SMALL (R280). -/
def BAL_STAT_POP_SMALL : Field := ⟨0x5000C024, 7, 1, .w1c, 0⟩
/-- BAL_STAT.HEALTH (R280). -/
def BAL_STAT_HEALTH : Field := ⟨0x5000C024, 6, 1, .w1c, 0⟩
/-- BAL_STAT.HYST_LIM (R280). -/
def BAL_STAT_HYST_LIM : Field := ⟨0x5000C024, 5, 1, .w1c, 0⟩
/-- BAL_STAT.CEIL_FORCED (R280). -/
def BAL_STAT_CEIL_FORCED : Field := ⟨0x5000C024, 4, 1, .w1c, 0⟩
/-- BAL_STAT.THR_BAD (R280). -/
def BAL_STAT_THR_BAD : Field := ⟨0x5000C024, 3, 1, .w1c, 0⟩
/-- BAL_STAT.MISS_LIM (R280). -/
def BAL_STAT_MISS_LIM : Field := ⟨0x5000C024, 2, 1, .w1c, 0⟩
/-- BAL_STAT.MISS (R280). -/
def BAL_STAT_MISS : Field := ⟨0x5000C024, 1, 1, .w1c, 0⟩
/-- BAL_STAT.HOLD_RX (R280). -/
def BAL_STAT_HOLD_RX : Field := ⟨0x5000C024, 0, 1, .w1c, 0⟩

/-- BAL_THR.K (R280). -/
def BAL_THR_K : Field := ⟨0x5000C028, 16, 16, .ro, 0⟩
/-- BAL_THR.TIE (R280). -/
def BAL_THR_TIE : Field := ⟨0x5000C028, 8, 8, .ro, 0⟩
/-- BAL_THR.FLAGS (R280). -/
def BAL_THR_FLAGS : Field := ⟨0x5000C028, 0, 3, .ro, 0⟩

/-- BAL_CH.EXCL (R280). -/
def BAL_CH_EXCL (i : Nat) : Field := ⟨0x5000C400 + 0x4 * i, 29, 3, .ro, 1⟩
/-- BAL_CH.INS (R280). -/
def BAL_CH_INS (i : Nat) : Field := ⟨0x5000C400 + 0x4 * i, 28, 1, .ro, 0⟩
/-- BAL_CH.PIN (R280). -/
def BAL_CH_PIN (i : Nat) : Field := ⟨0x5000C400 + 0x4 * i, 27, 1, .ro, 0⟩
/-- BAL_CH.REINSTATE (R280). -/
def BAL_CH_REINSTATE (i : Nat) : Field := ⟨0x5000C400 + 0x4 * i, 26, 1, .wo, 0⟩
/-- BAL_CH.CHANGES (R280). -/
def BAL_CH_CHANGES (i : Nat) : Field := ⟨0x5000C400 + 0x4 * i, 16, 8, .ro, 0⟩
/-- BAL_CH.H (R280). -/
def BAL_CH_H (i : Nat) : Field := ⟨0x5000C400 + 0x4 * i, 0, 16, .ro, 0⟩

/-- BAL_ARM_CFG.EN (R281). -/
def BAL_ARM_CFG_EN (i : Nat) : Field := ⟨0x5000C100 + 0x20 * i, 31, 1, .pk, 0⟩
/-- BAL_ARM_CFG.FB (R281). -/
def BAL_ARM_CFG_FB (i : Nat) : Field := ⟨0x5000C100 + 0x20 * i, 30, 1, .pk, 0⟩
/-- BAL_ARM_CFG.N_MAX (R281). -/
def BAL_ARM_CFG_N_MAX (i : Nat) : Field := ⟨0x5000C100 + 0x20 * i, 16, 13, .pk, 0⟩
/-- BAL_ARM_CFG.N_MIN (R281). -/
def BAL_ARM_CFG_N_MIN (i : Nat) : Field := ⟨0x5000C100 + 0x20 * i, 0, 14, .pk, 0⟩

/-- BAL_ARM_SRC.CLE (R281). -/
def BAL_ARM_SRC_CLE (i : Nat) : Field := ⟨0x5000C104 + 0x20 * i, 30, 2, .pk, 0⟩
/-- BAL_ARM_SRC.V_WORD (R281). -/
def BAL_ARM_SRC_V_WORD (i : Nat) : Field := ⟨0x5000C104 + 0x20 * i, 16, 13, .pk, 0⟩
/-- BAL_ARM_SRC.I_WORD (R281). -/
def BAL_ARM_SRC_I_WORD (i : Nat) : Field := ⟨0x5000C104 + 0x20 * i, 0, 13, .pk, 0⟩

/-- BAL_ARM_RATIO.RATIO (R281). -/
def BAL_ARM_RATIO_RATIO (i : Nat) : Field := ⟨0x5000C108 + 0x20 * i, 0, 32, .pk, 0x10000⟩

/-- BAL_ARM_QS.LMISS_LIMIT (R281). -/
def BAL_ARM_QS_LMISS_LIMIT (i : Nat) : Field := ⟨0x5000C10C + 0x20 * i, 24, 8, .pk, 8⟩
/-- BAL_ARM_QS.Q_START (R281). -/
def BAL_ARM_QS_Q_START (i : Nat) : Field := ⟨0x5000C10C + 0x20 * i, 0, 19, .pk, 0x9C4⟩

/-- BAL_ARM_SIGN.SIGN_BAND (R281). -/
def BAL_ARM_SIGN_SIGN_BAND (i : Nat) : Field := ⟨0x5000C110 + 0x20 * i, 0, 31, .pk, 0⟩

/-- BAL_ARM_Q.N (R281). -/
def BAL_ARM_Q_N (i : Nat) : Field := ⟨0x5000C114 + 0x20 * i, 16, 14, .ro, 0⟩
/-- BAL_ARM_Q.ERR (R281). -/
def BAL_ARM_Q_ERR (i : Nat) : Field := ⟨0x5000C114 + 0x20 * i, 0, 16, .ro, 0⟩

/-- BAL_ARM_STAT.E_TOT (R281). -/
def BAL_ARM_STAT_E_TOT (i : Nat) : Field := ⟨0x5000C118 + 0x20 * i, 16, 13, .ro, 0⟩
/-- BAL_ARM_STAT.CELLS (R281). -/
def BAL_ARM_STAT_CELLS (i : Nat) : Field := ⟨0x5000C118 + 0x20 * i, 8, 6, .ro, 0⟩
/-- BAL_ARM_STAT.COUNT_SLIP (R281). -/
def BAL_ARM_STAT_COUNT_SLIP (i : Nat) : Field := ⟨0x5000C118 + 0x20 * i, 4, 1, .w1c, 0⟩
/-- BAL_ARM_STAT.LADDER_BAD (R281). -/
def BAL_ARM_STAT_LADDER_BAD (i : Nat) : Field := ⟨0x5000C118 + 0x20 * i, 3, 1, .w1c, 0⟩
/-- BAL_ARM_STAT.LADDER_MISS (R281). -/
def BAL_ARM_STAT_LADDER_MISS (i : Nat) : Field := ⟨0x5000C118 + 0x20 * i, 2, 1, .w1c, 0⟩
/-- BAL_ARM_STAT.HOLD_SENT (R281). -/
def BAL_ARM_STAT_HOLD_SENT (i : Nat) : Field := ⟨0x5000C118 + 0x20 * i, 1, 1, .w1c, 0⟩
/-- BAL_ARM_STAT.Q_CLAMP (R281). -/
def BAL_ARM_STAT_Q_CLAMP (i : Nat) : Field := ⟨0x5000C118 + 0x20 * i, 0, 1, .w1c, 0⟩

/-- BAL_ARM_K.K (R281). -/
def BAL_ARM_K_K (i : Nat) : Field := ⟨0x5000C11C + 0x20 * i, 16, 16, .ro, 0⟩
/-- BAL_ARM_K.M (R281). -/
def BAL_ARM_K_M (i : Nat) : Field := ⟨0x5000C11C + 0x20 * i, 0, 13, .ro, 0⟩

/-- GEN_CH_CFG.MODE (R310). -/
def GEN_CH_CFG_MODE (i : Nat) : Field := ⟨0x40400000 + 0x20 * i, 30, 2, .pk, 0⟩
/-- GEN_CH_CFG.FB (R310). -/
def GEN_CH_CFG_FB (i : Nat) : Field := ⟨0x40400000 + 0x20 * i, 29, 1, .pk, 0⟩
/-- GEN_CH_CFG.ADAPT (R310). -/
def GEN_CH_CFG_ADAPT (i : Nat) : Field := ⟨0x40400000 + 0x20 * i, 28, 1, .pk, 0⟩
/-- GEN_CH_CFG.STAGGER (R310). -/
def GEN_CH_CFG_STAGGER (i : Nat) : Field := ⟨0x40400000 + 0x20 * i, 0, 14, .pk, 0⟩

/-- GEN_RISE.RISE (R310). -/
def GEN_RISE_RISE (i : Nat) : Field := ⟨0x40400004 + 0x20 * i, 0, 18, .sh, 0x640⟩

/-- GEN_FALL.FALL (R310). -/
def GEN_FALL_FALL (i : Nat) : Field := ⟨0x40400008 + 0x20 * i, 0, 18, .pk, 0⟩

/-- GEN_RISE_ACT.AT_HI (R310). -/
def GEN_RISE_ACT_AT_HI (i : Nat) : Field := ⟨0x4040000C + 0x20 * i, 31, 1, .ro, 0⟩
/-- GEN_RISE_ACT.AT_LO (R310). -/
def GEN_RISE_ACT_AT_LO (i : Nat) : Field := ⟨0x4040000C + 0x20 * i, 30, 1, .ro, 0⟩
/-- GEN_RISE_ACT.RISE (R310). -/
def GEN_RISE_ACT_RISE (i : Nat) : Field := ⟨0x4040000C + 0x20 * i, 0, 18, .ro, 0x640⟩

/-- GEN_DT_BND.RISE_HI (R310). -/
def GEN_DT_BND_RISE_HI (i : Nat) : Field := ⟨0x40400010 + 0x20 * i, 16, 14, .pk, 0xFA0⟩
/-- GEN_DT_BND.RISE_LO (R310). -/
def GEN_DT_BND_RISE_LO (i : Nat) : Field := ⟨0x40400010 + 0x20 * i, 0, 14, .pk, 0x32⟩

/-- GEN_CMD.ACT (R310). -/
def GEN_CMD_ACT (i : Nat) : Field := ⟨0x40400014 + 0x20 * i, 8, 2, .ro, 0⟩
/-- GEN_CMD.CMD (R310). -/
def GEN_CMD_CMD (i : Nat) : Field := ⟨0x40400014 + 0x20 * i, 0, 2, .sh, 0⟩

/-- GEN_CAR.CLE (R310). -/
def GEN_CAR_CLE (i : Nat) : Field := ⟨0x40400018 + 0x20 * i, 30, 2, .pk, 0⟩
/-- GEN_CAR.WORD (R310). -/
def GEN_CAR_WORD (i : Nat) : Field := ⟨0x40400018 + 0x20 * i, 16, 8, .pk, 0⟩

/-- GEN_CAR_PH.PHASE (R310). -/
def GEN_CAR_PH_PHASE (i : Nat) : Field := ⟨0x4040001C + 0x20 * i, 0, 19, .pk, 0⟩

/-- GEN_STAT.FENCE (R310). -/
def GEN_STAT_FENCE (i : Nat) : Field := ⟨0x40410000 + 0x8 * i, 29, 3, .ro, 0⟩
/-- GEN_STAT.CH_FAULT (R310). -/
def GEN_STAT_CH_FAULT (i : Nat) : Field := ⟨0x40410000 + 0x8 * i, 9, 1, .w1c, 0⟩
/-- GEN_STAT.TMR_ERR (R310). -/
def GEN_STAT_TMR_ERR (i : Nat) : Field := ⟨0x40410000 + 0x8 * i, 8, 1, .w1c, 0⟩
/-- GEN_STAT.DIS_REFUSED (R310). -/
def GEN_STAT_DIS_REFUSED (i : Nat) : Field := ⟨0x40410000 + 0x8 * i, 7, 1, .w1c, 0⟩
/-- GEN_STAT.NO_ECHO (R310). -/
def GEN_STAT_NO_ECHO (i : Nat) : Field := ⟨0x40410000 + 0x8 * i, 6, 1, .w1c, 0⟩
/-- GEN_STAT.PW_CLAMP (R310). -/
def GEN_STAT_PW_CLAMP (i : Nat) : Field := ⟨0x40410000 + 0x8 * i, 4, 1, .w1c, 0⟩
/-- GEN_STAT.PULSE_CUT (R310). -/
def GEN_STAT_PULSE_CUT (i : Nat) : Field := ⟨0x40410000 + 0x8 * i, 3, 1, .w1c, 0⟩
/-- GEN_STAT.CMD_BAD (R310). -/
def GEN_STAT_CMD_BAD (i : Nat) : Field := ⟨0x40410000 + 0x8 * i, 2, 1, .w1c, 0⟩

/-- GEN_ECHO.E_MAX (R310). -/
def GEN_ECHO_E_MAX (i : Nat) : Field := ⟨0x40410004 + 0x8 * i, 16, 12, .ro, 0⟩
/-- GEN_ECHO.E_LAST (R310). -/
def GEN_ECHO_E_LAST (i : Nat) : Field := ⟨0x40410004 + 0x8 * i, 0, 12, .ro, 0⟩

/-- GEN_CAR_CFG.SRC (R311). -/
def GEN_CAR_CFG_SRC : Field := ⟨0x40420000, 31, 1, .pk, 0⟩
/-- GEN_CAR_CFG.SYNC_OUT (R311). -/
def GEN_CAR_CFG_SYNC_OUT : Field := ⟨0x40420000, 24, 2, .pk, 0⟩
/-- GEN_CAR_CFG.P (R311). -/
def GEN_CAR_CFG_P : Field := ⟨0x40420000, 0, 19, .pk, 0x3D090⟩

/-- GEN_SYNC.COMP (R311). -/
def GEN_SYNC_COMP : Field := ⟨0x40420004, 16, 16, .pk, 0⟩
/-- GEN_SYNC.MISS_LIMIT (R311). -/
def GEN_SYNC_MISS_LIMIT : Field := ⟨0x40420004, 8, 8, .pk, 4⟩
/-- GEN_SYNC.WIN (R311). -/
def GEN_SYNC_WIN : Field := ⟨0x40420004, 0, 8, .pk, 4⟩

/-- GEN_MINPW.MIN_PW (R311). -/
def GEN_MINPW_MIN_PW : Field := ⟨0x40420008, 0, 14, .pk, 0x1F4⟩

/-- GEN_ADAPT.ECHO_WIN (R311). -/
def GEN_ADAPT_ECHO_WIN : Field := ⟨0x4042000C, 20, 12, .pk, 0⟩
/-- GEN_ADAPT.DT_LOG2 (R311). -/
def GEN_ADAPT_DT_LOG2 : Field := ⟨0x4042000C, 16, 4, .pk, 0xA⟩
/-- GEN_ADAPT.STEP (R311). -/
def GEN_ADAPT_STEP : Field := ⟨0x4042000C, 8, 8, .pk, 0x10⟩
/-- GEN_ADAPT.MARGIN (R311). -/
def GEN_ADAPT_MARGIN : Field := ⟨0x4042000C, 0, 8, .pk, 0xA⟩

/-- GEN_DIS.DIS (R311). -/
def GEN_DIS_DIS (i : Nat) : Field := ⟨0x40420010 + 0x4 * i, 0, 32, .rw, 0⟩

/-- GEN_SYNC_STAT.TRACK (R311). -/
def GEN_SYNC_STAT_TRACK : Field := ⟨0x40420020, 31, 1, .ro, 0⟩
/-- GEN_SYNC_STAT.MISS (R311). -/
def GEN_SYNC_STAT_MISS : Field := ⟨0x40420020, 16, 8, .ro, 0⟩
/-- GEN_SYNC_STAT.SLIP (R311). -/
def GEN_SYNC_STAT_SLIP : Field := ⟨0x40420020, 2, 1, .w1c, 0⟩
/-- GEN_SYNC_STAT.LOST (R311). -/
def GEN_SYNC_STAT_LOST : Field := ⟨0x40420020, 1, 1, .w1c, 0⟩

/-- GEN_CYCLE.J (R311). -/
def GEN_CYCLE_J : Field := ⟨0x40420024, 0, 32, .ro, 0⟩

/-- TRIP_IN_CFG.POL (R331). -/
def TRIP_IN_CFG_POL : Field := ⟨0x40500000, 8, 8, .pk, 0⟩
/-- TRIP_IN_CFG.EN (R331). -/
def TRIP_IN_CFG_EN : Field := ⟨0x40500000, 0, 8, .pk, 0⟩

/-- TRIP_IN_MASK.MASK (R331). -/
def TRIP_IN_MASK_MASK (i : Nat) : Field := ⟨0x40500010 + 0x4 * i, 0, 16, .pk, 0xFFFF⟩

/-- TRIP_BOS_CFG.SEND (R331). -/
def TRIP_BOS_CFG_SEND : Field := ⟨0x40500030, 16, 16, .pk, 0⟩
/-- TRIP_BOS_CFG.MASK (R331). -/
def TRIP_BOS_CFG_MASK : Field := ⟨0x40500030, 0, 16, .pk, 0xFFFF⟩

/-- TRIP_BOS_FWD.LANES (R331). -/
def TRIP_BOS_FWD_LANES : Field := ⟨0x40500034, 0, 32, .pk, 0⟩

/-- TRIP_BOS_TX.LANES (R331). -/
def TRIP_BOS_TX_LANES : Field := ⟨0x40500038, 0, 32, .pk, 0⟩

/-- TRIP_FW_SET.GROUPS (R331). -/
def TRIP_FW_SET_GROUPS : Field := ⟨0x40500040, 0, 16, .wo, 0⟩

/-- TRIP_FW_CLR.GROUPS (R331). -/
def TRIP_FW_CLR_GROUPS : Field := ⟨0x40500044, 0, 16, .wo, 0⟩

/-- TRIP_FW_ACT.GROUPS (R331). -/
def TRIP_FW_ACT_GROUPS : Field := ⟨0x40500048, 0, 16, .ro, 0⟩

/-- TRIP_CLR.GROUPS (R331). -/
def TRIP_CLR_GROUPS : Field := ⟨0x4050004C, 0, 16, .wo, 0⟩

/-- TRIP_STATE.ASSERTED (R331). -/
def TRIP_STATE_ASSERTED : Field := ⟨0x40500050, 0, 16, .ro, 0xFFFF⟩

/-- TRIP_SRC_ACT.ACT (R331). -/
def TRIP_SRC_ACT_ACT : Field := ⟨0x40500054, 0, 16, .ro, 0x4000⟩

/-- TRIP_REC_WP.IDX (R331). -/
def TRIP_REC_WP_IDX : Field := ⟨0x40500058, 0, 9, .ro, 0⟩

/-- TRIP_REC_LOST.COUNT (R331). -/
def TRIP_REC_LOST_COUNT : Field := ⟨0x4050005C, 0, 32, .ro, 0⟩

/-- TRIP_BOS_RX.COUNT (R331). -/
def TRIP_BOS_RX_COUNT : Field := ⟨0x40500060, 0, 32, .ro, 0⟩

/-- TRIP_CNT_SAT.BOS_SAT (R331). -/
def TRIP_CNT_SAT_BOS_SAT : Field := ⟨0x40500064, 1, 1, .w1c, 0⟩
/-- TRIP_CNT_SAT.LOST_SAT (R331). -/
def TRIP_CNT_SAT_LOST_SAT : Field := ⟨0x40500064, 0, 1, .w1c, 0⟩

/-- TRIP_GRP_CFG.HOLD (R332). -/
def TRIP_GRP_CFG_HOLD (i : Nat) : Field := ⟨0x40500100 + 0x10 * i, 0, 16, .pk, 0x64⟩

/-- TRIP_GRP_STAT.STATE (R332). -/
def TRIP_GRP_STAT_STATE (i : Nat) : Field := ⟨0x40500104 + 0x10 * i, 30, 2, .ro, 1⟩
/-- TRIP_GRP_STAT.FENCE (R332). -/
def TRIP_GRP_STAT_FENCE (i : Nat) : Field := ⟨0x40500104 + 0x10 * i, 27, 3, .ro, 0⟩
/-- TRIP_GRP_STAT.FIRST_SRC (R332). -/
def TRIP_GRP_STAT_FIRST_SRC (i : Nat) : Field := ⟨0x40500104 + 0x10 * i, 16, 10, .ro, 0x18E⟩
/-- TRIP_GRP_STAT.GRP_FAULT (R332). -/
def TRIP_GRP_STAT_GRP_FAULT (i : Nat) : Field := ⟨0x40500104 + 0x10 * i, 4, 1, .w1c, 0⟩
/-- TRIP_GRP_STAT.CLR_REFUSED (R332). -/
def TRIP_GRP_STAT_CLR_REFUSED (i : Nat) : Field := ⟨0x40500104 + 0x10 * i, 3, 1, .w1c, 0⟩
/-- TRIP_GRP_STAT.TMR_ERR (R332). -/
def TRIP_GRP_STAT_TMR_ERR (i : Nat) : Field := ⟨0x40500104 + 0x10 * i, 1, 1, .w1c, 0⟩
/-- TRIP_GRP_STAT.SAT (R332). -/
def TRIP_GRP_STAT_SAT (i : Nat) : Field := ⟨0x40500104 + 0x10 * i, 0, 1, .w1c, 0⟩

/-- TRIP_GRP_CNT.COUNT (R332). -/
def TRIP_GRP_CNT_COUNT (i : Nat) : Field := ⟨0x40500108 + 0x10 * i, 0, 32, .ro, 0⟩

/-- TRIP_CH_CFG.ACTION (R333). -/
def TRIP_CH_CFG_ACTION (i : Nat) : Field := ⟨0x40501000 + 0x10 * i, 31, 1, .pk, 0⟩
/-- TRIP_CH_CFG.GROUP (R333). -/
def TRIP_CH_CFG_GROUP (i : Nat) : Field := ⟨0x40501000 + 0x10 * i, 16, 4, .pk, 0⟩

/-- TRIP_CH_MASK.DASH (R333). -/
def TRIP_CH_MASK_DASH (i : Nat) : Field := ⟨0x40501004 + 0x10 * i, 16, 16, .pk, 0xFFFF⟩
/-- TRIP_CH_MASK.OV (R333). -/
def TRIP_CH_MASK_OV (i : Nat) : Field := ⟨0x40501004 + 0x10 * i, 0, 16, .pk, 0⟩

/-- TRIP_CH_UV.UV (R333). -/
def TRIP_CH_UV_UV (i : Nat) : Field := ⟨0x40501008 + 0x10 * i, 0, 16, .pk, 0⟩

/-- TRIP_CH_STAT.DASH_ACT (R333). -/
def TRIP_CH_STAT_DASH_ACT (i : Nat) : Field := ⟨0x4050100C + 0x10 * i, 2, 1, .ro, 0⟩
/-- TRIP_CH_STAT.OV_ACT (R333). -/
def TRIP_CH_STAT_OV_ACT (i : Nat) : Field := ⟨0x4050100C + 0x10 * i, 1, 1, .ro, 0⟩
/-- TRIP_CH_STAT.UV_ACT (R333). -/
def TRIP_CH_STAT_UV_ACT (i : Nat) : Field := ⟨0x4050100C + 0x10 * i, 0, 1, .ro, 0⟩

/-- LANE_CFG.USE (R357). -/
def LANE_CFG_USE (i : Nat) : Field := ⟨0x40600000 + 0x40 * i, 30, 2, .pk, 0⟩
/-- LANE_CFG.PORT (R357). -/
def LANE_CFG_PORT (i : Nat) : Field := ⟨0x40600000 + 0x40 * i, 28, 2, .pk, 0⟩
/-- LANE_CFG.RATE (R357). -/
def LANE_CFG_RATE (i : Nat) : Field := ⟨0x40600000 + 0x40 * i, 24, 4, .pk, 5⟩
/-- LANE_CFG.TX_INV (R357). -/
def LANE_CFG_TX_INV (i : Nat) : Field := ⟨0x40600000 + 0x40 * i, 22, 1, .pk, 0⟩
/-- LANE_CFG.RX_INV (R357). -/
def LANE_CFG_RX_INV (i : Nat) : Field := ⟨0x40600000 + 0x40 * i, 21, 1, .pk, 0⟩
/-- LANE_CFG.TX_SWING (R357). -/
def LANE_CFG_TX_SWING (i : Nat) : Field := ⟨0x40600000 + 0x40 * i, 16, 4, .pk, 0xA⟩
/-- LANE_CFG.TX_PRE (R357). -/
def LANE_CFG_TX_PRE (i : Nat) : Field := ⟨0x40600000 + 0x40 * i, 12, 3, .pk, 0⟩
/-- LANE_CFG.TX_POST (R357). -/
def LANE_CFG_TX_POST (i : Nat) : Field := ⟨0x40600000 + 0x40 * i, 8, 4, .pk, 4⟩
/-- LANE_CFG.FOM_MIN (R357). -/
def LANE_CFG_FOM_MIN (i : Nat) : Field := ⟨0x40600000 + 0x40 * i, 0, 8, .pk, 0x40⟩

/-- LANE_CTL.RETRAIN (R357). -/
def LANE_CTL_RETRAIN (i : Nat) : Field := ⟨0x40600004 + 0x40 * i, 16, 1, .wo, 0⟩
/-- LANE_CTL.PEER_SLEEP_OK (R357). -/
def LANE_CTL_PEER_SLEEP_OK (i : Nat) : Field := ⟨0x40600004 + 0x40 * i, 10, 1, .rw, 0⟩
/-- LANE_CTL.RX_SLEEP (R357). -/
def LANE_CTL_RX_SLEEP (i : Nat) : Field := ⟨0x40600004 + 0x40 * i, 9, 1, .rw, 0⟩
/-- LANE_CTL.TX_SLEEP (R357). -/
def LANE_CTL_TX_SLEEP (i : Nat) : Field := ⟨0x40600004 + 0x40 * i, 8, 1, .rw, 0⟩

/-- LANE_ALIGN.BITSLIP (R357). -/
def LANE_ALIGN_BITSLIP (i : Nat) : Field := ⟨0x40600008 + 0x40 * i, 31, 1, .wo, 0⟩
/-- LANE_ALIGN.ALIGNED (R357). -/
def LANE_ALIGN_ALIGNED (i : Nat) : Field := ⟨0x40600008 + 0x40 * i, 8, 1, .ro, 0⟩
/-- LANE_ALIGN.BUSY (R357). -/
def LANE_ALIGN_BUSY (i : Nat) : Field := ⟨0x40600008 + 0x40 * i, 7, 1, .ro, 0⟩
/-- LANE_ALIGN.SLIPS (R357). -/
def LANE_ALIGN_SLIPS (i : Nat) : Field := ⟨0x40600008 + 0x40 * i, 0, 7, .ro, 0⟩

/-- LANE_STAT.STATE (R357). -/
def LANE_STAT_STATE (i : Nat) : Field := ⟨0x4060000C + 0x40 * i, 28, 4, .ro, 0⟩
/-- LANE_STAT.PHASE (R357). -/
def LANE_STAT_PHASE (i : Nat) : Field := ⟨0x4060000C + 0x40 * i, 26, 2, .ro, 0⟩
/-- LANE_STAT.SD (R357). -/
def LANE_STAT_SD (i : Nat) : Field := ⟨0x4060000C + 0x40 * i, 25, 1, .ro, 0⟩
/-- LANE_STAT.CDR_LOCK (R357). -/
def LANE_STAT_CDR_LOCK (i : Nat) : Field := ⟨0x4060000C + 0x40 * i, 24, 1, .ro, 0⟩
/-- LANE_STAT.FOM (R357). -/
def LANE_STAT_FOM (i : Nat) : Field := ⟨0x4060000C + 0x40 * i, 16, 8, .ro, 0⟩
/-- LANE_STAT.TX_SVC (R357). -/
def LANE_STAT_TX_SVC (i : Nat) : Field := ⟨0x4060000C + 0x40 * i, 14, 1, .ro, 0⟩
/-- LANE_STAT.RX_SVC (R357). -/
def LANE_STAT_RX_SVC (i : Nat) : Field := ⟨0x4060000C + 0x40 * i, 13, 1, .ro, 0⟩
/-- LANE_STAT.RETRY (R357). -/
def LANE_STAT_RETRY (i : Nat) : Field := ⟨0x4060000C + 0x40 * i, 8, 5, .ro, 0⟩
/-- LANE_STAT.PLL_LOST (R357). -/
def LANE_STAT_PLL_LOST (i : Nat) : Field := ⟨0x4060000C + 0x40 * i, 7, 1, .w1c, 0⟩
/-- LANE_STAT.EQ_LIM (R357). -/
def LANE_STAT_EQ_LIM (i : Nat) : Field := ⟨0x4060000C + 0x40 * i, 6, 1, .w1c, 0⟩
/-- LANE_STAT.LB_REFUSED (R357). -/
def LANE_STAT_LB_REFUSED (i : Nat) : Field := ⟨0x4060000C + 0x40 * i, 5, 1, .w1c, 0⟩
/-- LANE_STAT.ABSENT_SEEN (R357). -/
def LANE_STAT_ABSENT_SEEN (i : Nat) : Field := ⟨0x4060000C + 0x40 * i, 4, 1, .w1c, 0⟩
/-- LANE_STAT.LOS (R357). -/
def LANE_STAT_LOS (i : Nat) : Field := ⟨0x4060000C + 0x40 * i, 3, 1, .w1c, 0⟩
/-- LANE_STAT.ALIGN_LOST (R357). -/
def LANE_STAT_ALIGN_LOST (i : Nat) : Field := ⟨0x4060000C + 0x40 * i, 2, 1, .w1c, 0⟩
/-- LANE_STAT.FOM_LOW (R357). -/
def LANE_STAT_FOM_LOW (i : Nat) : Field := ⟨0x4060000C + 0x40 * i, 1, 1, .w1c, 0⟩
/-- LANE_STAT.TIMEOUT (R357). -/
def LANE_STAT_TIMEOUT (i : Nat) : Field := ⟨0x4060000C + 0x40 * i, 0, 1, .w1c, 0⟩

/-- LANE_EQ.FREEZE (R357). -/
def LANE_EQ_FREEZE (i : Nat) : Field := ⟨0x40600010 + 0x40 * i, 31, 1, .rw, 0⟩
/-- LANE_EQ.CTLE_HI (R357). -/
def LANE_EQ_CTLE_HI (i : Nat) : Field := ⟨0x40600010 + 0x40 * i, 20, 4, .pk, 0xF⟩
/-- LANE_EQ.CTLE_LO (R357). -/
def LANE_EQ_CTLE_LO (i : Nat) : Field := ⟨0x40600010 + 0x40 * i, 16, 4, .pk, 0⟩
/-- LANE_EQ.CTLE (R357). -/
def LANE_EQ_CTLE (i : Nat) : Field := ⟨0x40600010 + 0x40 * i, 0, 4, .ro, 0⟩

/-- LANE_DFE.TAPS (R357). -/
def LANE_DFE_TAPS (i : Nat) : Field := ⟨0x40600014 + 0x40 * i, 0, 30, .ro, 0⟩

/-- LANE_TEST.LOOP (R357). -/
def LANE_TEST_LOOP (i : Nat) : Field := ⟨0x40600018 + 0x40 * i, 29, 3, .rw, 0⟩
/-- LANE_TEST.PRBS (R357). -/
def LANE_TEST_PRBS (i : Nat) : Field := ⟨0x40600018 + 0x40 * i, 24, 3, .rw, 0⟩
/-- LANE_TEST.CHK_LOCK (R357). -/
def LANE_TEST_CHK_LOCK (i : Nat) : Field := ⟨0x40600018 + 0x40 * i, 23, 1, .ro, 0⟩

/-- LANE_PRBS_ERR.COUNT (R357). -/
def LANE_PRBS_ERR_COUNT (i : Nat) : Field := ⟨0x4060001C + 0x40 * i, 0, 32, .ro, 0⟩

/-- LANE_RETRAIN.COUNT (R357). -/
def LANE_RETRAIN_COUNT (i : Nat) : Field := ⟨0x40600020 + 0x40 * i, 0, 32, .ro, 0⟩

/-- LANE_CNT_STAT.RT_CLR (R357). -/
def LANE_CNT_STAT_RT_CLR (i : Nat) : Field := ⟨0x40600024 + 0x40 * i, 31, 1, .wo, 0⟩
/-- LANE_CNT_STAT.PRBS_SAT (R357). -/
def LANE_CNT_STAT_PRBS_SAT (i : Nat) : Field := ⟨0x40600024 + 0x40 * i, 30, 1, .w1c, 0⟩
/-- LANE_CNT_STAT.CV_SAT (R357). -/
def LANE_CNT_STAT_CV_SAT (i : Nat) : Field := ⟨0x40600024 + 0x40 * i, 29, 1, .w1c, 0⟩

/-- LANE_CV_CNT.COUNT (R357). -/
def LANE_CV_CNT_COUNT (i : Nat) : Field := ⟨0x40600028 + 0x40 * i, 0, 32, .ro, 0⟩

/-- LANE_PEER.LANE (R357). -/
def LANE_PEER_LANE (i : Nat) : Field := ⟨0x4060002C + 0x40 * i, 24, 5, .ro, 0⟩
/-- LANE_PEER.FOM (R357). -/
def LANE_PEER_FOM (i : Nat) : Field := ⟨0x4060002C + 0x40 * i, 16, 8, .ro, 0⟩
/-- LANE_PEER.NODE (R357). -/
def LANE_PEER_NODE (i : Nat) : Field := ⟨0x4060002C + 0x40 * i, 0, 12, .ro, 0⟩

/-- LANE_QUAD_STAT.CAL_FAIL (R358). -/
def LANE_QUAD_STAT_CAL_FAIL (i : Nat) : Field := ⟨0x40610000 + 0x10 * i, 4, 1, .w1c, 0⟩
/-- LANE_QUAD_STAT.PLL1_LOST (R358). -/
def LANE_QUAD_STAT_PLL1_LOST (i : Nat) : Field := ⟨0x40610000 + 0x10 * i, 3, 1, .w1c, 0⟩
/-- LANE_QUAD_STAT.PLL0_LOST (R358). -/
def LANE_QUAD_STAT_PLL0_LOST (i : Nat) : Field := ⟨0x40610000 + 0x10 * i, 2, 1, .w1c, 0⟩
/-- LANE_QUAD_STAT.PLL1_LOCK (R358). -/
def LANE_QUAD_STAT_PLL1_LOCK (i : Nat) : Field := ⟨0x40610000 + 0x10 * i, 1, 1, .ro, 0⟩
/-- LANE_QUAD_STAT.PLL0_LOCK (R358). -/
def LANE_QUAD_STAT_PLL0_LOCK (i : Nat) : Field := ⟨0x40610000 + 0x10 * i, 0, 1, .ro, 0⟩

/-- LANE_GLB_CFG.RETRIES (R358). -/
def LANE_GLB_CFG_RETRIES : Field := ⟨0x40610100, 8, 5, .pk, 0x10⟩
/-- LANE_GLB_CFG.RETRAIN_LIMIT (R358). -/
def LANE_GLB_CFG_RETRAIN_LIMIT : Field := ⟨0x40610100, 0, 8, .pk, 0x10⟩

/-- NOL_LINK_CFG.EN (R389). -/
def NOL_LINK_CFG_EN (i : Nat) : Field := ⟨0x40700000 + 0x40 * i, 31, 1, .pk, 0⟩
/-- NOL_LINK_CFG.PEER_ANY (R389). -/
def NOL_LINK_CFG_PEER_ANY (i : Nat) : Field := ⟨0x40700000 + 0x40 * i, 30, 1, .pk, 0⟩
/-- NOL_LINK_CFG.DIR (R389). -/
def NOL_LINK_CFG_DIR (i : Nat) : Field := ⟨0x40700000 + 0x40 * i, 28, 2, .pk, 0⟩
/-- NOL_LINK_CFG.FB_LANES (R389). -/
def NOL_LINK_CFG_FB_LANES (i : Nat) : Field := ⟨0x40700000 + 0x40 * i, 24, 3, .pk, 1⟩
/-- NOL_LINK_CFG.PEER (R389). -/
def NOL_LINK_CFG_PEER (i : Nat) : Field := ⟨0x40700000 + 0x40 * i, 0, 12, .pk, 0⟩

/-- NOL_LINK_LANES.N (R389). -/
def NOL_LINK_LANES_N (i : Nat) : Field := ⟨0x40700004 + 0x40 * i, 30, 2, .pk, 0⟩
/-- NOL_LINK_LANES.LANE3 (R389). -/
def NOL_LINK_LANES_LANE3 (i : Nat) : Field := ⟨0x40700004 + 0x40 * i, 24, 5, .pk, 0⟩
/-- NOL_LINK_LANES.LANE2 (R389). -/
def NOL_LINK_LANES_LANE2 (i : Nat) : Field := ⟨0x40700004 + 0x40 * i, 16, 5, .pk, 0⟩
/-- NOL_LINK_LANES.LANE1 (R389). -/
def NOL_LINK_LANES_LANE1 (i : Nat) : Field := ⟨0x40700004 + 0x40 * i, 8, 5, .pk, 0⟩
/-- NOL_LINK_LANES.LANE0 (R389). -/
def NOL_LINK_LANES_LANE0 (i : Nat) : Field := ⟨0x40700004 + 0x40 * i, 0, 5, .pk, 0⟩

/-- NOL_LINK_BUF.TC (R389). -/
def NOL_LINK_BUF_TC (i : Nat) : Field := ⟨0x40700008 + 0x40 * i, 16, 8, .pk, 0x10⟩
/-- NOL_LINK_BUF.OPEN (R389). -/
def NOL_LINK_BUF_OPEN (i : Nat) : Field := ⟨0x40700008 + 0x40 * i, 8, 8, .pk, 8⟩
/-- NOL_LINK_BUF.BULK (R389). -/
def NOL_LINK_BUF_BULK (i : Nat) : Field := ⟨0x40700008 + 0x40 * i, 0, 8, .pk, 0x21⟩

/-- NOL_LINK_DLY.DLY (R389). -/
def NOL_LINK_DLY_DLY (i : Nat) : Field := ⟨0x4070000C + 0x40 * i, 0, 16, .pk, 0⟩

/-- NOL_LINK_STAT.STATE (R389). -/
def NOL_LINK_STAT_STATE (i : Nat) : Field := ⟨0x40700010 + 0x40 * i, 29, 3, .ro, 0⟩
/-- NOL_LINK_STAT.FORM (R389). -/
def NOL_LINK_STAT_FORM (i : Nat) : Field := ⟨0x40700010 + 0x40 * i, 28, 1, .ro, 0⟩
/-- NOL_LINK_STAT.TX_SET (R389). -/
def NOL_LINK_STAT_TX_SET (i : Nat) : Field := ⟨0x40700010 + 0x40 * i, 24, 4, .ro, 0⟩
/-- NOL_LINK_STAT.RX_SET (R389). -/
def NOL_LINK_STAT_RX_SET (i : Nat) : Field := ⟨0x40700010 + 0x40 * i, 20, 4, .ro, 0⟩
/-- NOL_LINK_STAT.PEER_NODE (R389). -/
def NOL_LINK_STAT_PEER_NODE (i : Nat) : Field := ⟨0x40700010 + 0x40 * i, 0, 12, .ro, 0⟩

/-- NOL_LINK_FLAG.SKEW (R389). -/
def NOL_LINK_FLAG_SKEW (i : Nat) : Field := ⟨0x40700014 + 0x40 * i, 6, 1, .w1c, 0⟩
/-- NOL_LINK_FLAG.WIRING (R389). -/
def NOL_LINK_FLAG_WIRING (i : Nat) : Field := ⟨0x40700014 + 0x40 * i, 5, 1, .w1c, 0⟩
/-- NOL_LINK_FLAG.PERIOD_SLIP (R389). -/
def NOL_LINK_FLAG_PERIOD_SLIP (i : Nat) : Field := ⟨0x40700014 + 0x40 * i, 4, 1, .w1c, 0⟩
/-- NOL_LINK_FLAG.SLOT_MISS (R389). -/
def NOL_LINK_FLAG_SLOT_MISS (i : Nat) : Field := ⟨0x40700014 + 0x40 * i, 3, 1, .w1c, 0⟩
/-- NOL_LINK_FLAG.DROP (R389). -/
def NOL_LINK_FLAG_DROP (i : Nat) : Field := ⟨0x40700014 + 0x40 * i, 2, 1, .w1c, 0⟩
/-- NOL_LINK_FLAG.BAD (R389). -/
def NOL_LINK_FLAG_BAD (i : Nat) : Field := ⟨0x40700014 + 0x40 * i, 1, 1, .w1c, 0⟩
/-- NOL_LINK_FLAG.PEER_CP (R389). -/
def NOL_LINK_FLAG_PEER_CP (i : Nat) : Field := ⟨0x40700014 + 0x40 * i, 0, 1, .w1c, 0⟩

/-- NOL_LINK_MDLY.DLY (R389). -/
def NOL_LINK_MDLY_DLY (i : Nat) : Field := ⟨0x40700018 + 0x40 * i, 0, 32, .ro, 0⟩

/-- NOL_LINK_RX_CNT.COUNT (R389). -/
def NOL_LINK_RX_CNT_COUNT (i : Nat) : Field := ⟨0x4070001C + 0x40 * i, 0, 32, .ro, 0⟩

/-- NOL_LINK_BAD_CNT.COUNT (R389). -/
def NOL_LINK_BAD_CNT_COUNT (i : Nat) : Field := ⟨0x40700020 + 0x40 * i, 0, 32, .ro, 0⟩

/-- NOL_LINK_DROP_CNT.COUNT (R389). -/
def NOL_LINK_DROP_CNT_COUNT (i : Nat) : Field := ⟨0x40700024 + 0x40 * i, 0, 32, .ro, 0⟩

/-- NOL_LINK_CNT_STAT.DROP_SAT (R389). -/
def NOL_LINK_CNT_STAT_DROP_SAT (i : Nat) : Field := ⟨0x40700028 + 0x40 * i, 2, 1, .w1c, 0⟩
/-- NOL_LINK_CNT_STAT.BAD_SAT (R389). -/
def NOL_LINK_CNT_STAT_BAD_SAT (i : Nat) : Field := ⟨0x40700028 + 0x40 * i, 1, 1, .w1c, 0⟩
/-- NOL_LINK_CNT_STAT.RX_SAT (R389). -/
def NOL_LINK_CNT_STAT_RX_SAT (i : Nat) : Field := ⟨0x40700028 + 0x40 * i, 0, 1, .w1c, 0⟩

/-- NOL_SCHED0.EN (R390). -/
def NOL_SCHED0_EN (i : Nat) (j : Nat) (k : Nat) : Field := ⟨0x40710000 + 0x800 * i + 0x400 * j + 0x10 * k, 31, 1, .pk, 0⟩
/-- NOL_SCHED0.RX (R390). -/
def NOL_SCHED0_RX (i : Nat) (j : Nat) (k : Nat) : Field := ⟨0x40710000 + 0x800 * i + 0x400 * j + 0x10 * k, 30, 1, .pk, 0⟩
/-- NOL_SCHED0.TYPE (R390). -/
def NOL_SCHED0_TYPE (i : Nat) (j : Nat) (k : Nat) : Field := ⟨0x40710000 + 0x800 * i + 0x400 * j + 0x10 * k, 24, 4, .pk, 0⟩
/-- NOL_SCHED0.START (R390). -/
def NOL_SCHED0_START (i : Nat) (j : Nat) (k : Nat) : Field := ⟨0x40710000 + 0x800 * i + 0x400 * j + 0x10 * k, 0, 19, .pk, 0⟩

/-- NOL_SCHED1.BCAST (R390). -/
def NOL_SCHED1_BCAST (i : Nat) (j : Nat) (k : Nat) : Field := ⟨0x40710004 + 0x800 * i + 0x400 * j + 0x10 * k, 31, 1, .pk, 0⟩
/-- NOL_SCHED1.NODE (R390). -/
def NOL_SCHED1_NODE (i : Nat) (j : Nat) (k : Nat) : Field := ⟨0x40710004 + 0x800 * i + 0x400 * j + 0x10 * k, 16, 12, .pk, 0⟩
/-- NOL_SCHED1.LEN_MAX (R390). -/
def NOL_SCHED1_LEN_MAX (i : Nat) (j : Nat) (k : Nat) : Field := ⟨0x40710004 + 0x800 * i + 0x400 * j + 0x10 * k, 0, 12, .pk, 0⟩

/-- NOL_SCHED2.CLE (R390). -/
def NOL_SCHED2_CLE (i : Nat) (j : Nat) (k : Nat) : Field := ⟨0x40710008 + 0x800 * i + 0x400 * j + 0x10 * k, 30, 2, .pk, 0⟩
/-- NOL_SCHED2.ARM (R390). -/
def NOL_SCHED2_ARM (i : Nat) (j : Nat) (k : Nat) : Field := ⟨0x40710008 + 0x800 * i + 0x400 * j + 0x10 * k, 8, 3, .pk, 0⟩
/-- NOL_SCHED2.WORD (R390). -/
def NOL_SCHED2_WORD (i : Nat) (j : Nat) (k : Nat) : Field := ⟨0x40710008 + 0x800 * i + 0x400 * j + 0x10 * k, 0, 8, .pk, 0⟩

/-- NOL_REF_RX.Y (R390). -/
def NOL_REF_RX_Y (i : Nat) (j : Nat) : Field := ⟨0x40730000 + 0x100 * i + 0x4 * j, 0, 32, .ro, 0⟩

/-- NOL_CFG.TIMEOUT (R391). -/
def NOL_CFG_TIMEOUT : Field := ⟨0x40720000, 0, 16, .pk, 0x64⟩

/-- NOL_MEMB_STAT.STATE (R391). -/
def NOL_MEMB_STAT_STATE : Field := ⟨0x40720004, 29, 3, .ro, 0⟩
/-- NOL_MEMB_STAT.REASON (R391). -/
def NOL_MEMB_STAT_REASON : Field := ⟨0x40720004, 16, 8, .ro, 0⟩
/-- NOL_MEMB_STAT.MEMBERS (R391). -/
def NOL_MEMB_STAT_MEMBERS : Field := ⟨0x40720004, 8, 6, .ro, 0⟩
/-- NOL_MEMB_STAT.ID_SEEN (R391). -/
def NOL_MEMB_STAT_ID_SEEN : Field := ⟨0x40720004, 4, 1, .w1c, 0⟩
/-- NOL_MEMB_STAT.ID_CONFLICT (R391). -/
def NOL_MEMB_STAT_ID_CONFLICT : Field := ⟨0x40720004, 3, 1, .w1c, 0⟩
/-- NOL_MEMB_STAT.REJOIN (R391). -/
def NOL_MEMB_STAT_REJOIN : Field := ⟨0x40720004, 2, 1, .w1c, 0⟩
/-- NOL_MEMB_STAT.MEMB_TIMEOUT (R391). -/
def NOL_MEMB_STAT_MEMB_TIMEOUT : Field := ⟨0x40720004, 1, 1, .w1c, 0⟩
/-- NOL_MEMB_STAT.MEMB_LOST (R391). -/
def NOL_MEMB_STAT_MEMB_LOST : Field := ⟨0x40720004, 0, 1, .w1c, 0⟩

/-- NOL_MEMB_FROM.FROM (R391). -/
def NOL_MEMB_FROM_FROM : Field := ⟨0x40720008, 0, 32, .ro, 0⟩

/-- NOL_ROUTE.VALID (R391). -/
def NOL_ROUTE_VALID (i : Nat) : Field := ⟨0x40720080 + 0x4 * i, 31, 1, .ro, 0⟩
/-- NOL_ROUTE.LINK (R391). -/
def NOL_ROUTE_LINK (i : Nat) : Field := ⟨0x40720080 + 0x4 * i, 16, 5, .ro, 0⟩
/-- NOL_ROUTE.NODE (R391). -/
def NOL_ROUTE_NODE (i : Nat) : Field := ⟨0x40720080 + 0x4 * i, 0, 12, .ro, 0⟩

/-- NOL_MEMBER0.VALID (R391). -/
def NOL_MEMBER0_VALID (i : Nat) : Field := ⟨0x40720100 + 0x10 * i, 31, 1, .ro, 0⟩
/-- NOL_MEMBER0.ARM (R391). -/
def NOL_MEMBER0_ARM (i : Nat) : Field := ⟨0x40720100 + 0x10 * i, 28, 3, .ro, 0⟩
/-- NOL_MEMBER0.CH (R391). -/
def NOL_MEMBER0_CH (i : Nat) : Field := ⟨0x40720100 + 0x10 * i, 16, 8, .ro, 0⟩
/-- NOL_MEMBER0.NODE (R391). -/
def NOL_MEMBER0_NODE (i : Nat) : Field := ⟨0x40720100 + 0x10 * i, 0, 12, .ro, 0⟩

/-- NOL_MEMBER1.UID (R391). -/
def NOL_MEMBER1_UID (i : Nat) : Field := ⟨0x40720104 + 0x10 * i, 0, 32, .ro, 0⟩

/-- NOL_MEMBER2.UID (R391). -/
def NOL_MEMBER2_UID (i : Nat) : Field := ⟨0x40720108 + 0x10 * i, 0, 32, .ro, 0⟩

/-- ETH_PORT_CFG.AN (R429). -/
def ETH_PORT_CFG_AN (i : Nat) : Field := ⟨0x40800000 + 0x40 * i, 31, 1, .pk, 1⟩
/-- ETH_PORT_CFG.FEC (R429). -/
def ETH_PORT_CFG_FEC (i : Nat) : Field := ⟨0x40800000 + 0x40 * i, 30, 1, .pk, 0⟩
/-- ETH_PORT_CFG.TAG (R429). -/
def ETH_PORT_CFG_TAG (i : Nat) : Field := ⟨0x40800000 + 0x40 * i, 29, 1, .pk, 0⟩
/-- ETH_PORT_CFG.PCP_G (R429). -/
def ETH_PORT_CFG_PCP_G (i : Nat) : Field := ⟨0x40800000 + 0x40 * i, 26, 3, .pk, 4⟩
/-- ETH_PORT_CFG.PCP_M (R429). -/
def ETH_PORT_CFG_PCP_M (i : Nat) : Field := ⟨0x40800000 + 0x40 * i, 23, 3, .pk, 0⟩
/-- ETH_PORT_CFG.VID (R429). -/
def ETH_PORT_CFG_VID (i : Nat) : Field := ⟨0x40800000 + 0x40 * i, 0, 12, .pk, 0⟩

/-- ETH_MAC_LO.MAC (R429). -/
def ETH_MAC_LO_MAC (i : Nat) : Field := ⟨0x40800004 + 0x40 * i, 0, 32, .pk, 0⟩

/-- ETH_MAC_HI.MAC (R429). -/
def ETH_MAC_HI_MAC (i : Nat) : Field := ⟨0x40800008 + 0x40 * i, 0, 16, .pk, 0⟩

/-- ETH_TS_ADJ.EGRESS (R429). -/
def ETH_TS_ADJ_EGRESS (i : Nat) : Field := ⟨0x4080000C + 0x40 * i, 16, 16, .pk, 0⟩
/-- ETH_TS_ADJ.INGRESS (R429). -/
def ETH_TS_ADJ_INGRESS (i : Nat) : Field := ⟨0x4080000C + 0x40 * i, 0, 16, .pk, 0⟩

/-- ETH_PORT_STAT.UP (R429). -/
def ETH_PORT_STAT_UP (i : Nat) : Field := ⟨0x40800010 + 0x40 * i, 31, 1, .ro, 0⟩

/-- ETH_RX_ERR_CNT.COUNT (R429). -/
def ETH_RX_ERR_CNT_COUNT (i : Nat) : Field := ⟨0x40800014 + 0x40 * i, 0, 32, .ro, 0⟩

/-- ETH_RX_OTHER_CNT.COUNT (R429). -/
def ETH_RX_OTHER_CNT_COUNT (i : Nat) : Field := ⟨0x40800018 + 0x40 * i, 0, 32, .ro, 0⟩

/-- ETH_CNT_STAT.ERR_SAT (R429). -/
def ETH_CNT_STAT_ERR_SAT (i : Nat) : Field := ⟨0x4080001C + 0x40 * i, 1, 1, .w1c, 0⟩
/-- ETH_CNT_STAT.OTHER_SAT (R429). -/
def ETH_CNT_STAT_OTHER_SAT (i : Nat) : Field := ⟨0x4080001C + 0x40 * i, 0, 1, .w1c, 0⟩

/-- ETH_RED_CFG.MODE_B (R429). -/
def ETH_RED_CFG_MODE_B : Field := ⟨0x408000F0, 4, 2, .pk, 0⟩
/-- ETH_RED_CFG.MODE_A (R429). -/
def ETH_RED_CFG_MODE_A : Field := ⟨0x408000F0, 0, 2, .pk, 0⟩

/-- DD_OVF_CNT.COUNT (R429). -/
def DD_OVF_CNT_COUNT (i : Nat) : Field := ⟨0x40800100 + 0x10 * i, 0, 32, .ro, 0⟩

/-- WRONG_LAN_CNT.COUNT (R429). -/
def WRONG_LAN_CNT_COUNT (i : Nat) : Field := ⟨0x40800104 + 0x10 * i, 0, 32, .ro, 0⟩

/-- ETH_RED_STAT.WL_SAT (R429). -/
def ETH_RED_STAT_WL_SAT (i : Nat) : Field := ⟨0x40800108 + 0x10 * i, 1, 1, .w1c, 0⟩
/-- ETH_RED_STAT.DD_SAT (R429). -/
def ETH_RED_STAT_DD_SAT (i : Nat) : Field := ⟨0x40800108 + 0x10 * i, 0, 1, .w1c, 0⟩

/-- MNT_DELIV.KIND (R429). -/
def MNT_DELIV_KIND : Field := ⟨0x40800200, 24, 8, .ro, 0⟩
/-- MNT_DELIV.STATE (R429). -/
def MNT_DELIV_STATE : Field := ⟨0x40800200, 16, 8, .ro, 0⟩
/-- MNT_DELIV.LAST (R429). -/
def MNT_DELIV_LAST : Field := ⟨0x40800200, 8, 8, .ro, 0⟩

/-- MNT_NEXT.NEXT (R429). -/
def MNT_NEXT_NEXT : Field := ⟨0x40800204, 0, 32, .ro, 0⟩

/-- SV_CFG.EN (R430). -/
def SV_CFG_EN (i : Nat) : Field := ⟨0x40900000 + 0x40 * i, 31, 1, .pk, 0⟩
/-- SV_CFG.SIM (R430). -/
def SV_CFG_SIM (i : Nat) : Field := ⟨0x40900000 + 0x40 * i, 30, 1, .pk, 0⟩
/-- SV_CFG.RATE (R430). -/
def SV_CFG_RATE (i : Nat) : Field := ⟨0x40900000 + 0x40 * i, 28, 2, .pk, 0⟩
/-- SV_CFG.SYNC_MIN (R430). -/
def SV_CFG_SYNC_MIN (i : Nat) : Field := ⟨0x40900000 + 0x40 * i, 26, 2, .pk, 2⟩
/-- SV_CFG.NQ (R430). -/
def SV_CFG_NQ (i : Nat) : Field := ⟨0x40900000 + 0x40 * i, 16, 3, .pk, 0⟩
/-- SV_CFG.APPID (R430). -/
def SV_CFG_APPID (i : Nat) : Field := ⟨0x40900000 + 0x40 * i, 0, 16, .pk, 0x4000⟩

/-- SV_DST_LO.MAC (R430). -/
def SV_DST_LO_MAC (i : Nat) : Field := ⟨0x40900004 + 0x40 * i, 0, 32, .pk, 0⟩

/-- SV_DST_HI.MAC (R430). -/
def SV_DST_HI_MAC (i : Nat) : Field := ⟨0x40900008 + 0x40 * i, 0, 16, .pk, 0⟩

/-- SV_CONFREV.CONFREV (R430). -/
def SV_CONFREV_CONFREV (i : Nat) : Field := ⟨0x4090000C + 0x40 * i, 0, 32, .pk, 0⟩

/-- SV_LIM.ID_LEN (R430). -/
def SV_LIM_ID_LEN (i : Nat) : Field := ⟨0x40900010 + 0x40 * i, 16, 7, .pk, 0⟩
/-- SV_LIM.AGE_MAX (R430). -/
def SV_LIM_AGE_MAX (i : Nat) : Field := ⟨0x40900010 + 0x40 * i, 0, 16, .pk, 0x3E8⟩

/-- SV_STAT.VALID (R430). -/
def SV_STAT_VALID (i : Nat) : Field := ⟨0x40900014 + 0x40 * i, 31, 1, .ro, 0⟩
/-- SV_STAT.QBAD (R430). -/
def SV_STAT_QBAD (i : Nat) : Field := ⟨0x40900014 + 0x40 * i, 16, 8, .ro, 0⟩
/-- SV_STAT.GAP_SAT (R430). -/
def SV_STAT_GAP_SAT (i : Nat) : Field := ⟨0x40900014 + 0x40 * i, 6, 1, .w1c, 0⟩
/-- SV_STAT.LOST (R430). -/
def SV_STAT_LOST (i : Nat) : Field := ⟨0x40900014 + 0x40 * i, 5, 1, .w1c, 0⟩
/-- SV_STAT.SYNC (R430). -/
def SV_STAT_SYNC (i : Nat) : Field := ⟨0x40900014 + 0x40 * i, 4, 1, .w1c, 0⟩
/-- SV_STAT.CONF (R430). -/
def SV_STAT_CONF (i : Nat) : Field := ⟨0x40900014 + 0x40 * i, 3, 1, .w1c, 0⟩
/-- SV_STAT.FORMAT (R430). -/
def SV_STAT_FORMAT (i : Nat) : Field := ⟨0x40900014 + 0x40 * i, 2, 1, .w1c, 0⟩
/-- SV_STAT.SAT (R430). -/
def SV_STAT_SAT (i : Nat) : Field := ⟨0x40900014 + 0x40 * i, 1, 1, .w1c, 0⟩

/-- SV_GAP_CNT.COUNT (R430). -/
def SV_GAP_CNT_COUNT (i : Nat) : Field := ⟨0x40900018 + 0x40 * i, 0, 32, .ro, 0⟩

/-- SV_QTY0.POS (R430). -/
def SV_QTY0_POS (i : Nat) (j : Nat) : Field := ⟨0x40910000 + 0x40 * i + 0x8 * j, 0, 5, .pk, 0⟩

/-- SV_QTY1.GAIN (R430). -/
def SV_QTY1_GAIN (i : Nat) (j : Nat) : Field := ⟨0x40910004 + 0x40 * i + 0x8 * j, 0, 32, .pk, 0⟩

/-- SV_SNAP.X (R430). -/
def SV_SNAP_X (i : Nat) (j : Nat) : Field := ⟨0x40930000 + 0x40 * i + 0x4 * j, 0, 32, .ro, 0⟩

/-- SV_SNAP_STAT.AGE (R430). -/
def SV_SNAP_STAT_AGE (i : Nat) : Field := ⟨0x40930020 + 0x40 * i, 16, 16, .ro, 0xFFFF⟩
/-- SV_SNAP_STAT.QBAD (R430). -/
def SV_SNAP_STAT_QBAD (i : Nat) : Field := ⟨0x40930020 + 0x40 * i, 8, 8, .ro, 0⟩
/-- SV_SNAP_STAT.VALID (R430). -/
def SV_SNAP_STAT_VALID (i : Nat) : Field := ⟨0x40930020 + 0x40 * i, 0, 1, .ro, 0⟩

/-- SV_SNAP_K.K (R430). -/
def SV_SNAP_K_K : Field := ⟨0x40930800, 0, 32, .ro, 0⟩

/-- GOOSE_PUB_CFG.EN (R431). -/
def GOOSE_PUB_CFG_EN (i : Nat) : Field := ⟨0x40A00000 + 0x40 * i, 31, 1, .pk, 0⟩
/-- GOOSE_PUB_CFG.N (R431). -/
def GOOSE_PUB_CFG_N (i : Nat) : Field := ⟨0x40A00000 + 0x40 * i, 24, 5, .pk, 0⟩
/-- GOOSE_PUB_CFG.APPID (R431). -/
def GOOSE_PUB_CFG_APPID (i : Nat) : Field := ⟨0x40A00000 + 0x40 * i, 0, 16, .pk, 0⟩

/-- GOOSE_PUB_T.T0 (R431). -/
def GOOSE_PUB_T_T0 (i : Nat) : Field := ⟨0x40A00004 + 0x40 * i, 16, 16, .pk, 0x3E8⟩
/-- GOOSE_PUB_T.T1 (R431). -/
def GOOSE_PUB_T_T1 (i : Nat) : Field := ⟨0x40A00004 + 0x40 * i, 0, 16, .pk, 2⟩

/-- GOOSE_PUB_DST_LO.MAC (R431). -/
def GOOSE_PUB_DST_LO_MAC (i : Nat) : Field := ⟨0x40A00008 + 0x40 * i, 0, 32, .pk, 0⟩

/-- GOOSE_PUB_DST_HI.MAC (R431). -/
def GOOSE_PUB_DST_HI_MAC (i : Nat) : Field := ⟨0x40A0000C + 0x40 * i, 0, 16, .pk, 0⟩

/-- GOOSE_PUB_CONFREV.CONFREV (R431). -/
def GOOSE_PUB_CONFREV_CONFREV (i : Nat) : Field := ⟨0x40A00010 + 0x40 * i, 0, 32, .pk, 1⟩

/-- GOOSE_PUB_CTL.SEND (R431). -/
def GOOSE_PUB_CTL_SEND (i : Nat) : Field := ⟨0x40A00014 + 0x40 * i, 0, 1, .wo, 0⟩

/-- GOOSE_PUB_ST.STNUM (R431). -/
def GOOSE_PUB_ST_STNUM (i : Nat) : Field := ⟨0x40A00018 + 0x40 * i, 0, 32, .ro, 0⟩

/-- GOOSE_PUB_SQ.SQNUM (R431). -/
def GOOSE_PUB_SQ_SQNUM (i : Nat) : Field := ⟨0x40A0001C + 0x40 * i, 0, 32, .ro, 0⟩

/-- GOOSE_PUB_ENT.TYPE (R431). -/
def GOOSE_PUB_ENT_TYPE (i : Nat) (j : Nat) : Field := ⟨0x40A10000 + 0x80 * i + 0x4 * j, 30, 2, .pk, 0⟩
/-- GOOSE_PUB_ENT.SRC (R431). -/
def GOOSE_PUB_ENT_SRC (i : Nat) (j : Nat) : Field := ⟨0x40A10000 + 0x80 * i + 0x4 * j, 29, 1, .pk, 0⟩
/-- GOOSE_PUB_ENT.GROUP (R431). -/
def GOOSE_PUB_ENT_GROUP (i : Nat) (j : Nat) : Field := ⟨0x40A10000 + 0x80 * i + 0x4 * j, 0, 4, .pk, 0⟩

/-- GOOSE_TX.V (R431). -/
def GOOSE_TX_V (i : Nat) (j : Nat) : Field := ⟨0x40A20000 + 0x80 * i + 0x4 * j, 0, 32, .rw, 0⟩

/-- GOOSE_SUB_CFG.EN (R431). -/
def GOOSE_SUB_CFG_EN (i : Nat) : Field := ⟨0x40A40000 + 0x40 * i, 31, 1, .pk, 0⟩
/-- GOOSE_SUB_CFG.SIM (R431). -/
def GOOSE_SUB_CFG_SIM (i : Nat) : Field := ⟨0x40A40000 + 0x40 * i, 30, 1, .pk, 0⟩
/-- GOOSE_SUB_CFG.N (R431). -/
def GOOSE_SUB_CFG_N (i : Nat) : Field := ⟨0x40A40000 + 0x40 * i, 24, 4, .pk, 0⟩
/-- GOOSE_SUB_CFG.APPID (R431). -/
def GOOSE_SUB_CFG_APPID (i : Nat) : Field := ⟨0x40A40000 + 0x40 * i, 0, 16, .pk, 0⟩

/-- GOOSE_SUB_DST_LO.MAC (R431). -/
def GOOSE_SUB_DST_LO_MAC (i : Nat) : Field := ⟨0x40A40004 + 0x40 * i, 0, 32, .pk, 0⟩

/-- GOOSE_SUB_DST_HI.MAC (R431). -/
def GOOSE_SUB_DST_HI_MAC (i : Nat) : Field := ⟨0x40A40008 + 0x40 * i, 0, 16, .pk, 0⟩

/-- GOOSE_SUB_CONFREV.CONFREV (R431). -/
def GOOSE_SUB_CONFREV_CONFREV (i : Nat) : Field := ⟨0x40A4000C + 0x40 * i, 0, 32, .pk, 1⟩

/-- GOOSE_SUB_STAT.VALID (R431). -/
def GOOSE_SUB_STAT_VALID (i : Nat) : Field := ⟨0x40A40020 + 0x40 * i, 31, 1, .ro, 0⟩
/-- GOOSE_SUB_STAT.STALE (R431). -/
def GOOSE_SUB_STAT_STALE (i : Nat) : Field := ⟨0x40A40020 + 0x40 * i, 3, 1, .w1c, 0⟩
/-- GOOSE_SUB_STAT.CONF (R431). -/
def GOOSE_SUB_STAT_CONF (i : Nat) : Field := ⟨0x40A40020 + 0x40 * i, 2, 1, .w1c, 0⟩
/-- GOOSE_SUB_STAT.NDS (R431). -/
def GOOSE_SUB_STAT_NDS (i : Nat) : Field := ⟨0x40A40020 + 0x40 * i, 1, 1, .w1c, 0⟩
/-- GOOSE_SUB_STAT.TYPE (R431). -/
def GOOSE_SUB_STAT_TYPE (i : Nat) : Field := ⟨0x40A40020 + 0x40 * i, 0, 1, .w1c, 0⟩

/-- GOOSE_SUB_ST.STNUM (R431). -/
def GOOSE_SUB_ST_STNUM (i : Nat) : Field := ⟨0x40A40024 + 0x40 * i, 0, 32, .ro, 0⟩

/-- GOOSE_SUB_IDX.IDX (R431). -/
def GOOSE_SUB_IDX_IDX (i : Nat) (j : Nat) : Field := ⟨0x40A40010 + 0x40 * i + 0x4 * j, 0, 32, .pk, 0⟩

/-- GOOSE_RX.V (R431). -/
def GOOSE_RX_V (i : Nat) (j : Nat) : Field := ⟨0x40A50000 + 0x40 * i + 0x4 * j, 0, 32, .ro, 0⟩

/-- PTP_CFG.EN (R432). -/
def PTP_CFG_EN : Field := ⟨0x40B00000, 31, 1, .pk, 0⟩
/-- PTP_CFG.TYPE (R432). -/
def PTP_CFG_TYPE : Field := ⟨0x40B00000, 30, 1, .pk, 0⟩
/-- PTP_CFG.PROFILE (R432). -/
def PTP_CFG_PROFILE : Field := ⟨0x40B00000, 29, 1, .pk, 0⟩
/-- PTP_CFG.SLAVE_ONLY (R432). -/
def PTP_CFG_SLAVE_ONLY : Field := ⟨0x40B00000, 28, 1, .pk, 1⟩
/-- PTP_CFG.TAG (R432). -/
def PTP_CFG_TAG : Field := ⟨0x40B00000, 27, 1, .pk, 0⟩
/-- PTP_CFG.PORTS (R432). -/
def PTP_CFG_PORTS : Field := ⟨0x40B00000, 20, 4, .pk, 0⟩
/-- PTP_CFG.LOG_SYNC (R432). -/
def PTP_CFG_LOG_SYNC : Field := ⟨0x40B00000, 16, 4, .pk, 0⟩
/-- PTP_CFG.DOMAIN (R432). -/
def PTP_CFG_DOMAIN : Field := ⟨0x40B00000, 8, 8, .pk, 0⟩

/-- PTP_PRIO.P1 (R432). -/
def PTP_PRIO_P1 : Field := ⟨0x40B00004, 8, 8, .pk, 0x80⟩
/-- PTP_PRIO.P2 (R432). -/
def PTP_PRIO_P2 : Field := ⟨0x40B00004, 0, 8, .pk, 0x80⟩

/-- PTP_UTC.OFF (R432). -/
def PTP_UTC_OFF : Field := ⟨0x40B00008, 0, 16, .pk, 0x25⟩

/-- PTP_GM_LO.ID (R432). -/
def PTP_GM_LO_ID : Field := ⟨0x40B00020, 0, 32, .ro, 0⟩

/-- PTP_GM_HI.ID (R432). -/
def PTP_GM_HI_ID : Field := ⟨0x40B00024, 0, 32, .ro, 0⟩

/-- PTP_GM.CLASS (R432). -/
def PTP_GM_CLASS : Field := ⟨0x40B00028, 24, 8, .ro, 0xFF⟩
/-- PTP_GM.STEPS (R432). -/
def PTP_GM_STEPS : Field := ⟨0x40B00028, 16, 8, .ro, 0⟩
/-- PTP_GM.TTI (R432). -/
def PTP_GM_TTI : Field := ⟨0x40B00028, 0, 16, .ro, 0⟩

/-- PTP_DISC_CNT.COUNT (R432). -/
def PTP_DISC_CNT_COUNT : Field := ⟨0x40B0002C, 0, 32, .ro, 0⟩

/-- PTP_CNT_STAT.SAT (R432). -/
def PTP_CNT_STAT_SAT : Field := ⟨0x40B00030, 0, 1, .w1c, 0⟩

/-- SERVO_CFG.SRC (R432). -/
def SERVO_CFG_SRC : Field := ⟨0x40B00100, 30, 2, .pk, 0⟩
/-- SERVO_CFG.KP (R432). -/
def SERVO_CFG_KP : Field := ⟨0x40B00100, 24, 5, .pk, 0xE⟩
/-- SERVO_CFG.KI (R432). -/
def SERVO_CFG_KI : Field := ⟨0x40B00100, 16, 5, .pk, 0x13⟩
/-- SERVO_CFG.NAVG (R432). -/
def SERVO_CFG_NAVG : Field := ⟨0x40B00100, 8, 4, .pk, 0xA⟩
/-- SERVO_CFG.LOCK_N (R432). -/
def SERVO_CFG_LOCK_N : Field := ⟨0x40B00100, 0, 8, .pk, 8⟩

/-- SERVO_TH.LOCK_TH (R432). -/
def SERVO_TH_LOCK_TH : Field := ⟨0x40B00104, 16, 16, .pk, 8⟩
/-- SERVO_TH.STEP_TH (R432). -/
def SERVO_TH_STEP_TH : Field := ⟨0x40B00104, 0, 16, .pk, 0x3E8⟩

/-- SERVO_HOLD.HOLD_MAX (R432). -/
def SERVO_HOLD_HOLD_MAX : Field := ⟨0x40B00108, 0, 16, .pk, 0x258⟩

/-- SERVO_STAT.STATE (R432). -/
def SERVO_STAT_STATE : Field := ⟨0x40B0010C, 30, 2, .ro, 0⟩
/-- SERVO_STAT.SOURCE (R432). -/
def SERVO_STAT_SOURCE : Field := ⟨0x40B0010C, 29, 1, .ro, 0⟩
/-- SERVO_STAT.SLEW (R432). -/
def SERVO_STAT_SLEW : Field := ⟨0x40B0010C, 1, 1, .ro, 0⟩
/-- SERVO_STAT.LOCK_SEEN (R432). -/
def SERVO_STAT_LOCK_SEEN : Field := ⟨0x40B0010C, 0, 1, .w1c, 0⟩

/-- SERVO_OFS.THETA (R432). -/
def SERVO_OFS_THETA : Field := ⟨0x40B00110, 0, 32, .ro, 0⟩

/-- SERVO_DRIFT.DRIFT (R432). -/
def SERVO_DRIFT_DRIFT : Field := ⟨0x40B00114, 0, 32, .ro, 0⟩

/-- PTP_PORT_STAT.STATE (R432). -/
def PTP_PORT_STAT_STATE (i : Nat) : Field := ⟨0x40B00010 + 0x4 * i, 28, 4, .ro, 1⟩
/-- PTP_PORT_STAT.DLY (R432). -/
def PTP_PORT_STAT_DLY (i : Nat) : Field := ⟨0x40B00010 + 0x4 * i, 0, 24, .ro, 0⟩

/-- PICOT_CFG.MODE (R433). -/
def PICOT_CFG_MODE (i : Nat) : Field := ⟨0x40C00000 + 0x20 * i, 30, 2, .sh, 0⟩
/-- PICOT_CFG.POL (R433). -/
def PICOT_CFG_POL (i : Nat) : Field := ⟨0x40C00000 + 0x20 * i, 2, 1, .pk, 0⟩
/-- PICOT_CFG.NEED_VALID (R433). -/
def PICOT_CFG_NEED_VALID (i : Nat) : Field := ⟨0x40C00000 + 0x20 * i, 1, 1, .pk, 1⟩
/-- PICOT_CFG.EVT (R433). -/
def PICOT_CFG_EVT (i : Nat) : Field := ⟨0x40C00000 + 0x20 * i, 0, 1, .pk, 0⟩

/-- PICOT_START_SEC.SEC (R433). -/
def PICOT_START_SEC_SEC (i : Nat) : Field := ⟨0x40C00004 + 0x20 * i, 0, 32, .sh, 0⟩

/-- PICOT_START_NS.NS (R433). -/
def PICOT_START_NS_NS (i : Nat) : Field := ⟨0x40C00008 + 0x20 * i, 0, 30, .sh, 0⟩

/-- PICOT_WIDTH.WIDTH (R433). -/
def PICOT_WIDTH_WIDTH (i : Nat) : Field := ⟨0x40C0000C + 0x20 * i, 0, 32, .sh, 1⟩

/-- PICOT_PER.PER (R433). -/
def PICOT_PER_PER (i : Nat) : Field := ⟨0x40C00010 + 0x20 * i, 0, 32, .sh, 0x1DCD6500⟩

/-- PICOT_STAT.ACTIVE (R433). -/
def PICOT_STAT_ACTIVE (i : Nat) : Field := ⟨0x40C00014 + 0x20 * i, 31, 1, .ro, 0⟩
/-- PICOT_STAT.BAD (R433). -/
def PICOT_STAT_BAD (i : Nat) : Field := ⟨0x40C00014 + 0x20 * i, 2, 1, .w1c, 0⟩
/-- PICOT_STAT.PAST (R433). -/
def PICOT_STAT_PAST (i : Nat) : Field := ⟨0x40C00014 + 0x20 * i, 1, 1, .w1c, 0⟩

/-- AVS_CFG.S_HI (R452). -/
def AVS_CFG_S_HI (i : Nat) : Field := ⟨0x5000D000 + 0x40 * i, 16, 7, .pk, 0x18⟩
/-- AVS_CFG.S_LO (R452). -/
def AVS_CFG_S_LO (i : Nat) : Field := ⟨0x5000D000 + 0x40 * i, 8, 7, .pk, 0xC⟩
/-- AVS_CFG.S_CRIT (R452). -/
def AVS_CFG_S_CRIT (i : Nat) : Field := ⟨0x5000D000 + 0x40 * i, 0, 7, .pk, 4⟩

/-- AVS_STAT.VREQ (R452). -/
def AVS_STAT_VREQ (i : Nat) : Field := ⟨0x5000D004 + 0x40 * i, 24, 6, .ro, 0x24⟩
/-- AVS_STAT.VACK (R452). -/
def AVS_STAT_VACK (i : Nat) : Field := ⟨0x5000D004 + 0x40 * i, 16, 6, .ro, 0x24⟩
/-- AVS_STAT.S_MIN (R452). -/
def AVS_STAT_S_MIN (i : Nat) : Field := ⟨0x5000D004 + 0x40 * i, 8, 7, .ro, 0⟩
/-- AVS_STAT.AT_HI (R452). -/
def AVS_STAT_AT_HI (i : Nat) : Field := ⟨0x5000D004 + 0x40 * i, 6, 1, .ro, 0⟩
/-- AVS_STAT.AT_LO (R452). -/
def AVS_STAT_AT_LO (i : Nat) : Field := ⟨0x5000D004 + 0x40 * i, 5, 1, .ro, 0⟩
/-- AVS_STAT.FREQ_LIM (R452). -/
def AVS_STAT_FREQ_LIM (i : Nat) : Field := ⟨0x5000D004 + 0x40 * i, 3, 1, .w1c, 0⟩
/-- AVS_STAT.AVS_LOST (R452). -/
def AVS_STAT_AVS_LOST (i : Nat) : Field := ⟨0x5000D004 + 0x40 * i, 2, 1, .w1c, 0⟩
/-- AVS_STAT.EMERG (R452). -/
def AVS_STAT_EMERG (i : Nat) : Field := ⟨0x5000D004 + 0x40 * i, 1, 1, .w1c, 0⟩
/-- AVS_STAT.REGION_FAULT (R452). -/
def AVS_STAT_REGION_FAULT (i : Nat) : Field := ⟨0x5000D004 + 0x40 * i, 0, 1, .w1c, 0⟩

/-- AVS_FREQ.TCAP (R452). -/
def AVS_FREQ_TCAP (i : Nat) : Field := ⟨0x5000D008 + 0x40 * i, 16, 4, .ro, 8⟩
/-- AVS_FREQ.FCAP (R452). -/
def AVS_FREQ_FCAP (i : Nat) : Field := ⟨0x5000D008 + 0x40 * i, 8, 4, .ro, 8⟩
/-- AVS_FREQ.CUR (R452). -/
def AVS_FREQ_CUR (i : Nat) : Field := ⟨0x5000D008 + 0x40 * i, 4, 4, .ro, 4⟩
/-- AVS_FREQ.REQ (R452). -/
def AVS_FREQ_REQ (i : Nat) : Field := ⟨0x5000D008 + 0x40 * i, 0, 4, .rw, 4⟩

/-- THM_CFG.T_HOT (R453). -/
def THM_CFG_T_HOT : Field := ⟨0x5000D100, 24, 8, .pk, 0x6E⟩
/-- THM_CFG.T_WARN (R453). -/
def THM_CFG_T_WARN : Field := ⟨0x5000D100, 16, 8, .pk, 0x64⟩
/-- THM_CFG.FCAP_WARN (R453). -/
def THM_CFG_FCAP_WARN : Field := ⟨0x5000D100, 0, 4, .pk, 4⟩

/-- THM_STAT.HOT_B (R453). -/
def THM_STAT_HOT_B : Field := ⟨0x5000D104, 3, 1, .w1c, 0⟩
/-- THM_STAT.HOT_A (R453). -/
def THM_STAT_HOT_A : Field := ⟨0x5000D104, 2, 1, .w1c, 0⟩
/-- THM_STAT.WARN_B (R453). -/
def THM_STAT_WARN_B : Field := ⟨0x5000D104, 1, 1, .w1c, 0⟩
/-- THM_STAT.WARN_A (R453). -/
def THM_STAT_WARN_A : Field := ⟨0x5000D104, 0, 1, .w1c, 0⟩

/-- PL_CFG.EN (R453). -/
def PL_CFG_EN : Field := ⟨0x5000D200, 31, 1, .pk, 1⟩
/-- PL_CFG.BUDGET (R453). -/
def PL_CFG_BUDGET : Field := ⟨0x5000D200, 16, 7, .pk, 0x46⟩
/-- PL_CFG.DT (R453). -/
def PL_CFG_DT : Field := ⟨0x5000D200, 8, 8, .pk, 8⟩
/-- PL_CFG.DWELL (R453). -/
def PL_CFG_DWELL : Field := ⟨0x5000D200, 0, 8, .pk, 0xA⟩

/-- PL_MAP.SUBST (R453). -/
def PL_MAP_SUBST : Field := ⟨0x5000D204, 9, 1, .ro, 0⟩
/-- PL_MAP.SPARE_USED (R453). -/
def PL_MAP_SPARE_USED : Field := ⟨0x5000D204, 8, 1, .ro, 0⟩
/-- PL_MAP.PHYS (R453). -/
def PL_MAP_PHYS : Field := ⟨0x5000D204, 0, 8, .ro, 0xE4⟩

/-- IOD_TEMP_LO.T1 (R453). -/
def IOD_TEMP_LO_T1 : Field := ⟨0x40F00010, 16, 16, .ro, 0⟩
/-- IOD_TEMP_LO.T0 (R453). -/
def IOD_TEMP_LO_T0 : Field := ⟨0x40F00010, 0, 16, .ro, 0⟩

/-- IOD_TEMP_HI.T3 (R453). -/
def IOD_TEMP_HI_T3 : Field := ⟨0x40F00014, 16, 16, .ro, 0⟩
/-- IOD_TEMP_HI.T2 (R453). -/
def IOD_TEMP_HI_T2 : Field := ⟨0x40F00014, 0, 16, .ro, 0⟩

/-- THM_TEMP.T (R453). -/
def THM_TEMP_T (i : Nat) : Field := ⟨0x5000D110 + 0x4 * i, 0, 16, .ro, 0⟩

/-- RED_CFG.DISC_LIMIT (R482). -/
def RED_CFG_DISC_LIMIT : Field := ⟨0x40D00000, 24, 8, .pk, 8⟩
/-- RED_CFG.REJOIN_MAX (R482). -/
def RED_CFG_REJOIN_MAX : Field := ⟨0x40D00000, 20, 4, .pk, 2⟩
/-- RED_CFG.PMISS_LIMIT (R482). -/
def RED_CFG_PMISS_LIMIT : Field := ⟨0x40D00000, 16, 4, .pk, 3⟩
/-- RED_CFG.SHED_CLASS (R482). -/
def RED_CFG_SHED_CLASS : Field := ⟨0x40D00000, 8, 3, .pk, 3⟩

/-- RED_SUBST.MASK (R482). -/
def RED_SUBST_MASK : Field := ⟨0x40D00004, 0, 16, .pk, 0xFFFF⟩

/-- RED_COUCH.T_START (R482). -/
def RED_COUCH_T_START : Field := ⟨0x40D00020, 0, 19, .pk, 0xFA0⟩

/-- RED_GRADE.SPARES1 (R482). -/
def RED_GRADE_SPARES1 : Field := ⟨0x40D00050, 20, 3, .ro, 0⟩
/-- RED_GRADE.SPARES0 (R482). -/
def RED_GRADE_SPARES0 : Field := ⟨0x40D00050, 16, 3, .ro, 0⟩
/-- RED_GRADE.CAUSE (R482). -/
def RED_GRADE_CAUSE : Field := ⟨0x40D00050, 8, 8, .ro, 0⟩
/-- RED_GRADE.REPLACE (R482). -/
def RED_GRADE_REPLACE : Field := ⟨0x40D00050, 3, 1, .ro, 0⟩
/-- RED_GRADE.GRADE (R482). -/
def RED_GRADE_GRADE : Field := ⟨0x40D00050, 0, 3, .ro, 0⟩

/-- RED_DISC_STAT.SET (R482). -/
def RED_DISC_STAT_SET : Field := ⟨0x40D00054, 20, 12, .ro, 0⟩
/-- RED_DISC_STAT.WORD (R482). -/
def RED_DISC_STAT_WORD : Field := ⟨0x40D00054, 12, 8, .ro, 0⟩
/-- RED_DISC_STAT.PMISS (R482). -/
def RED_DISC_STAT_PMISS : Field := ⟨0x40D00054, 8, 4, .ro, 0⟩
/-- RED_DISC_STAT.KIND (R482). -/
def RED_DISC_STAT_KIND : Field := ⟨0x40D00054, 2, 2, .ro, 0⟩
/-- RED_DISC_STAT.AT_LIMIT (R482). -/
def RED_DISC_STAT_AT_LIMIT : Field := ⟨0x40D00054, 1, 1, .ro, 0⟩
/-- RED_DISC_STAT.DISCORD (R482). -/
def RED_DISC_STAT_DISCORD : Field := ⟨0x40D00054, 0, 1, .w1c, 0⟩

/-- RED_DISC_CNT.COUNT (R482). -/
def RED_DISC_CNT_COUNT : Field := ⟨0x40D00058, 0, 32, .ro, 0⟩

/-- RED_CNT_CLR.DISC (R482). -/
def RED_CNT_CLR_DISC : Field := ⟨0x40D0005C, 0, 1, .wo, 0⟩

/-- RED_COUCH_STAT.COUCH_UE (R482). -/
def RED_COUCH_STAT_COUCH_UE : Field := ⟨0x40D00060, 3, 1, .w1c, 0⟩
/-- RED_COUCH_STAT.COUCH_ABORT (R482). -/
def RED_COUCH_STAT_COUCH_ABORT : Field := ⟨0x40D00060, 2, 1, .w1c, 0⟩
/-- RED_COUCH_STAT.COUCH_LATE (R482). -/
def RED_COUCH_STAT_COUCH_LATE : Field := ⟨0x40D00060, 1, 1, .w1c, 0⟩
/-- RED_COUCH_STAT.FIX_SAT (R482). -/
def RED_COUCH_STAT_FIX_SAT : Field := ⟨0x40D00060, 0, 1, .w1c, 0⟩

/-- RED_COUCH_FIX.COUNT (R482). -/
def RED_COUCH_FIX_COUNT : Field := ⟨0x40D00064, 0, 32, .ro, 0⟩

/-- RED_DISC_WIN.LSB (R482). -/
def RED_DISC_WIN_LSB (i : Nat) : Field := ⟨0x40D00010 + 0x4 * i, 0, 16, .pk, 0⟩

/-- RED_DIE.STATE (R482). -/
def RED_DIE_STATE (i : Nat) : Field := ⟨0x40D00040 + 0x4 * i, 29, 3, .ro, 0⟩
/-- RED_DIE.WORKER (R482). -/
def RED_DIE_WORKER (i : Nat) : Field := ⟨0x40D00040 + 0x4 * i, 28, 1, .ro, 0⟩
/-- RED_DIE.REJOINS (R482). -/
def RED_DIE_REJOINS (i : Nat) : Field := ⟨0x40D00040 + 0x4 * i, 24, 4, .ro, 0⟩
/-- RED_DIE.CAUSE (R482). -/
def RED_DIE_CAUSE (i : Nat) : Field := ⟨0x40D00040 + 0x4 * i, 8, 8, .ro, 0⟩
/-- RED_DIE.FAULT (R482). -/
def RED_DIE_FAULT (i : Nat) : Field := ⟨0x40D00040 + 0x4 * i, 0, 1, .w1c, 0⟩

/-- MEM_SPARE.USED (R483). -/
def MEM_SPARE_USED (i : Nat) : Field := ⟨0x50007008 + 0x10 * i, 31, 1, .ro, 0⟩
/-- MEM_SPARE.COPYING (R483). -/
def MEM_SPARE_COPYING (i : Nat) : Field := ⟨0x50007008 + 0x10 * i, 30, 1, .ro, 0⟩
/-- MEM_SPARE.NO_SPARE (R483). -/
def MEM_SPARE_NO_SPARE (i : Nat) : Field := ⟨0x50007008 + 0x10 * i, 29, 1, .w1c, 0⟩
/-- MEM_SPARE.BANK (R483). -/
def MEM_SPARE_BANK (i : Nat) : Field := ⟨0x50007008 + 0x10 * i, 0, 4, .ro, 0⟩

/-- MEM_SPARE_CFG.CE_LIM (R483). -/
def MEM_SPARE_CFG_CE_LIM : Field := ⟨0x50007020, 0, 16, .pk, 0x40⟩

/-- MEM_BANK_CE.COUNT (R483). -/
def MEM_BANK_CE_COUNT (i : Nat) (j : Nat) : Field := ⟨0x50007100 + 0x40 * i + 0x4 * j, 0, 16, .ro, 0⟩

/-- LOG_LOST.COUNT (R483). -/
def LOG_LOST_COUNT : Field := ⟨0x5000E000, 0, 32, .ro, 0⟩

/-- LOG_STAT.SAT (R483). -/
def LOG_STAT_SAT : Field := ⟨0x5000E004, 0, 1, .w1c, 0⟩

/-- Register words, part 0. -/
def table0 : List RegSpec := [
  ⟨0x50000000, [], [SYS_CHIP_ID_TYPE, SYS_CHIP_ID_CTL_MAJ, SYS_CHIP_ID_CTL_MIN, SYS_CHIP_ID_IOD_MAJ, SYS_CHIP_ID_IOD_MIN, SYS_CHIP_ID_ES]⟩,
  ⟨0x50000004, [], [SYS_UID_LO_UID]⟩,
  ⟨0x50000008, [], [SYS_UID_HI_UID]⟩,
  ⟨0x50000010, [], [SYS_NODE_ROLE, SYS_NODE_ARM, SYS_NODE_PARENT, SYS_NODE_NODE_ID]⟩,
  ⟨0x50000014, [], [SYS_TOPO_CELLS, SYS_TOPO_ARMS, SYS_TOPO_SM_COUNT]⟩,
  ⟨0x50000018, [], [SYS_STRAP_TEST_EN, SYS_STRAP_OPEN, SYS_STRAP_SAMPLE_DN, SYS_STRAP_SAMPLE_UP]⟩,
  ⟨0x40F00000, [], [IOD_PAD_CFG_PICOT_SLOW, IOD_PAD_CFG_CH_SN_TERM, IOD_PAD_CFG_CH_DRIVE]⟩,
  ⟨0x40F00004, [], [IOD_RAIL_STAT_UVS_VDDA18, IOD_RAIL_STAT_UVS_VDDH_SER, IOD_RAIL_STAT_UVS_VDDA_SER, IOD_RAIL_STAT_UVS_VDD33_CH, IOD_RAIL_STAT_UVS_VDD18, IOD_RAIL_STAT_UVS_VDD_IOD, IOD_RAIL_STAT_UV_NOW]⟩,
  ⟨0x40100000, [], [TB_PERIOD_CP]⟩,
  ⟨0x40100004, [], [TB_GUARD_GUARD]⟩,
  ⟨0x40100008, [], [TB_TIME_SEC_HI_SEC]⟩,
  ⟨0x4010000C, [], [TB_TIME_SEC_LO_SEC]⟩,
  ⟨0x40100010, [], [TB_TIME_NS_NS]⟩,
  ⟨0x40100014, [], [TB_TIME_FRAC_FRAC]⟩,
  ⟨0x40100018, [], [TB_PERIOD_NUM_K]⟩,
  ⟨0x4010001C, [], [TB_ADDEND_HI_NS]⟩,
  ⟨0x40100020, [], [TB_ADDEND_LO_FRAC]⟩,
  ⟨0x40100024, [], [TB_STAT_STEP_REFUSED, TB_STAT_TIME_VALID, TB_STAT_PLL_LOCK, TB_STAT_XTAL_LOST, TB_STAT_SHORT, TB_STAT_MISS]⟩,
  ⟨0x40100028, [], [TB_MISS_CNT_COUNT]⟩,
  ⟨0x4010002C, [], [TB_MISS_SAT_SAT]⟩,
  ⟨0x50000100, [], [BOOT_STAT_PHASE, BOOT_STAT_MAINT, BOOT_STAT_COPY, BOOT_STAT_FW_SLOT, BOOT_STAT_WORKER, BOOT_STAT_UNSIGNED]⟩,
  ⟨0x50000104, [(0x4, 2)], [BOOT_COPY_STAT_FAIL_OFFSET 0, BOOT_COPY_STAT_RESULT 0]⟩,
  ⟨0x5000010C, [(0x4, 2)], [BOOT_SEQ_SEQ 0]⟩,
  ⟨0x50000114, [], [BOOT_STAT_SEQ_SEQ]⟩]

/-- Register words, part 1. -/
def table1 : List RegSpec := [
  ⟨0x50000118, [], [BOOT_READY_TIME_US]⟩,
  ⟨0x70010000, [], [SEC_FUSE_CFG_KEY_REVOKED, SEC_FUSE_CFG_KEY_PRESENT, SEC_FUSE_CFG_FW_SIGN, SEC_FUSE_CFG_PRICK_SIGN]⟩,
  ⟨0x70010100, [(0x20, 4), (0x4, 8)], [SEC_KEY_DIGEST_D 0 0]⟩,
  ⟨0x50000120, [(0x4, 2)], [FW_SLOT_STAT_RESULT 0, FW_SLOT_STAT_STATE 0, FW_SLOT_STAT_ATTEMPTS 0, FW_SLOT_STAT_REVERT 0, FW_SLOT_STAT_RUNNING 0]⟩,
  ⟨0x50000128, [(0x4, 2)], [FW_VERSION_VERSION 0]⟩,
  ⟨0x50000130, [], [FW_FALLBACK_KEY]⟩,
  ⟨0x50001000, [], [CORE_CLUSTER_CFG_SPARE]⟩,
  ⟨0x50001004, [], [CORE_RESTART_VECTOR]⟩,
  ⟨0x50002000, [(0x100, 4)], [BOB_CFG_RUN_LIMIT 0, BOB_CFG_TICK 0]⟩,
  ⟨0x50004000, [(0x200, 4), (0x4, 128)], [BOB_DESC_VALID 0 0, BOB_DESC_CORES 0 0, BOB_DESC_PRIO 0 0]⟩,
  ⟨0x50003000, [(0x4, 256)], [EVC_ROUTE_EN 0, EVC_ROUTE_CLUSTER 0, EVC_ROUTE_DESC 0]⟩,
  ⟨0x50005000, [(0x4, 2)], [LOCK_HELD_MAP 0]⟩,
  ⟨0x50005008, [(0x4, 2)], [LOCK_BROKEN_MAP 0]⟩,
  ⟨0x50006000, [(0x10, 12)], [CORE_FAULT_REC0_CAUSE 0, CORE_FAULT_REC0_COUNT 0]⟩,
  ⟨0x50006004, [(0x10, 12)], [CORE_FAULT_REC1_EPC 0]⟩,
  ⟨0x50006008, [(0x10, 12)], [CORE_FAULT_REC2_TVAL 0]⟩,
  ⟨0x5000600C, [(0x10, 12)], [CORE_FAULT_REC3_TASK 0]⟩,
  ⟨0x50007000, [(0x10, 2)], [MEM_ECC_CE_CNT_COUNT 0]⟩,
  ⟨0x50007004, [(0x10, 2)], [MEM_ECC_STAT_SAT 0, MEM_ECC_STAT_UE 0, MEM_ECC_STAT_UE_ADDR 0]⟩,
  ⟨0x50008000, [], [GND_CFG_WAIT_CAP, GND_CFG_SEED]⟩,
  ⟨0x50008004, [], [GND_PREEMPT_LO_MODE]⟩,
  ⟨0x50008008, [], [GND_PREEMPT_HI_MODE]⟩,
  ⟨0x50008010, [(0x10, 4), (0x4, 4)], [GND_BULK_DESC_BULK 0 0]⟩,
  ⟨0x50008100, [(0x4, 24)], [GND_TKT_CTL 0, GND_TKT_BLK 0]⟩]

/-- Register words, part 2. -/
def table2 : List RegSpec := [
  ⟨0x50008200, [(0x10, 24)], [GND_GRANT_CNT_COUNT 0]⟩,
  ⟨0x50008204, [(0x10, 24)], [GND_WAIT_CNT_COUNT 0]⟩,
  ⟨0x50008208, [(0x10, 24)], [GND_LONGEST_COUNT 0]⟩,
  ⟨0x5000820C, [(0x10, 24)], [GND_CNT_STAT_GRANT_SAT 0, GND_CNT_STAT_WAIT_SAT 0, GND_CNT_STAT_WRAPS 0]⟩,
  ⟨0x50008400, [], [GND_LONG_CLR_CLR]⟩,
  ⟨0x40200000, [(0x20, 144)], [MEAS_CFG_EN 0, MEAS_CFG_RATIO 0, MEAS_CFG_FIR_EN 0, MEAS_CFG_FIR_SET 0, MEAS_CFG_OW 0, MEAS_CFG_AUX_KIND 0, MEAS_CFG_TSRC 0, MEAS_CFG_LOSS_LIMIT 0]⟩,
  ⟨0x40200004, [(0x20, 144)], [MEAS_GAIN_GAIN 0]⟩,
  ⟨0x40200008, [(0x20, 144)], [MEAS_OFS_OFS 0]⟩,
  ⟨0x4020000C, [(0x20, 144)], [MEAS_TC_TREF 0, MEAS_TC_TC 0]⟩,
  ⟨0x40200010, [(0x20, 144)], [MEAS_TRIM_AT_LIMIT 0, MEAS_TRIM_TRIM 0]⟩,
  ⟨0x40200014, [(0x20, 144)], [MEAS_FREEZE_FREEZE_COUNT 0, MEAS_FREEZE_FREEZE_BAND 0]⟩,
  ⟨0x40200018, [(0x20, 144)], [MEAS_FP_EN 0, MEAS_FP_FILT 0, MEAS_FP_OV_TH 0, MEAS_FP_UV_TH 0]⟩,
  ⟨0x4020001C, [(0x20, 144)], [MEAS_FLAG_VALID 0, MEAS_FLAG_RX_STATE 0, MEAS_FLAG_DASH 0, MEAS_FLAG_LOST 0, MEAS_FLAG_BADFRAME 0, MEAS_FLAG_OVL 0, MEAS_FLAG_OPEN 0, MEAS_FLAG_FROZEN 0, MEAS_FLAG_SAT 0, MEAS_FLAG_CAL_FAIL 0, MEAS_FLAG_ECHO_OVF 0, MEAS_FLAG_FP_OV 0, MEAS_FLAG_FP_UV 0, MEAS_FLAG_GU_STATUS 0]⟩,
  ⟨0x40202000, [(0x4, 144)], [MEAS_VAL_Y 0]⟩,
  ⟨0x40203000, [(0x8, 144)], [MEAS_SNAP0_Y 0]⟩,
  ⟨0x40203004, [(0x8, 144)], [MEAS_SNAP1_AGE 0, MEAS_SNAP1_GU_STATUS 0, MEAS_SNAP1_FLAGS 0]⟩,
  ⟨0x40203480, [], [MEAS_SNAP_K_K]⟩,
  ⟨0x40204000, [(0x4, 128)], [MEAS_AUX_X 0, MEAS_AUX_VALID 0]⟩,
  ⟨0x40205000, [(0x10, 128), (0x4, 4)], [MEAS_ECHO_PERIOD 0 0, MEAS_ECHO_DEFER 0 0, MEAS_ECHO_OFFSET 0 0]⟩,
  ⟨0x40206000, [(0x8, 16)], [MEAS_SCAL0_CORR 0]⟩,
  ⟨0x40206004, [(0x8, 16)], [MEAS_SCAL1_Z 0]⟩,
  ⟨0x40206080, [], [MEAS_REF_CODE]⟩,
  ⟨0x40206084, [], [MEAS_CAL_REQ_REQ]⟩,
  ⟨0x40206088, [], [MEAS_CAL_PERIOD_SEC]⟩]

/-- Register words, part 3. -/
def table3 : List RegSpec := [
  ⟨0x4020608C, [], [MEAS_LOCAL_EVT_CH]⟩,
  ⟨0x40207000, [(0x10, 8)], [MEAS_INJ_CFG_EN 0, MEAS_INJ_CFG_CH 0, MEAS_INJ_CFG_SRC_CH 0, MEAS_INJ_CFG_SRC 0, MEAS_INJ_CFG_FNOM 0, MEAS_INJ_CFG_PICOT_EN 0, MEAS_INJ_CFG_PICOT 0]⟩,
  ⟨0x40207004, [(0x10, 8)], [MEAS_INJ_TRIG_GO 0]⟩,
  ⟨0x40207008, [(0x10, 8)], [MEAS_INJ_RES_WORD 0]⟩,
  ⟨0x4020700C, [(0x10, 8)], [MEAS_INJ_STAT_OVERRUN 0, MEAS_INJ_STAT_STATE 0, MEAS_INJ_STAT_N 0]⟩,
  ⟨0x40208000, [(0x40, 4), (0x4, 16)], [MEAS_FIR_C 0 0]⟩,
  ⟨0x40209000, [(0x8, 128)], [MEAS_BAD_CNT_COUNT 0]⟩,
  ⟨0x40209004, [(0x8, 128)], [MEAS_BAD_STAT_SAT 0]⟩,
  ⟨0x50009000, [(0x100, 4)], [CLE_CFG_EN 0, CLE_CFG_ENTRY 0, CLE_CFG_DONE_EN 0, CLE_CFG_DONE_DESC 0, CLE_CFG_MISS_LIMIT 0]⟩,
  ⟨0x50009004, [(0x100, 4)], [CLE_STAT_STATE 0, CLE_STAT_MISS_RUN 0, CLE_STAT_MISS_LIM 0, CLE_STAT_WB_SAT 0, CLE_STAT_ACC_OVF 0, CLE_STAT_FAULT 0, CLE_STAT_OVERRUN 0, CLE_STAT_MISS 0, CLE_STAT_PM_WRITE 0, CLE_STAT_PRE_SHORT 0]⟩,
  ⟨0x50009008, [(0x100, 4)], [CLE_RUN_LAST_NS 0]⟩,
  ⟨0x5000900C, [(0x100, 4)], [CLE_RUN_MAX_CLR 0, CLE_RUN_MAX_NS 0]⟩,
  ⟨0x50009010, [(0x100, 4)], [CLE_FAULT_REC_COUNT 0, CLE_FAULT_REC_PC 0, CLE_FAULT_REC_CAUSE 0]⟩,
  ⟨0x50009014, [(0x100, 4)], [CLE_FAULT_K_K 0]⟩,
  ⟨0x50009018, [(0x100, 4)], [CLE_PC_REC_OVF_PC 0, CLE_PC_REC_SAT_PC 0]⟩,
  ⟨0x5000901C, [(0x100, 4)], [CLE_MISS_CNT_COUNT 0]⟩,
  ⟨0x50009020, [(0x100, 4)], [CLE_MISS_SAT_SAT 0]⟩,
  ⟨0x5000A000, [(0x800, 4), (0x40, 32)], [LOOP_CFG_EN 0 0, LOOP_CFG_REF 0 0, LOOP_CFG_MEAS 0 0]⟩,
  ⟨0x5000A004, [(0x800, 4), (0x40, 32)], [LOOP_WORDS_OUT 0 0, LOOP_WORDS_EST 0 0]⟩,
  ⟨0x5000A008, [(0x800, 4), (0x40, 32)], [LOOP_SRC_KIND 0 0, LOOP_SRC_FRZ_EN 0 0, LOOP_SRC_INDEX 0 0]⟩,
  ⟨0x5000A00C, [(0x800, 4), (0x40, 32)], [LOOP_LIM_LIMIT 0 0]⟩,
  ⟨0x5000A010, [(0x800, 4), (0x40, 32)], [LOOP_TIME_TIMER 0 0, LOOP_TIME_T_HOLD 0 0]⟩,
  ⟨0x5000A014, [(0x800, 4), (0x40, 32)], [LOOP_ACT_TRIP_MASK 0 0, LOOP_ACT_RAMP_LOG2 0 0, LOOP_ACT_ENDING 0 0, LOOP_ACT_ACTION 0 0]⟩,
  ⟨0x5000A018, [(0x800, 4), (0x40, 32)], [LOOP_CTL_RELEASE 0 0, LOOP_CTL_MODE 0 0]⟩]

/-- Register words, part 4. -/
def table4 : List RegSpec := [
  ⟨0x5000A01C, [(0x800, 4), (0x40, 32)], [LOOP_STAT_STATE 0 0, LOOP_STAT_MODE 0 0, LOOP_STAT_FIRST 0 0, LOOP_STAT_RAMP_J 0 0, LOOP_STAT_SAT 0 0, LOOP_STAT_LIM_HI 0 0, LOOP_STAT_LIM_LO 0 0, LOOP_STAT_ACC_OVF 0 0, LOOP_STAT_PRE_SHORT 0 0, LOOP_STAT_FE 0 0, LOOP_STAT_FB_LOSS 0 0, LOOP_STAT_REL_REFUSED 0 0, LOOP_STAT_MISS_END 0 0]⟩,
  ⟨0x5000A020, [(0x800, 4), (0x40, 32)], [LOOP_CNT_FE_CNT 0 0, LOOP_CNT_SUB_CNT 0 0]⟩,
  ⟨0x5000A024, [(0x800, 4), (0x40, 32)], [LOOP_Y_YIN 0 0]⟩,
  ⟨0x5000A028, [(0x800, 4), (0x40, 32)], [LOOP_YAPP_Y 0 0]⟩,
  ⟨0x5000A02C, [(0x800, 4), (0x40, 32)], [LOOP_YFROM_Y 0 0]⟩,
  ⟨0x40300000, [(0x400, 4), (0x4, 256)], [CLE_OUT_Y 0 0]⟩,
  ⟨0x40301000, [(0x400, 4), (0x4, 256)], [CLE_OUTA_Y 0 0]⟩,
  ⟨0x5000C000, [], [BAL_CFG_EN, BAL_CFG_MISS_LIMIT, BAL_CFG_TRIP_MASK]⟩,
  ⟨0x5000C004, [], [BAL_TSORT_T_SORT]⟩,
  ⟨0x5000C008, [], [BAL_TSEL_T_SEL]⟩,
  ⟨0x5000C00C, [], [BAL_KEY_BASE, BAL_KEY_SHIFT]⟩,
  ⟨0x5000C010, [], [BAL_HYST0_H_MIN, BAL_HYST0_H_MAX]⟩,
  ⟨0x5000C014, [], [BAL_HYST1_STEP, BAL_HYST1_WIN_LOG2, BAL_HYST1_CEIL]⟩,
  ⟨0x5000C018, [], [BAL_HLT_CFG_K_MAD, BAL_HLT_CFG_ALPHA, BAL_HLT_CFG_DV_MIN]⟩,
  ⟨0x5000C01C, [], [BAL_HLT_KC_KC]⟩,
  ⟨0x5000C020, [], [BAL_HLT_IMIN_I_MIN]⟩,
  ⟨0x5000C024, [], [BAL_STAT_SIGMA, BAL_STAT_POL, BAL_STAT_MISS_RUN, BAL_STAT_E, BAL_STAT_REINST_REFUSED, BAL_STAT_POP_SMALL, BAL_STAT_HEALTH, BAL_STAT_HYST_LIM, BAL_STAT_CEIL_FORCED, BAL_STAT_THR_BAD, BAL_STAT_MISS_LIM, BAL_STAT_MISS, BAL_STAT_HOLD_RX]⟩,
  ⟨0x5000C028, [], [BAL_THR_K, BAL_THR_TIE, BAL_THR_FLAGS]⟩,
  ⟨0x5000C400, [(0x4, 128)], [BAL_CH_EXCL 0, BAL_CH_INS 0, BAL_CH_PIN 0, BAL_CH_REINSTATE 0, BAL_CH_CHANGES 0, BAL_CH_H 0]⟩,
  ⟨0x5000C100, [(0x20, 6)], [BAL_ARM_CFG_EN 0, BAL_ARM_CFG_FB 0, BAL_ARM_CFG_N_MAX 0, BAL_ARM_CFG_N_MIN 0]⟩,
  ⟨0x5000C104, [(0x20, 6)], [BAL_ARM_SRC_CLE 0, BAL_ARM_SRC_V_WORD 0, BAL_ARM_SRC_I_WORD 0]⟩,
  ⟨0x5000C108, [(0x20, 6)], [BAL_ARM_RATIO_RATIO 0]⟩,
  ⟨0x5000C10C, [(0x20, 6)], [BAL_ARM_QS_LMISS_LIMIT 0, BAL_ARM_QS_Q_START 0]⟩,
  ⟨0x5000C110, [(0x20, 6)], [BAL_ARM_SIGN_SIGN_BAND 0]⟩]

/-- Register words, part 5. -/
def table5 : List RegSpec := [
  ⟨0x5000C114, [(0x20, 6)], [BAL_ARM_Q_N 0, BAL_ARM_Q_ERR 0]⟩,
  ⟨0x5000C118, [(0x20, 6)], [BAL_ARM_STAT_E_TOT 0, BAL_ARM_STAT_CELLS 0, BAL_ARM_STAT_COUNT_SLIP 0, BAL_ARM_STAT_LADDER_BAD 0, BAL_ARM_STAT_LADDER_MISS 0, BAL_ARM_STAT_HOLD_SENT 0, BAL_ARM_STAT_Q_CLAMP 0]⟩,
  ⟨0x5000C11C, [(0x20, 6)], [BAL_ARM_K_K 0, BAL_ARM_K_M 0]⟩,
  ⟨0x40400000, [(0x20, 128)], [GEN_CH_CFG_MODE 0, GEN_CH_CFG_FB 0, GEN_CH_CFG_ADAPT 0, GEN_CH_CFG_STAGGER 0]⟩,
  ⟨0x40400004, [(0x20, 128)], [GEN_RISE_RISE 0]⟩,
  ⟨0x40400008, [(0x20, 128)], [GEN_FALL_FALL 0]⟩,
  ⟨0x4040000C, [(0x20, 128)], [GEN_RISE_ACT_AT_HI 0, GEN_RISE_ACT_AT_LO 0, GEN_RISE_ACT_RISE 0]⟩,
  ⟨0x40400010, [(0x20, 128)], [GEN_DT_BND_RISE_HI 0, GEN_DT_BND_RISE_LO 0]⟩,
  ⟨0x40400014, [(0x20, 128)], [GEN_CMD_ACT 0, GEN_CMD_CMD 0]⟩,
  ⟨0x40400018, [(0x20, 128)], [GEN_CAR_CLE 0, GEN_CAR_WORD 0]⟩,
  ⟨0x4040001C, [(0x20, 128)], [GEN_CAR_PH_PHASE 0]⟩,
  ⟨0x40410000, [(0x8, 128)], [GEN_STAT_FENCE 0, GEN_STAT_CH_FAULT 0, GEN_STAT_TMR_ERR 0, GEN_STAT_DIS_REFUSED 0, GEN_STAT_NO_ECHO 0, GEN_STAT_PW_CLAMP 0, GEN_STAT_PULSE_CUT 0, GEN_STAT_CMD_BAD 0]⟩,
  ⟨0x40410004, [(0x8, 128)], [GEN_ECHO_E_MAX 0, GEN_ECHO_E_LAST 0]⟩,
  ⟨0x40420000, [], [GEN_CAR_CFG_SRC, GEN_CAR_CFG_SYNC_OUT, GEN_CAR_CFG_P]⟩,
  ⟨0x40420004, [], [GEN_SYNC_COMP, GEN_SYNC_MISS_LIMIT, GEN_SYNC_WIN]⟩,
  ⟨0x40420008, [], [GEN_MINPW_MIN_PW]⟩,
  ⟨0x4042000C, [], [GEN_ADAPT_ECHO_WIN, GEN_ADAPT_DT_LOG2, GEN_ADAPT_STEP, GEN_ADAPT_MARGIN]⟩,
  ⟨0x40420010, [(0x4, 4)], [GEN_DIS_DIS 0]⟩,
  ⟨0x40420020, [], [GEN_SYNC_STAT_TRACK, GEN_SYNC_STAT_MISS, GEN_SYNC_STAT_SLIP, GEN_SYNC_STAT_LOST]⟩,
  ⟨0x40420024, [], [GEN_CYCLE_J]⟩,
  ⟨0x40500000, [], [TRIP_IN_CFG_POL, TRIP_IN_CFG_EN]⟩,
  ⟨0x40500010, [(0x4, 8)], [TRIP_IN_MASK_MASK 0]⟩,
  ⟨0x40500030, [], [TRIP_BOS_CFG_SEND, TRIP_BOS_CFG_MASK]⟩,
  ⟨0x40500034, [], [TRIP_BOS_FWD_LANES]⟩]

/-- Register words, part 6. -/
def table6 : List RegSpec := [
  ⟨0x40500038, [], [TRIP_BOS_TX_LANES]⟩,
  ⟨0x40500040, [], [TRIP_FW_SET_GROUPS]⟩,
  ⟨0x40500044, [], [TRIP_FW_CLR_GROUPS]⟩,
  ⟨0x40500048, [], [TRIP_FW_ACT_GROUPS]⟩,
  ⟨0x4050004C, [], [TRIP_CLR_GROUPS]⟩,
  ⟨0x40500050, [], [TRIP_STATE_ASSERTED]⟩,
  ⟨0x40500054, [], [TRIP_SRC_ACT_ACT]⟩,
  ⟨0x40500058, [], [TRIP_REC_WP_IDX]⟩,
  ⟨0x4050005C, [], [TRIP_REC_LOST_COUNT]⟩,
  ⟨0x40500060, [], [TRIP_BOS_RX_COUNT]⟩,
  ⟨0x40500064, [], [TRIP_CNT_SAT_BOS_SAT, TRIP_CNT_SAT_LOST_SAT]⟩,
  ⟨0x40500100, [(0x10, 16)], [TRIP_GRP_CFG_HOLD 0]⟩,
  ⟨0x40500104, [(0x10, 16)], [TRIP_GRP_STAT_STATE 0, TRIP_GRP_STAT_FENCE 0, TRIP_GRP_STAT_FIRST_SRC 0, TRIP_GRP_STAT_GRP_FAULT 0, TRIP_GRP_STAT_CLR_REFUSED 0, TRIP_GRP_STAT_TMR_ERR 0, TRIP_GRP_STAT_SAT 0]⟩,
  ⟨0x40500108, [(0x10, 16)], [TRIP_GRP_CNT_COUNT 0]⟩,
  ⟨0x40501000, [(0x10, 128)], [TRIP_CH_CFG_ACTION 0, TRIP_CH_CFG_GROUP 0]⟩,
  ⟨0x40501004, [(0x10, 128)], [TRIP_CH_MASK_DASH 0, TRIP_CH_MASK_OV 0]⟩,
  ⟨0x40501008, [(0x10, 128)], [TRIP_CH_UV_UV 0]⟩,
  ⟨0x4050100C, [(0x10, 128)], [TRIP_CH_STAT_DASH_ACT 0, TRIP_CH_STAT_OV_ACT 0, TRIP_CH_STAT_UV_ACT 0]⟩,
  ⟨0x40600000, [(0x40, 32)], [LANE_CFG_USE 0, LANE_CFG_PORT 0, LANE_CFG_RATE 0, LANE_CFG_TX_INV 0, LANE_CFG_RX_INV 0, LANE_CFG_TX_SWING 0, LANE_CFG_TX_PRE 0, LANE_CFG_TX_POST 0, LANE_CFG_FOM_MIN 0]⟩,
  ⟨0x40600004, [(0x40, 32)], [LANE_CTL_RETRAIN 0, LANE_CTL_PEER_SLEEP_OK 0, LANE_CTL_RX_SLEEP 0, LANE_CTL_TX_SLEEP 0]⟩,
  ⟨0x40600008, [(0x40, 32)], [LANE_ALIGN_BITSLIP 0, LANE_ALIGN_ALIGNED 0, LANE_ALIGN_BUSY 0, LANE_ALIGN_SLIPS 0]⟩,
  ⟨0x4060000C, [(0x40, 32)], [LANE_STAT_STATE 0, LANE_STAT_PHASE 0, LANE_STAT_SD 0, LANE_STAT_CDR_LOCK 0, LANE_STAT_FOM 0, LANE_STAT_TX_SVC 0, LANE_STAT_RX_SVC 0, LANE_STAT_RETRY 0, LANE_STAT_PLL_LOST 0, LANE_STAT_EQ_LIM 0, LANE_STAT_LB_REFUSED 0, LANE_STAT_ABSENT_SEEN 0, LANE_STAT_LOS 0, LANE_STAT_ALIGN_LOST 0, LANE_STAT_FOM_LOW 0, LANE_STAT_TIMEOUT 0]⟩,
  ⟨0x40600010, [(0x40, 32)], [LANE_EQ_FREEZE 0, LANE_EQ_CTLE_HI 0, LANE_EQ_CTLE_LO 0, LANE_EQ_CTLE 0]⟩,
  ⟨0x40600014, [(0x40, 32)], [LANE_DFE_TAPS 0]⟩]

/-- Register words, part 7. -/
def table7 : List RegSpec := [
  ⟨0x40600018, [(0x40, 32)], [LANE_TEST_LOOP 0, LANE_TEST_PRBS 0, LANE_TEST_CHK_LOCK 0]⟩,
  ⟨0x4060001C, [(0x40, 32)], [LANE_PRBS_ERR_COUNT 0]⟩,
  ⟨0x40600020, [(0x40, 32)], [LANE_RETRAIN_COUNT 0]⟩,
  ⟨0x40600024, [(0x40, 32)], [LANE_CNT_STAT_RT_CLR 0, LANE_CNT_STAT_PRBS_SAT 0, LANE_CNT_STAT_CV_SAT 0]⟩,
  ⟨0x40600028, [(0x40, 32)], [LANE_CV_CNT_COUNT 0]⟩,
  ⟨0x4060002C, [(0x40, 32)], [LANE_PEER_LANE 0, LANE_PEER_FOM 0, LANE_PEER_NODE 0]⟩,
  ⟨0x40610000, [(0x10, 8)], [LANE_QUAD_STAT_CAL_FAIL 0, LANE_QUAD_STAT_PLL1_LOST 0, LANE_QUAD_STAT_PLL0_LOST 0, LANE_QUAD_STAT_PLL1_LOCK 0, LANE_QUAD_STAT_PLL0_LOCK 0]⟩,
  ⟨0x40610100, [], [LANE_GLB_CFG_RETRIES, LANE_GLB_CFG_RETRAIN_LIMIT]⟩,
  ⟨0x40700000, [(0x40, 32)], [NOL_LINK_CFG_EN 0, NOL_LINK_CFG_PEER_ANY 0, NOL_LINK_CFG_DIR 0, NOL_LINK_CFG_FB_LANES 0, NOL_LINK_CFG_PEER 0]⟩,
  ⟨0x40700004, [(0x40, 32)], [NOL_LINK_LANES_N 0, NOL_LINK_LANES_LANE3 0, NOL_LINK_LANES_LANE2 0, NOL_LINK_LANES_LANE1 0, NOL_LINK_LANES_LANE0 0]⟩,
  ⟨0x40700008, [(0x40, 32)], [NOL_LINK_BUF_TC 0, NOL_LINK_BUF_OPEN 0, NOL_LINK_BUF_BULK 0]⟩,
  ⟨0x4070000C, [(0x40, 32)], [NOL_LINK_DLY_DLY 0]⟩,
  ⟨0x40700010, [(0x40, 32)], [NOL_LINK_STAT_STATE 0, NOL_LINK_STAT_FORM 0, NOL_LINK_STAT_TX_SET 0, NOL_LINK_STAT_RX_SET 0, NOL_LINK_STAT_PEER_NODE 0]⟩,
  ⟨0x40700014, [(0x40, 32)], [NOL_LINK_FLAG_SKEW 0, NOL_LINK_FLAG_WIRING 0, NOL_LINK_FLAG_PERIOD_SLIP 0, NOL_LINK_FLAG_SLOT_MISS 0, NOL_LINK_FLAG_DROP 0, NOL_LINK_FLAG_BAD 0, NOL_LINK_FLAG_PEER_CP 0]⟩,
  ⟨0x40700018, [(0x40, 32)], [NOL_LINK_MDLY_DLY 0]⟩,
  ⟨0x4070001C, [(0x40, 32)], [NOL_LINK_RX_CNT_COUNT 0]⟩,
  ⟨0x40700020, [(0x40, 32)], [NOL_LINK_BAD_CNT_COUNT 0]⟩,
  ⟨0x40700024, [(0x40, 32)], [NOL_LINK_DROP_CNT_COUNT 0]⟩,
  ⟨0x40700028, [(0x40, 32)], [NOL_LINK_CNT_STAT_DROP_SAT 0, NOL_LINK_CNT_STAT_BAD_SAT 0, NOL_LINK_CNT_STAT_RX_SAT 0]⟩,
  ⟨0x40710000, [(0x800, 32), (0x400, 2), (0x10, 32)], [NOL_SCHED0_EN 0 0 0, NOL_SCHED0_RX 0 0 0, NOL_SCHED0_TYPE 0 0 0, NOL_SCHED0_START 0 0 0]⟩,
  ⟨0x40710004, [(0x800, 32), (0x400, 2), (0x10, 32)], [NOL_SCHED1_BCAST 0 0 0, NOL_SCHED1_NODE 0 0 0, NOL_SCHED1_LEN_MAX 0 0 0]⟩,
  ⟨0x40710008, [(0x800, 32), (0x400, 2), (0x10, 32)], [NOL_SCHED2_CLE 0 0 0, NOL_SCHED2_ARM 0 0 0, NOL_SCHED2_WORD 0 0 0]⟩,
  ⟨0x40730000, [(0x100, 32), (0x4, 64)], [NOL_REF_RX_Y 0 0]⟩,
  ⟨0x40720000, [], [NOL_CFG_TIMEOUT]⟩]

/-- Register words, part 8. -/
def table8 : List RegSpec := [
  ⟨0x40720004, [], [NOL_MEMB_STAT_STATE, NOL_MEMB_STAT_REASON, NOL_MEMB_STAT_MEMBERS, NOL_MEMB_STAT_ID_SEEN, NOL_MEMB_STAT_ID_CONFLICT, NOL_MEMB_STAT_REJOIN, NOL_MEMB_STAT_MEMB_TIMEOUT, NOL_MEMB_STAT_MEMB_LOST]⟩,
  ⟨0x40720008, [], [NOL_MEMB_FROM_FROM]⟩,
  ⟨0x40720080, [(0x4, 32)], [NOL_ROUTE_VALID 0, NOL_ROUTE_LINK 0, NOL_ROUTE_NODE 0]⟩,
  ⟨0x40720100, [(0x10, 32)], [NOL_MEMBER0_VALID 0, NOL_MEMBER0_ARM 0, NOL_MEMBER0_CH 0, NOL_MEMBER0_NODE 0]⟩,
  ⟨0x40720104, [(0x10, 32)], [NOL_MEMBER1_UID 0]⟩,
  ⟨0x40720108, [(0x10, 32)], [NOL_MEMBER2_UID 0]⟩,
  ⟨0x40800000, [(0x40, 4)], [ETH_PORT_CFG_AN 0, ETH_PORT_CFG_FEC 0, ETH_PORT_CFG_TAG 0, ETH_PORT_CFG_PCP_G 0, ETH_PORT_CFG_PCP_M 0, ETH_PORT_CFG_VID 0]⟩,
  ⟨0x40800004, [(0x40, 4)], [ETH_MAC_LO_MAC 0]⟩,
  ⟨0x40800008, [(0x40, 4)], [ETH_MAC_HI_MAC 0]⟩,
  ⟨0x4080000C, [(0x40, 4)], [ETH_TS_ADJ_EGRESS 0, ETH_TS_ADJ_INGRESS 0]⟩,
  ⟨0x40800010, [(0x40, 4)], [ETH_PORT_STAT_UP 0]⟩,
  ⟨0x40800014, [(0x40, 4)], [ETH_RX_ERR_CNT_COUNT 0]⟩,
  ⟨0x40800018, [(0x40, 4)], [ETH_RX_OTHER_CNT_COUNT 0]⟩,
  ⟨0x4080001C, [(0x40, 4)], [ETH_CNT_STAT_ERR_SAT 0, ETH_CNT_STAT_OTHER_SAT 0]⟩,
  ⟨0x408000F0, [], [ETH_RED_CFG_MODE_B, ETH_RED_CFG_MODE_A]⟩,
  ⟨0x40800100, [(0x10, 2)], [DD_OVF_CNT_COUNT 0]⟩,
  ⟨0x40800104, [(0x10, 2)], [WRONG_LAN_CNT_COUNT 0]⟩,
  ⟨0x40800108, [(0x10, 2)], [ETH_RED_STAT_WL_SAT 0, ETH_RED_STAT_DD_SAT 0]⟩,
  ⟨0x40800200, [], [MNT_DELIV_KIND, MNT_DELIV_STATE, MNT_DELIV_LAST]⟩,
  ⟨0x40800204, [], [MNT_NEXT_NEXT]⟩,
  ⟨0x40900000, [(0x40, 32)], [SV_CFG_EN 0, SV_CFG_SIM 0, SV_CFG_RATE 0, SV_CFG_SYNC_MIN 0, SV_CFG_NQ 0, SV_CFG_APPID 0]⟩,
  ⟨0x40900004, [(0x40, 32)], [SV_DST_LO_MAC 0]⟩,
  ⟨0x40900008, [(0x40, 32)], [SV_DST_HI_MAC 0]⟩,
  ⟨0x4090000C, [(0x40, 32)], [SV_CONFREV_CONFREV 0]⟩]

/-- Register words, part 9. -/
def table9 : List RegSpec := [
  ⟨0x40900010, [(0x40, 32)], [SV_LIM_ID_LEN 0, SV_LIM_AGE_MAX 0]⟩,
  ⟨0x40900014, [(0x40, 32)], [SV_STAT_VALID 0, SV_STAT_QBAD 0, SV_STAT_GAP_SAT 0, SV_STAT_LOST 0, SV_STAT_SYNC 0, SV_STAT_CONF 0, SV_STAT_FORMAT 0, SV_STAT_SAT 0]⟩,
  ⟨0x40900018, [(0x40, 32)], [SV_GAP_CNT_COUNT 0]⟩,
  ⟨0x40910000, [(0x40, 32), (0x8, 8)], [SV_QTY0_POS 0 0]⟩,
  ⟨0x40910004, [(0x40, 32), (0x8, 8)], [SV_QTY1_GAIN 0 0]⟩,
  ⟨0x40930000, [(0x40, 32), (0x4, 8)], [SV_SNAP_X 0 0]⟩,
  ⟨0x40930020, [(0x40, 32)], [SV_SNAP_STAT_AGE 0, SV_SNAP_STAT_QBAD 0, SV_SNAP_STAT_VALID 0]⟩,
  ⟨0x40930800, [], [SV_SNAP_K_K]⟩,
  ⟨0x40A00000, [(0x40, 8)], [GOOSE_PUB_CFG_EN 0, GOOSE_PUB_CFG_N 0, GOOSE_PUB_CFG_APPID 0]⟩,
  ⟨0x40A00004, [(0x40, 8)], [GOOSE_PUB_T_T0 0, GOOSE_PUB_T_T1 0]⟩,
  ⟨0x40A00008, [(0x40, 8)], [GOOSE_PUB_DST_LO_MAC 0]⟩,
  ⟨0x40A0000C, [(0x40, 8)], [GOOSE_PUB_DST_HI_MAC 0]⟩,
  ⟨0x40A00010, [(0x40, 8)], [GOOSE_PUB_CONFREV_CONFREV 0]⟩,
  ⟨0x40A00014, [(0x40, 8)], [GOOSE_PUB_CTL_SEND 0]⟩,
  ⟨0x40A00018, [(0x40, 8)], [GOOSE_PUB_ST_STNUM 0]⟩,
  ⟨0x40A0001C, [(0x40, 8)], [GOOSE_PUB_SQ_SQNUM 0]⟩,
  ⟨0x40A10000, [(0x80, 8), (0x4, 32)], [GOOSE_PUB_ENT_TYPE 0 0, GOOSE_PUB_ENT_SRC 0 0, GOOSE_PUB_ENT_GROUP 0 0]⟩,
  ⟨0x40A20000, [(0x80, 8), (0x4, 32)], [GOOSE_TX_V 0 0]⟩,
  ⟨0x40A40000, [(0x40, 32)], [GOOSE_SUB_CFG_EN 0, GOOSE_SUB_CFG_SIM 0, GOOSE_SUB_CFG_N 0, GOOSE_SUB_CFG_APPID 0]⟩,
  ⟨0x40A40004, [(0x40, 32)], [GOOSE_SUB_DST_LO_MAC 0]⟩,
  ⟨0x40A40008, [(0x40, 32)], [GOOSE_SUB_DST_HI_MAC 0]⟩,
  ⟨0x40A4000C, [(0x40, 32)], [GOOSE_SUB_CONFREV_CONFREV 0]⟩,
  ⟨0x40A40020, [(0x40, 32)], [GOOSE_SUB_STAT_VALID 0, GOOSE_SUB_STAT_STALE 0, GOOSE_SUB_STAT_CONF 0, GOOSE_SUB_STAT_NDS 0, GOOSE_SUB_STAT_TYPE 0]⟩,
  ⟨0x40A40024, [(0x40, 32)], [GOOSE_SUB_ST_STNUM 0]⟩]

/-- Register words, part 10. -/
def table10 : List RegSpec := [
  ⟨0x40A40010, [(0x40, 32), (0x4, 4)], [GOOSE_SUB_IDX_IDX 0 0]⟩,
  ⟨0x40A50000, [(0x40, 32), (0x4, 16)], [GOOSE_RX_V 0 0]⟩,
  ⟨0x40B00000, [], [PTP_CFG_EN, PTP_CFG_TYPE, PTP_CFG_PROFILE, PTP_CFG_SLAVE_ONLY, PTP_CFG_TAG, PTP_CFG_PORTS, PTP_CFG_LOG_SYNC, PTP_CFG_DOMAIN]⟩,
  ⟨0x40B00004, [], [PTP_PRIO_P1, PTP_PRIO_P2]⟩,
  ⟨0x40B00008, [], [PTP_UTC_OFF]⟩,
  ⟨0x40B00020, [], [PTP_GM_LO_ID]⟩,
  ⟨0x40B00024, [], [PTP_GM_HI_ID]⟩,
  ⟨0x40B00028, [], [PTP_GM_CLASS, PTP_GM_STEPS, PTP_GM_TTI]⟩,
  ⟨0x40B0002C, [], [PTP_DISC_CNT_COUNT]⟩,
  ⟨0x40B00030, [], [PTP_CNT_STAT_SAT]⟩,
  ⟨0x40B00100, [], [SERVO_CFG_SRC, SERVO_CFG_KP, SERVO_CFG_KI, SERVO_CFG_NAVG, SERVO_CFG_LOCK_N]⟩,
  ⟨0x40B00104, [], [SERVO_TH_LOCK_TH, SERVO_TH_STEP_TH]⟩,
  ⟨0x40B00108, [], [SERVO_HOLD_HOLD_MAX]⟩,
  ⟨0x40B0010C, [], [SERVO_STAT_STATE, SERVO_STAT_SOURCE, SERVO_STAT_SLEW, SERVO_STAT_LOCK_SEEN]⟩,
  ⟨0x40B00110, [], [SERVO_OFS_THETA]⟩,
  ⟨0x40B00114, [], [SERVO_DRIFT_DRIFT]⟩,
  ⟨0x40B00010, [(0x4, 4)], [PTP_PORT_STAT_STATE 0, PTP_PORT_STAT_DLY 0]⟩,
  ⟨0x40C00000, [(0x20, 8)], [PICOT_CFG_MODE 0, PICOT_CFG_POL 0, PICOT_CFG_NEED_VALID 0, PICOT_CFG_EVT 0]⟩,
  ⟨0x40C00004, [(0x20, 8)], [PICOT_START_SEC_SEC 0]⟩,
  ⟨0x40C00008, [(0x20, 8)], [PICOT_START_NS_NS 0]⟩,
  ⟨0x40C0000C, [(0x20, 8)], [PICOT_WIDTH_WIDTH 0]⟩,
  ⟨0x40C00010, [(0x20, 8)], [PICOT_PER_PER 0]⟩,
  ⟨0x40C00014, [(0x20, 8)], [PICOT_STAT_ACTIVE 0, PICOT_STAT_BAD 0, PICOT_STAT_PAST 0]⟩,
  ⟨0x5000D000, [(0x40, 2)], [AVS_CFG_S_HI 0, AVS_CFG_S_LO 0, AVS_CFG_S_CRIT 0]⟩]

/-- Register words, part 11. -/
def table11 : List RegSpec := [
  ⟨0x5000D004, [(0x40, 2)], [AVS_STAT_VREQ 0, AVS_STAT_VACK 0, AVS_STAT_S_MIN 0, AVS_STAT_AT_HI 0, AVS_STAT_AT_LO 0, AVS_STAT_FREQ_LIM 0, AVS_STAT_AVS_LOST 0, AVS_STAT_EMERG 0, AVS_STAT_REGION_FAULT 0]⟩,
  ⟨0x5000D008, [(0x40, 2)], [AVS_FREQ_TCAP 0, AVS_FREQ_FCAP 0, AVS_FREQ_CUR 0, AVS_FREQ_REQ 0]⟩,
  ⟨0x5000D100, [], [THM_CFG_T_HOT, THM_CFG_T_WARN, THM_CFG_FCAP_WARN]⟩,
  ⟨0x5000D104, [], [THM_STAT_HOT_B, THM_STAT_HOT_A, THM_STAT_WARN_B, THM_STAT_WARN_A]⟩,
  ⟨0x5000D200, [], [PL_CFG_EN, PL_CFG_BUDGET, PL_CFG_DT, PL_CFG_DWELL]⟩,
  ⟨0x5000D204, [], [PL_MAP_SUBST, PL_MAP_SPARE_USED, PL_MAP_PHYS]⟩,
  ⟨0x40F00010, [], [IOD_TEMP_LO_T1, IOD_TEMP_LO_T0]⟩,
  ⟨0x40F00014, [], [IOD_TEMP_HI_T3, IOD_TEMP_HI_T2]⟩,
  ⟨0x5000D110, [(0x4, 4)], [THM_TEMP_T 0]⟩,
  ⟨0x40D00000, [], [RED_CFG_DISC_LIMIT, RED_CFG_REJOIN_MAX, RED_CFG_PMISS_LIMIT, RED_CFG_SHED_CLASS]⟩,
  ⟨0x40D00004, [], [RED_SUBST_MASK]⟩,
  ⟨0x40D00020, [], [RED_COUCH_T_START]⟩,
  ⟨0x40D00050, [], [RED_GRADE_SPARES1, RED_GRADE_SPARES0, RED_GRADE_CAUSE, RED_GRADE_REPLACE, RED_GRADE_GRADE]⟩,
  ⟨0x40D00054, [], [RED_DISC_STAT_SET, RED_DISC_STAT_WORD, RED_DISC_STAT_PMISS, RED_DISC_STAT_KIND, RED_DISC_STAT_AT_LIMIT, RED_DISC_STAT_DISCORD]⟩,
  ⟨0x40D00058, [], [RED_DISC_CNT_COUNT]⟩,
  ⟨0x40D0005C, [], [RED_CNT_CLR_DISC]⟩,
  ⟨0x40D00060, [], [RED_COUCH_STAT_COUCH_UE, RED_COUCH_STAT_COUCH_ABORT, RED_COUCH_STAT_COUCH_LATE, RED_COUCH_STAT_FIX_SAT]⟩,
  ⟨0x40D00064, [], [RED_COUCH_FIX_COUNT]⟩,
  ⟨0x40D00010, [(0x4, 4)], [RED_DISC_WIN_LSB 0]⟩,
  ⟨0x40D00040, [(0x4, 2)], [RED_DIE_STATE 0, RED_DIE_WORKER 0, RED_DIE_REJOINS 0, RED_DIE_CAUSE 0, RED_DIE_FAULT 0]⟩,
  ⟨0x50007008, [(0x10, 2)], [MEM_SPARE_USED 0, MEM_SPARE_COPYING 0, MEM_SPARE_NO_SPARE 0, MEM_SPARE_BANK 0]⟩,
  ⟨0x50007020, [], [MEM_SPARE_CFG_CE_LIM]⟩,
  ⟨0x50007100, [(0x40, 2), (0x4, 16)], [MEM_BANK_CE_COUNT 0 0]⟩,
  ⟨0x5000E000, [], [LOG_LOST_COUNT]⟩]

/-- Register words, part 12. -/
def table12 : List RegSpec := [
  ⟨0x5000E004, [], [LOG_STAT_SAT]⟩]

/-- The register words of the spec. -/
def table : List RegSpec :=
  table0 ++ table1 ++ table2 ++ table3 ++ table4 ++ table5 ++ table6 ++ table7 ++ table8 ++ table9 ++ table10 ++ table11 ++ table12

/-- The indices a byte offset stands for under the given strides and counts. -/
def indices : List (Nat × Nat) → Nat → Option (List Nat)
  | [], off => if off = 0 then some [] else none
  | (st, n) :: ds, off =>
    if off / st < n then (indices ds (off % st)).map (off / st :: ·) else none

/-- The fields of the register word at `a`, or nothing where no register word lies there. -/
def fieldsIn : List RegSpec → Nat → Option (List Field)
  | [], _ => none
  | r :: rs, a =>
    if a < r.base then fieldsIn rs a else
    match indices r.dims (a - r.base) with
    | some _ => some (r.fields.map (fun f => { f with addr := a }))
    | none => fieldsIn rs a

/-- The fields of the register word at address `a`. -/
def fieldsAt (a : Nat) : Option (List Field) := fieldsIn table a

end Reg

end Sys2Proof.Machine
end

