-- ==== Sys2Proof/Machine/Tab.lean ====
section
/-! DEFINITION. Sparse tables in one canonical form: keys strictly rising, no entry equal to what an unlisted key reads
as. Registers, memories and per-channel state are held in them, so that equal contents are equal data. -/

namespace Sys2Proof.Machine

/-- A sparse table from numbers to values. -/
abbrev Tab (α : Type) := List (Nat × α)

/-- The value at key `i`; `d` where the key is unlisted. -/
def tabGet {α : Type} (d : α) : Tab α → Nat → α
  | [], _ => d
  | (k, v) :: t, i => if k = i then v else tabGet d t i

/-- The table without key `i`. -/
def tabErase {α : Type} : Tab α → Nat → Tab α
  | [], _ => []
  | (k, v) :: t, i => if k = i then tabErase t i else (k, v) :: tabErase t i

/-- The table with value `x` at key `i`, keys kept in order. -/
def tabInsert {α : Type} : Tab α → Nat → α → Tab α
  | [], i, x => [(i, x)]
  | (k, v) :: t, i, x =>
    if i < k then (i, x) :: (k, v) :: t
    else if i = k then (i, x) :: t
    else (k, v) :: tabInsert t i x

/-- The table with value `x` at key `i`, in canonical form: writing the default removes the entry. -/
def tabSet {α : Type} [DecidableEq α] (d : α) (t : Tab α) (i : Nat) (x : α) : Tab α :=
  if x = d then tabErase t i else tabInsert t i x

/-- `k` lies above the bound, if there is one. -/
def tabAbove : Option Nat → Nat → Bool
  | none, _ => true
  | some l, k => decide (l < k)

/-- Every listed key is above `k`, keys rise strictly, and no entry equals the default. -/
def tabWfFrom {α : Type} [DecidableEq α] (d : α) : Option Nat → Tab α → Bool
  | _, [] => true
  | lo, (k, v) :: t => tabAbove lo k && decide (v ≠ d) && tabWfFrom d (some k) t

/-- The canonical form of a table. -/
def tabWf {α : Type} [DecidableEq α] (d : α) (t : Tab α) : Bool := tabWfFrom d none t

end Sys2Proof.Machine
end

