-- ==== Sys2Proof/Machine/State.lean ====
section
/-! DEFINITION. The state of the FZ6128 block: registers and their shadows, memories, and what the spec gives the machine
beyond its registers, block by block. Plain data throughout. -/

namespace Sys2Proof.Machine

/-! ## What leaves the block -/

/-- A word of a Nolri lane (R363). -/
inductive LaneWord where
  | data (bytes : List Byte)
  | idle
  | sof
  | bos
  /-- A bond marker with its bytes A and B. -/
  | mark (a b : Byte)
deriving DecidableEq, Repr

/-- A goosePdu with the addresses of its frame (R413): t as UTC seconds, 24-bit fraction and quality byte; each entry of allData
as its TYPE and its value. -/
structure GoosePdu where
  dst : Nat
  appid : Nat
  gocbRef : List Byte
  datSet : List Byte
  goId : List Byte
  /-- timeAllowedtoLive, in ms. -/
  ttl : Nat
  sec : Nat
  frac : Nat
  quality : Nat
  stNum : Nat
  sqNum : Nat
  simulation : Bool
  confRev : Nat
  ndsCom : Bool
  allData : List (Nat × Nat)
deriving DecidableEq, Repr

/-- What an Announce tells of its grandmaster (R419); `tlv`: it carries the C37.238 TLV. -/
structure PtpDataset where
  gmId : Nat
  p1 : Nat
  cls : Nat
  accuracy : Nat
  variance : Nat
  p2 : Nat
  steps : Nat
  timeSource : Nat
  utcOffset : Nat
  utcValid : Bool
  ptpTimescale : Bool
  tlv : Bool
deriving DecidableEq, Repr

/-- A PTP message as the device sends it: messageType of IEEE 1588-2019, domain, sequence number, its timestamp in ns,
correctionField in 2^-16 ns (R418), the data of an Announce and its destination MAC (R419). -/
structure PtpOut where
  type : Nat
  domain : Nat
  seq : Nat
  time : Int := 0
  corr : Int := 0
  data : Option PtpDataset := none
  dst : Nat := 0x011B19000000
deriving DecidableEq, Repr

/-- What the block sends or posts, newest first in `State.out`: the model's own record of the block's outputs. -/
inductive Output where
  /-- Event source `src` reaches the event controller of die `d` (R148). -/
  | event (d : Die) (src : Nat)
  /-- A block order set sent on lane `k`, forwarded or the device's own (R321, R322). -/
  | bos (k : Nat) (forwarded : Bool)
  /-- The words of a read that Ground has completed for a requester (R155, R160). -/
  | ground (d : Die) (target req : Nat) (words : List Nat)
  /-- An AVSBus Voltage write command of `mv` millivolts (R43). -/
  | avsVoltage (d : Die) (r : Region) (mv : Nat)
  /-- What the TAP shifts out on TDO (R49, R50). -/
  | jtag (w : Nat)
  /-- A Nolri frame on link `l`: its bytes from header to CRC (R365), and the words of each lane of the dealing set, one a
  word cycle (R380). -/
  | nolri (l : Nat) (bytes : List Byte) (words : List (Nat × List LaneWord))
  /-- The frame in progress on link `l` is lost with a lane (R382). -/
  | nolriLost (l : Nat)
  /-- A training word sent on lane `k`: its first byte, K28.5 or block type 0x4B, and bytes 1 to 7 (R342). -/
  | training (k : Nat) (bytes : List Byte)
  /-- Bits of a pattern, or of a far-end loopback, that lane `k` sends, oldest first (R354, R355). -/
  | pattern (k : Nat) (bits : List Bool)
  /-- A marker order set sent on lane `k` (R380). -/
  | marker (k a b : Nat)
  /-- A frame that begins to leave Ethernet port `p` (R396): the control word of its IEEE 802.1Q tag, PCP × 2^13 + VID (R395), the
  sequence number of its redundancy trailer or HSR tag, and whether the trailer's LAN identifier is B (R398, R400), where it
  carries them. -/
  | eth (p : Nat) (tci seq : Option Nat) (lanB : Option Bool) (o : Output)
  /-- An Ethernet frame forwarded to port `p` (R400). -/
  | hsrForward (p : Nat) (f : EthFrame)
  /-- A frame handed to the receiver of its Ethertype (R394, R395). -/
  | ethDeliver (p : Nat) (etherType : Nat)
  /-- A PRP supervision frame sent on both ports of pair `x` (R398). -/
  | prpSupervision (x : Nat)
  /-- A maintenance response: the port of its request, the requester's MAC, and its bytes from VER on (R403). -/
  | maint (port dst : Nat) (bytes : List Byte)
  /-- A GOOSE message of control block `b` (R413). -/
  | goose (b : Nat) (pdu : GoosePdu)
  /-- A PTP message sent on port `p` (R418, R419). -/
  | ptp (p : Nat) (m : PtpOut)
deriving DecidableEq, Repr

/-! ## Why a step stops -/

/-- Why the machine stops. -/
inductive Fault where
  /-- Raised by a meaning whose operands do not have the shape the row gives them (a sense frame that is not 25 cells
  long, a FIR window of the wrong length): no such command exists. Safe: the block never receives one. -/
  | illFormed
deriving DecidableEq, Repr

/-- Why a command has no meaning. -/
inductive Refusal where
  /-- Raised by an arm of `exec` whose meaning is not written: safe, nothing is claimed of it. -/
  | notModelled (mnemonic : String)
deriving DecidableEq, Repr

/-! ## Timebase (03) -/

/-- The timebase beyond its registers (R61 to R69). Times are in units of 2^-32 ns. -/
structure Timebase where
  /-- The time value (R61); its register view is modulo 2^48 s. -/
  time : Nat := 0
  /-- Ticks since PORST_N release, the model's own tick count. -/
  ticks : Nat := 0
  /-- The instant of the next boundary (R65). -/
  nextB : Nat := 5000 * 2 * 2 ^ 32
  /-- Tick of the last boundary, and of the one before it. -/
  bTick : Nat := 0
  pTick : Nat := 0
  /-- The guard of the next boundary has begun (R69). -/
  guarded : Bool := false
  /-- The gates have been released since the last PORST_N or controlled stop (R64, R96). -/
  released : Bool := false
  /-- The tick of the sample that wrote the present TB_ADDEND, and the addend before it, which that tick still shows and the
  next one still adds (R422). -/
  addOld : Option (Nat × Nat) := none
  /-- Number of the period that the last boundary ended (R67, R74). -/
  prevK : Nat := 0
  /-- The period whose missed commit the last event 177 named (R74). -/
  missed : Option Nat := none
  /-- A period has been cut or stretched by a step (R67). -/
  stepped : Bool := false
  /-- The time value that the last step set: carrier cycle starts up to it are passed over (R67, R297). -/
  stepTo : Option Nat := none
  /-- The TB_TIME snapshot of each reader: 16 × die + reader (R73). -/
  snap : Tab Nat := []
deriving DecidableEq, Repr

/-- Commit status of a shadow set in the present period (R69, R464). -/
structure SetSt where
  /-- The worker's last commit was accepted before the guard. -/
  staged : Bool := false
  /-- The worker's last commit reached the I/O die inside the guard. -/
  missed : Bool := false
  /-- The passive's commit was accepted before the guard. -/
  pStaged : Bool := false
  /-- The set was compared and disagreed (R464). -/
  disputed : Bool := false
  /-- The set was compared and agreed. -/
  agreed : Bool := false
  /-- A picot set: the copy has been taken (R427). -/
  done : Bool := false
deriving DecidableEq, Repr

/-! ## Pins, power, boundary scan (02) -/

/-- The pins the block drives or samples (R32). -/
structure Pins where
  gu : BitVec 128 := 0
  gl : BitVec 128 := 0
  /-- VDD33_CH is above 1.0 V: the pads hold the gate pins, which float below it (R32). -/
  padPower : Bool := false
  /-- The gates have been released since PORST_N: the pins have left the states R32 gives them for reset. -/
  live : Bool := false
  /-- The outputs float under HIGHZ (R49). -/
  highZ : Bool := false
  /-- The boundary register drives the outputs, under EXTEST or CLAMP (R52). -/
  extest : Bool := false
  syncOut : Bool := false
  syncIn : Bool := false
  picot : BitVec 8 := 0
  tripIn : BitVec 8 := 0
  /-- DEGRADE[1:0], none at high impedance (R477). -/
  degrade : Option (BitVec 2) := none
  qspiRstN : Bool := false
  porstN : Bool := false
deriving DecidableEq, Repr

/-- What a pin shows (R32): a driven level, or one of the states the table names. -/
inductive Level where
  | low | high | highZ | pulledUp | idle | released
deriving DecidableEq, Repr

/-- Supplies and reset (R37 to R47). -/
structure Power where
  /-- Every rail has come within tolerance (R37). -/
  railsOk : Bool := false
  /-- Rails of the I/O die that have risen since power was applied, in the order of UV_NOW: what they feed no longer floats
  (R32). -/
  up : BitVec 6 := 0
  /-- The I/O-die shutdown of R41 holds until PORST_N. -/
  shutdown : Bool := false
  /-- Regional rails present at PORST_N release, bit 2d + r. -/
  regionRails : BitVec 4 := 0xF
  /-- Consecutive failed AVSBus transactions of region 2d + r (R44). -/
  avsFail : Tab Nat := []
  /-- Regions whose die issues voltage requests no more (R44), bit 2d + r. -/
  avsStopped : BitVec 4 := 0
  /-- Lane references lost (R45). -/
  refLost : BitVec 2 := 0
  /-- The crystal or an I/O-die PLL is lost; stays until PORST_N (R71, R72). -/
  clockLost : Bool := false
deriving DecidableEq, Repr

/-- The test access port (R49 to R52). -/
structure Jtag where
  /-- The 8-bit instruction register; IEEE 1149.1 selects IDCODE at reset of the TAP. -/
  ir : BitVec 8 := 0xFE
  /-- The boundary register. -/
  boundary : BoundaryPins := {}
  /-- The one bit of the bypass register. -/
  bypass : Bool := false
deriving DecidableEq, Repr

/-! ## Boot and firmware (04, 05) -/

/-- What a flash image's check found, kept by the boot for the record and the report (R78, R120). -/
structure ImageInfo where
  len : Nat := 0
  digest : List Byte := []
deriving DecidableEq, Repr

/-- A privileged rewrite in progress (R114). -/
structure Rewrite where
  kind : Nat
  slot : Nat
  /-- Bytes of the image, its signature block included. -/
  len : Nat
  /-- Sectors still to do, in order. -/
  todo : List Nat
deriving DecidableEq, Repr

/-- Who serves the maintenance path: nobody, the supervisor code, or the recovery server in one of its cases (R402). -/
inductive Server where
  | off | full | flash | stage1 | differ | iodsup
deriving DecidableEq, Repr

/-- The boot beyond its registers (R94 to R98). -/
structure Boot where
  /-- The flash was found readable, and its size in bytes (R75, R77). -/
  flashOk : Bool := true
  flashSize : Nat := 0x1000000
  /-- Dies that failed their ROM self-check, and dies whose regional rail was absent, bit d (R98, R42). -/
  romFail : BitVec 2 := 0
  railAbsent : BitVec 2 := 0
  /-- Results of the checks of the stage-1 loader and of the supervisor code, as R105 codes them; 0xFF before them. -/
  stage1Result : Nat := 0xFF
  iodsupResult : Nat := 0xFF
  /-- Pricking copies that passed checks 0x01 to 0x0B, best first (R88). -/
  ranked : List Nat := []
  server : Server := .off
  /-- Length and digest of the images of this boot (R78, R117): stage-1 loader, supervisor code, running firmware,
  applied pricking copy. -/
  stage1 : ImageInfo := {}
  iodsup : ImageInfo := {}
  fw : ImageInfo := {}
  prick : ImageInfo := {}
  /-- A firmware slot runs; TOTAL_LEN of each slot's header, 0 when unreadable (R120). -/
  fwRuns : Bool := false
  slotLen : Nat × Nat := (0, 0)
  /-- Key slots the applied copy revokes whose fuses are not burnt yet (R87). -/
  revokes : List Nat := []
  /-- The half of the settings store the firmware read; whether a half was valid and it could read neither (R111); and the
  half its next write goes into, none where it may write neither (R110). -/
  settings : Option Nat := none
  settingsLost : Bool := false
  settingsTo : Option Nat := none
  /-- Tick of READY, or of the entry to maintenance-only mode, for R108 and the boot record. -/
  readyTick : Option Nat := none
  /-- The boot record of this boot has been written (R99). -/
  recorded : Bool := false
deriving DecidableEq, Repr

/-! ## Cores, Bobbin, locks (06) -/

/-- Who posted an entry: an event source, a CLE's END, or a core, with the register that took its status (R132, R247). -/
inductive Poster where
  | event | done
  | core (k rd : Nat)
deriving DecidableEq, Repr

/-- An entry of Bobbin's ready list (R132, R138). -/
structure Task where
  desc : Nat
  arg : Nat
  delayed : Bool
  /-- The posting cluster, 3 for an event. -/
  src : Nat
  prio : Nat
  /-- The tick of the post of a delayed entry, and then that in which the entry enters the ready list (R136, R142). -/
  entered : Nat := 0
  poster : Poster := .event
deriving DecidableEq, Repr

/-- An entry of the held-poster queue (R140). -/
inductive HeldPoster where
  | delay (t : Task)
  /-- An event source, with the descriptor of its route when it was held (R148). -/
  | event (e dsc : Nat)
  /-- A DONE post of the cluster's CLE (R247). -/
  | done (t : Task)
deriving DecidableEq, Repr

/-- An FZ.TCANCEL of this tick: its descriptor, its core and rd, the status it has returned, and the entries it took from the
ready list that had entered before the tick, oldest first (R142). -/
structure Cancel where
  desc : Nat
  core : Nat
  rd : Nat
  st : Nat
  gone : List Task
deriving DecidableEq, Repr

/-- One Bobbin instance (R135 to R140). -/
structure Bobbin where
  /-- Ready list, oldest first. -/
  ready : List Task := []
  /-- Delay list: tick edges left, in order of posting. -/
  delay : List (Nat × Task) := []
  /-- Held posters, first held first. -/
  held : List HeldPoster := []
  /-- The last tick in which posters were held, and how many of the last held entries are of it (R140). -/
  heldIn : Nat × Nat := (0, 0)
  /-- The last tick in which a held poster was admitted, plus 1. -/
  admitAt : Nat := 0
  /-- The last tick in which entries were cancelled, and its cancels (R142). -/
  cancels : Nat × List Cancel := (0, [])
  /-- The last Bobbin tick edge, as a tick of the timebase (R137). -/
  edge : Nat := 0
deriving DecidableEq, Repr

/-- What a core is doing. -/
inductive CoreMode where
  | running | waiting | faulted | halted
deriving DecidableEq, Repr

/-- A core as the block's commands see it (R129 to R147). -/
structure CoreSt where
  mode : CoreMode := .running
  /-- Task word of the last dispatch. -/
  task : Nat := 0
  /-- The class of the present task: bulk where GND_BULK_DESC marked its descriptor at dispatch (R152). -/
  bulk : Bool := false
  /-- Tick of the dispatch of the present task, none while the core runs no task (R139). -/
  since : Option Nat := none
  /-- The tick in which the dispatched entry had entered the ready list, and its poster (R142). -/
  entered : Nat := 0
  poster : Poster := .event
  /-- Instructions retired that a command has shown: minstret counts them with those that no command shows (R129). -/
  retired : Nat := 0
  /-- Tick of the core's last reset, and the cycles of its region's clock by then, in thousandths: mcycle and minstret count from there
  (R129). -/
  resetAt : Nat := 0
  cycFrom : Nat := 0
  /-- The register the waiting FZ.TWAIT returns its task word in; the last one's. -/
  waitRd : Nat := 0
  /-- The last value returned to rd or by a load. -/
  rd : Word := 0
  /-- The load-reserve reservation's address (R123). -/
  resv : Option Nat := none
  /-- Program counter after a reset or restart (R130). -/
  pc : Nat := 0x70000000
deriving DecidableEq, Repr

/-- What a lock remembers for R146: its last owner, the tick it was last acquired in, the owner before, and the status that
acquisition returned. -/
structure LockWas where
  last : Option Nat := none
  at_ : Option Nat := none
  /-- The rd of that acquisition. -/
  rd : Nat := 0
  prev : Option Nat := none
  st : Nat := 0
deriving DecidableEq, Repr

/-- A hardware lock (R144). -/
inductive LockSt where
  | free | held (c : Nat) | broken
deriving DecidableEq, Repr

/-! ## Ground (07) -/

/-- A waiting request at a Ground target (R155, R156). -/
structure GndReq where
  req : Nat
  words : Nat
  /-- It is a bulk-class request, counted by R163. -/
  bulk : Bool
  /-- What is transferred (R160), and the errors that words of a read meet (R126). -/
  xfer : Xfer
  errs : List (Nat × Ecc) := []
  /-- Cycle of its first issue, on the target's clock; kept across revocations (R160). A remap to the other region's clock may put it
  before that clock's first cycle. -/
  since : Int
  capped : Bool := false
  /-- Already counted as waiting (R163). -/
  counted : Bool := false
deriving DecidableEq, Repr

/-- How a grant was won (R155, R159). -/
inductive GrantKind where
  | emergency | capped | draw (d : Nat)
deriving DecidableEq, Repr

/-- A grant in progress. -/
structure GndHold where
  rq : GndReq
  kind : GrantKind
  /-- First cycle in which the target is free again. -/
  ends : Nat
  /-- Words transferred so far, and those that a read has brought (R160). -/
  done : Nat := 0
  got : List Nat := []
deriving DecidableEq, Repr

/-- A Ground target (R150, R155, R160). -/
structure GndTarget where
  hold : Option GndHold := none
  /-- Waiting requests, in order of issue. -/
  waiting : List GndReq := []
deriving DecidableEq, Repr

/-! ## Gate generation (12) -/

/-- A pending edge of an output (R285). -/
structure Edge where
  upper : Bool
  level : Bool
  tick : Nat
deriving DecidableEq, Repr

/-- A command change of a carrier cycle: its reference instant in sixteenths of a tick, on the model's own count of ticks,
its command, and the cycle's number (R285, R296). -/
structure CarChange where
  at_ : Nat
  cmd : Nat
  cyc : Nat
deriving DecidableEq, Repr

/-- One of the three copies of a channel unit's generator state (R304). -/
structure GenCopy where
  /-- The active command, and the staged one that the last boundary took. -/
  cmd : Nat := 0
  staged : Nat := 0
  /-- Edges pending. -/
  edges : List Edge := []
  /-- Number of the carrier cycle, its dither index (R286, R294), and the half-width and polarity of its reload. -/
  cyc : Nat := 0
  xa : Nat := 0
  pola : Bool := false
  /-- The output bits that the copy computes. -/
  outU : Bool := false
  outL : Bool := false
deriving DecidableEq, Repr

/-- A channel unit beyond its registers: the three copies of its generator state, which ones have differed in the present period, and
for how many periods each has (R304, R305, log entry 144). -/
structure GenCh where
  /-- The unit is faulty (R305). -/
  faulty : Bool := false
  c0 : GenCopy := {}
  c1 : GenCopy := {}
  c2 : GenCopy := {}
  /-- Carrier mode: start tick of the cycle, and whether one runs (R294, R296). -/
  cycStart : Nat := 0
  cycRun : Bool := false
  /-- Command changes of the carrier cycle still to come, in order (R296, R300). -/
  chg : List CarChange := []
  /-- Tick of a BYPASS turn-on that is placed (R315). -/
  bypassAt : Option Nat := none
  /-- The disable of GEN_DIS is in force (R308). -/
  disabled : Bool := false
  /-- Tick of the last write of its GEN_DIS bit, and the bit before that tick's writes (R293). -/
  disWas : Option (Nat × Bool) := none
  /-- The duty word active before the last boundary (R293). -/
  dutyWas : Int := 0
  /-- No command is taken at the next boundary after a trip, a disable or a re-arm (R307, R308). -/
  mute : Bool := false
  /-- Echo watch: tick of the falling edge (R301). -/
  watch : Option Nat := none
  emax : Option Nat := none
  /-- Watches of the window that closed with no mark, a miss: the tick each opened at, and the one it closed at. The marks of a
  frame are known at its end, and one that falls in such a watch takes it out (R301). -/
  lapsed : List (Nat × Nat) := []
  /-- Copies that have differed in this period, and consecutive periods with a difference (R305). -/
  diff : BitVec 3 := 0
  runs : Nat × Nat × Nat := (0, 0, 0)
deriving DecidableEq, Repr

/-- SYNC_IN tracking (R300). -/
structure SyncSt where
  /-- Tick of the present device epoch E_j. -/
  epoch : Nat := 0
  /-- The last device epochs under SYNC_IN, newest first: cycle number and tick (R294). -/
  epochs : List (Nat × Nat) := []
  /-- The first epoch has been set. -/
  started : Bool := false
  /-- Next epoch, when an accepted edge has set it. -/
  next : Option Nat := none
  /-- The epoch after the next one, where its edge came before the next one began (R300). -/
  early : Option Nat := none
  /-- Epochs under SYNC_IN have begun, at a boundary (R300). -/
  anchored : Bool := false
  /-- Tick at which the SYNC_OUT pulse of a MASTER ends (R298). -/
  pulseEnd : Option Nat := none
deriving DecidableEq, Repr

/-! ## Trip fabric (13) -/

/-- A trip group beyond its registers (R323, R326, R327). -/
structure Grp where
  /-- Copies that differ now. -/
  diff : BitVec 3 := 0
  /-- Ticks of the reloads of each copy within the last second. -/
  reloads : Tab (List Nat) := []
  /-- Some counted source was active at the last look. -/
  busy : Bool := false
  /-- Tick at which the quiet time began. -/
  quiet : Nat := 0
  /-- Tick of the last trip (R328). -/
  tripAt : Option Nat := none
  /-- The sources active at the last look, and those active at some moment of the tick `seenAt` (R323, R328). -/
  acts : List Nat := []
  seenAt : Nat := 0
  seen : List Nat := []
  /-- Tick of the last clear request accepted, and whether the group was sending block order sets (R328). -/
  cleared : Option (Nat × Bool) := none
  /-- Tick of the last re-arm, the state before it, and whether the group was sending block order sets (R328). -/
  rearmed : Option (Nat × Nat × Bool) := none
deriving DecidableEq, Repr

/-- A trip record waiting to be written (R329). -/
structure TripRec where
  time : Nat
  type : Nat
  group : Nat
  source : Nat
  period : Nat
  srcAct : Nat
deriving DecidableEq, Repr

/-- The trip fabric beyond its registers. -/
structure TripSt where
  groups : Tab Grp := []
  /-- The package source (R318). -/
  package : Bool := true
  /-- The block order set source. -/
  bos : Bool := false
  /-- Groups the firmware itself requests, the held request of a substitution apart (R318, R469). -/
  fw : BitVec 16 := 0
  /-- Tick of the last TRIP_FW_SET, and the groups set in it (R328). -/
  fwSetAt : Nat × BitVec 16 := (0, 0)
  /-- Active channel sources by code, in rising order. -/
  chan : List Nat := []
  /-- Records waiting for the writer, oldest first. -/
  recs : List TripRec := []
  /-- Records written since PORST_N. -/
  seq : Nat := 0
  /-- Groups whose assertion keeps the device sending block order sets (R322). -/
  sending : BitVec 16 := 0
  /-- Sets are sent under R24 until the controlled stop completes. -/
  stopSend : Bool := false
  /-- Lane → tick, plus 1, of the device's last own block order set on it (R328). -/
  ownAt : Tab Nat := []
deriving DecidableEq, Repr

/-! ## Redundancy (18) -/

/-- An event record of R479, its serial and CRC apart. -/
structure LogRec where
  type : Nat
  grade : Nat
  die : Nat
  cause : Nat
  item : Nat
  period : Nat
  word : Nat
  time : Nat
  serial : Nat
deriving DecidableEq, Repr

/-- A role change under way (R467). -/
structure Takeover where
  from_ : Die
  at_ : Nat
deriving DecidableEq, Repr

/-- What stood before a takeover that a cluster declaration began: the cluster, whether its work finds a place on the others, the event
records, LOG_LOST of the new worker, and the old worker's FAULT and CAUSE; a fault of the other die in the same tick brings it back
(R469, R481). -/
structure Declared where
  cluster : Nat
  fits : Bool
  logq : List LogRec
  lost : Nat
  lostSat : Nat
  newFrom : Nat
  fault : Nat
  cause : Nat
deriving DecidableEq, Repr

/-- The items of the ladder engine's image (R282, R458): band, changes and pin of a channel, err and s of an arm, h_c of a
member, a word of the health records. -/
inductive ImageItem where
  | band (n : Nat)
  | arm (a : Nat)
  | member (node : Nat)
  | health (i : Nat)
deriving DecidableEq, Repr

/-- The redundancy block beyond its registers. -/
structure RedSt where
  /-- The dies run the self-check of R465; the worker keeps its role meanwhile. -/
  checking : Bool := false
  /-- The tick of the discord that started it. -/
  checkAt : Nat := 0
  /-- Writes of this die are discarded and the other becomes worker (R467). -/
  takeover : Option Takeover := none
  declared : Option Declared := none
  /-- A die and a cluster declared faulty whose work is placed at the next boundary (R475, R481, log entry 170). -/
  placeDue : Option (Die × Nat) := none
  /-- The tick, t_v + 2 µs, before which no boundary applies the new worker's copies (R467). -/
  newFrom : Nat := 0
  /-- The old worker goes to SYNCING after the role change, not OUT (R469). -/
  takeoverSync : Bool := false
  /-- Full pass and one complete couching period done (R462). -/
  passDone : Bool := false
  /-- Couching of this period runs (R461). -/
  couching : Bool := false
  /-- A couching of the period has been completed since the full pass ended. -/
  couched : Bool := false
  /-- Tick at which the couching of this period began. -/
  couchAt : Nat := 0
  /-- The words couched in each period, as address and value, as the worker's and the passive's snapshots hold them. -/
  snapW : List (Nat × Nat) := []
  snapP : List (Nat × Nat) := []
  /-- The ladder engine's image at that tick, item by item, as the worker's and the passive's snapshots hold it. -/
  snapI : List (ImageItem × List Int × List Int) := []
  /-- Words written since the snapshot, in order of their first write: key of the word in RAM, and tick. -/
  dirty : List (Nat × Nat) := []
  /-- Event records waiting to be written, oldest first (R480). -/
  logq : List LogRec := []
  /-- Event records since PORST_N. -/
  serial : Nat := 0
  /-- Trip records copied to the log since PORST_N (R479). -/
  tripCopied : Nat := 0
  /-- Tick of the last rise of the grade, and the grade it rose from (R481). -/
  gradeAt : Option Nat := none
  gradeFrom : Nat := 0
  /-- Tick, plus 1, at which the copy of a bank into its spare began: 2 × die + region (R481). -/
  copyAt : Tab Nat := []
  /-- A controlled stop has begun at this tick (R478). -/
  stopAt : Option Nat := none
  /-- The stop has completed. -/
  stopped : Bool := false
  /-- The firmware trip request held during a substitution (R469, R475). -/
  substHold : Bool := false
  /-- A frame or commit of the passive was missing in this period (R464). -/
  pmissed : Bool := false
  /-- A die fault of the worker during CHECKING waits for the verdict (R481). -/
  workerFault : Option Nat := none
  /-- The passive agreed with the worker at boot (R92). -/
  agreedBoot : Bool := true
deriving DecidableEq, Repr

/-- Adaptive supply and substitution of one die (17, R449). -/
structure AdaptDie where
  /-- The cluster being substituted, whose routes are paused (R449). -/
  subst : Option Nat := none
  /-- The re-application is done; the CLE restarts at the next boundary. -/
  substReady : Bool := false
  /-- The cluster the spare has replaced. -/
  replaced : Option Nat := none
  /-- Load clusters declared faulty with no substitute (R475). -/
  lostClusters : BitVec 4 := 0
  /-- The CLE program that moves, from and to, by re-application of the pricking (R475). -/
  moveCle : Option (Nat × Nat) := none
deriving DecidableEq, Repr

/-! ## The Nolri link (15) -/

/-- A frame waiting to be sent (R365, R366). -/
structure OutFrame where
  type : Nat
  bcast : Bool
  hops : Nat
  src : Nat
  dst : Nat
  period : Nat
  payload : List Byte
deriving DecidableEq, Repr

/-- What a Nolri link holds beyond its registers. -/
structure NolLink where
  /-- Membership frames waiting, first first (R375). -/
  membQ : List OutFrame := []
  /-- The STATUS of this period has not gone yet. -/
  statusDue : Bool := false
  /-- STATUS frames being forwarded. -/
  statusQ : List OutFrame := []
  healthQ : List OutFrame := []
  bulkQ : List OutFrame := []
  /-- TC frames waiting for their slots, of the worker and of the passive (R374, R455). -/
  tcQ : List OutFrame := []
  tcP : List OutFrame := []
  /-- TX_TIME of the last four STATUS frames sent, newest first, in 2^-16 ns (R371). -/
  sentTx : List Nat := []
  /-- TX_TIME of the last STATUS received and its arrival, in 2^-16 ns. -/
  echo : Nat := 0
  echoAt : Nat := 0
  /-- BULK_CREDIT of the last STATUS, and when that STATUS left the peer (R376). -/
  credit : Nat := 0
  creditAt : Nat := 0
  /-- Units of the receive buffers in use: TC of this period, TC of the last, BULK (R378). -/
  tcNew : Nat := 0
  tcOld : Nat := 0
  bulkUse : Nat := 0
  /-- STATUS has passed in each direction on a PEER link, and the CP agreed (R387). -/
  stSent : Bool := false
  stGot : Bool := false
  cpOk : Bool := false
  serving : Bool := false
  /-- Positions kept out of the bond (R381). -/
  keptOut : BitVec 4 := 0
  /-- What each lane's last marker said, by bond position: position, set size, count. -/
  claims : Tab (Nat × Nat × Nat) := []
  /-- Bulk frames sent, newest first: time and bytes (R376). -/
  bulkSent : List (Nat × Nat) := []
  /-- RX_SET of the peer's last marker (R380). -/
  peerRx : BitVec 4 := 0xF
  markCount : Nat := 0
  /-- Times each position's sleep was announced in a row (R380). -/
  sleepSeen : Tab Nat := []
  /-- The dealing set the last markers named. -/
  dealing : Nat := 0
  /-- Instant at which the last frame and its gap end, in ps from the release of PORST_N (R365, R375). -/
  busyTo : Nat := 0
  /-- Block order sets sent on each position during the frame in progress (R364). -/
  bosOn : Tab Nat := []
  /-- The START tick last served (R374). -/
  slotAt : Nat := 0
deriving DecidableEq, Repr

/-- Nolri beyond its links (R362, R385, R386). -/
structure NolSt where
  /-- Route entries, least recently renewed first (R362). -/
  routeOrder : List Nat := []
  /-- UIDs of Cells whose LEAVE came in this period (R388). -/
  leftNow : List Nat := []
  /-- FROM of each member, by member entry (R384). -/
  memberFrom : Tab Nat := []
  /-- Period, plus 1, of the last HEALTH frame of each member, by member entry (R408). -/
  healthPer : Tab Nat := []
  /-- The Cell has begun its controlled stop (R385). -/
  leaving : Bool := false
deriving DecidableEq, Repr

/-! ## Adaptive supply and frequency (17) -/

/-- A region beyond its registers (R436 to R443). -/
structure RegionSt where
  /-- Consecutive updates with the slack above S_HI. -/
  hiRun : Nat := 0
  /-- An emergency has acted since the last update. -/
  emerged : Bool := false
  /-- The code a frequency step in progress leads to, and the tick in which the step began (R439, R451). -/
  stepTo : Option Nat := none
  stepAt : Nat := 0
  /-- Tick of the last emergency (R451). -/
  emergAt : Option Nat := none
  /-- Cycles of the core clock, in thousandths, up to tick `cycAt`, from which the present code counts (R129, R439). -/
  cyc : Nat := 0
  cycAt : Nat := 0
  /-- Tick since which the region has been cool under a cap. -/
  coolSince : Option Nat := none
  /-- The row of R443 in force: 0 none, 1 WARN, 2 HOT. -/
  heat : Nat := 0
  /-- The request that the last AVSBus Voltage write issued (R43, R437). -/
  issued : Option Nat := none
deriving DecidableEq, Repr

/-! ## Control-law engines (09, 10) -/

/-- The units of a CLE as the run stands, in cycles from its start. -/
structure Sched where
  issue : Nat := 0
  /-- Cycle at which a lane is free, by lane. -/
  lane : Tab Nat := []
  /-- Cycle at which a lane's accumulator may be read. -/
  acc : Tab Nat := []
  move : Nat := 0
  transfer : Nat := 0
  /-- State words being written: first word, count, cycle at which they may be read. -/
  words : List (Nat × Nat × Nat) := []
deriving DecidableEq, Repr

/-- What a loop does from the next run: rank of R242, code of R238, and whether it is an ending. -/
structure LoopPend where
  rank : Nat
  code : Nat
  ending : Bool
deriving DecidableEq, Repr

/-- A CLE beyond its registers and memories (R221 to R247). -/
structure CleSt where
  pc : Nat := 0
  /-- Period number of the run. -/
  k : Nat := 0
  /-- Accumulators in units of 2^-62, by lane, and ACC_OVF of each accumulation. -/
  acc : Tab Int := []
  ovf : BitVec 8 := 0
  sched : Sched := {}
  /-- What FBK delivered to each loop in this run. -/
  fb : Tab (Option Int) := []
  /-- MODE and FIRST of the loops at the start of the run (R227). -/
  mode : BitVec 32 := 0
  first : BitVec 32 := 0
  /-- Loops that MISS_LIMIT has stopped, which only a release lets go on (R245). -/
  missEnd : BitVec 32 := 0
  /-- LIM_HI and LIM_LO of the previous run (R232). -/
  limHi : BitVec 32 := 0
  limLo : BitVec 32 := 0
  /-- Actions and endings that apply from the next run. -/
  pend : Tab (Option LoopPend) := []
  /-- Latched releases (R241). -/
  rel : BitVec 32 := 0
  /-- Loops whose release was accepted: FIRST in the following run. -/
  firstNext : BitVec 32 := 0
  /-- Supervision has started at a gate release (R251). -/
  sup : Bool := false
  /-- A fault of this period's run acts as a miss at the next boundary (R246). -/
  missDue : Bool := false
  /-- A run has started since PORST_N. -/
  ran : Bool := false
  /-- The tick at which the internal port last wrote state memory, and the words it wrote in that tick (R222). -/
  portAt : Nat := 0
  port : List Nat := []
deriving DecidableEq, Repr

/-! ## Measurement (08) -/

/-- A decimation channel beyond its registers (R166 to R196). Bit lists run newest first. -/
structure MeasCh where
  /-- The run of equal samples at the end of the last frame: its level and length (R174). -/
  lineRun : Bool × Nat := (false, 0)
  /-- Input bits of the decimator, each with whether it was replaced (R176). -/
  hist : List (Bool × Bool) := []
  /-- Bits since the last output, and outputs since the restart (R182). -/
  fresh : Nat := 0
  outN : Nat := 0
  /-- The last 32 outputs X before the compensator, with their validity (R183). -/
  xs : List (Int × Bool) := []
  /-- The last X formed, over restarts (R170). -/
  xLast : Int := 0
  /-- The latest calibrated output: its tick, and its SAT, SUBST and OVL flags. -/
  yTick : Nat := 0
  ySat : Bool := false
  ySubst : Bool := false
  yOvl : Bool := false
  /-- An output has been published; the latest has been taken at a boundary (R190). -/
  seen : Bool := false
  taken : Bool := false
  /-- The run of equal bits: its value and length (R169). -/
  run : Bool × Nat := (false, 0)
  /-- An overload since the last output; outputs in a row with OVL (R170). -/
  ovl : Bool := false
  ovlRun : Nat := 0
  /-- The open-wire condition holds (R195). -/
  opened : Bool := false
  /-- Self-calibration: 0 idle, 1 waiting, 2 running; outputs still held after it (R186). -/
  cal : Nat := 0
  hold : Nat := 0
  /-- Temperature at the last calibration (R185). -/
  calTemp : Option Int := none
  /-- Open-wire test: 0 idle, 1 waiting, 2 running; X before it, and X within it, newest first. -/
  ow : Nat := 0
  owBefore : Int := 0
  owOuts : List Int := []
  /-- Temperature taken at the last boundary (R184). -/
  temp : Option Int := none
  /-- Freeze detector: hi, lo and cnt once a boundary has been seen (R196). -/
  frz : Option (Int × Int × Nat) := none
  frozen : Bool := false
  /-- Receiver: good and consecutive-bad counts, CAP and AUX bits of the last good frame, oldest first (R175, R176). -/
  good : Nat := 0
  bad : Nat := 0
  cap : List Bool := []
  aux : List Bool := []
  /-- The last two cells of the last frame, newest first, each with its mark; echo records kept (R178). -/
  tail : List (Bool × Bool) := []
  echoN : Nat := 0
  /-- Auxiliary decimator (R180). -/
  auxHist : List Bool := []
  auxFresh : Nat := 0
  auxN : Nat := 0
  /-- Fast path: bits, bits since its last output, and outputs in a row beyond each threshold (R191). -/
  fp : List Bool := []
  fpFresh : Nat := 0
  fpOv : Nat := 0
  fpUv : Nat := 0
  fpOvOn : Bool := false
  fpUvOn : Bool := false
  /-- Zero crossings of the output: bits of the stream so far, the last output's value, armed, and the bit position of the
  latest crossing with the bits since the one before it (R193). -/
  pos : Nat := 0
  prevY : Option Int := none
  armed : Bool := false
  cross : Option Int := none
  cycle : Option Int := none
deriving DecidableEq, Repr

/-- An integrating unit beyond its registers (R192 to R194). -/
structure InjSt where
  n : Nat := 0
  left : Nat := 0
  ones : Nat := 0
  measured : Bool := false
  valid : Bool := true
  subst : Bool := false
  ovl : Bool := false
  seq : Nat := 0
  /-- Bits that came after the window's last and before the next window, oldest first. -/
  extra : List (Bool × Bool) := []
deriving DecidableEq, Repr
/-! ## Balancing (11) -/

/-- A channel of a Cell as its ladder engine and health task see it (R254 to R256, R276 to R278). -/
structure BalCh where
  /-- Boundaries still to pass free of automatic cause 1 to 5 before it clears (R255). -/
  left : Tab Nat := []
  /-- Latched causes FAULT and BYPASSED. -/
  fault : Bool := false
  bypassed : Bool := false
  /-- A reinstatement request waits for the next boundary. -/
  reinst : Bool := false
  /-- The channel's command in the period before. -/
  cmd : Nat := 0
  /-- The last three boundaries, newest first: Y, whether the snapshot is VALID without SUBST, and the command. -/
  hist : List (Int × Bool × Nat) := []
  /-- The insertion interval in progress: Y at its start, whether it may still give a sample, periods, and the sum of
  IMEAN (R276). -/
  span : Option (Int × Bool × Nat × Int) := none
  /-- Evaluations in a row that did not exceed, for C and for ESR (R278). -/
  calmC : Nat := 0
  calmR : Nat := 0
deriving DecidableEq, Repr

/-- The ladder engine of a Cell on one die (R254 to R271). -/
structure BalCell where
  /-- The ladder of the present period: key and channel, ascending. -/
  ladder : List (Nat × Nat) := []
  built : Bool := false
  /-- A valid threshold frame was applied in this period. -/
  applied : Bool := false
  /-- The commands of the present, and of the next period are held under R271. -/
  held : Bool := false
  heldNext : Bool := false
  /-- IMEAN of the frame applied in this period. -/
  imean : Option Int := none
deriving DecidableEq, Repr

/-- A ladder a Hub holds for its merge (R259, R260). -/
structure HubLadder where
  period : Nat
  keys : List Nat
  sumAll : Int
deriving DecidableEq, Repr

/-- A member of the merge as a Hub's ladder engine sees it (R272, R273). -/
structure HubMem where
  arm : Nat := 0
  from_ : Nat := 0
  /-- Signed count h_c, and the tick at which it was last written (R461). -/
  hc : Int := 0
  hcAt : Nat := 0
  /-- Held since its last merged ladder. -/
  held : Bool := false
  miss : Nat := 0
  /-- Expected counts by period, newest first. -/
  expect : List (Nat × Int) := []
  lads : List HubLadder := []
  /-- The period in which it left by LADDER_MISS, for an engine that has yet to take that period's counts. -/
  gone : Option Nat := none
deriving DecidableEq, Repr

/-- An arm of a Hub (R261, R264). -/
structure HubArm where
  /-- The tick at which `err` and `s` were last written (R461). -/
  at_ : Nat := 0
  err : Int := 0
  s : Bool := false
  iPrev : Option Int := none
deriving DecidableEq, Repr

/-! ## Serial lanes (14) -/

/-- A lane beyond its registers (R339 to R356). -/
structure LaneSt where
  /-- The attempt is a poll of R351. -/
  poll : Bool := false
  /-- Signal detect has been asserted in this attempt. -/
  sdSeen : Bool := false
  /-- Consecutive valid words with READY received, and words sent with READY (R342). -/
  readyGot : Nat := 0
  readySent : Nat := 0
  /-- Consecutive FoM below FOM_MIN, and below FOM_MIN + 16 (R346, R347). -/
  low : Nat := 0
  ctleLow : Nat := 0
  /-- The FoM before a step towards higher peaking whose effect is not measured yet. -/
  stepFrom : Option Nat := none
  /-- The search of R345: codes measured so far, and the best of them with its FoM. -/
  eqSeen : Nat := 0
  eqBest : Nat × Nat := (0, 0)
  /-- Pattern checker: the last bits of its reference, newest first, and consecutive error-free bits before lock (R355). -/
  prbsRef : List Bool := []
  prbsGood : Nat := 0
  /-- Pattern generator: the last 31 bits it sent, newest first (R355). -/
  prbsGen : List Bool := []
deriving DecidableEq, Repr

/-! ## Servo, PTP and picot (16) -/

/-- The servo beyond its registers (R421 to R425). -/
structure ServoSt where
  /-- Sum and count of the offsets of the CYCLEs averaged so far. -/
  sum : Int := 0
  count : Nat := 0
  /-- Consecutive samples within LOCK_TH, and beyond four times LOCK_TH. -/
  near : Nat := 0
  far : Nat := 0
  /-- Time was taken from the parent (R424). -/
  taken : Bool := false
deriving DecidableEq, Repr

/-- A foreign master a PTP port has heard (IEEE 1588-2019 clause 9.3). -/
structure Foreign where
  msg : PtpAnnounceMsg
  /-- Ticks of its last Announce and of the one before it. -/
  at_ : Nat
  prev : Option Nat := none
deriving DecidableEq, Repr

/-- A PTP port beyond its registers (R417 to R420). -/
structure PtpPort where
  foreign : List Foreign := []
  /-- A two-step Sync that waits for its Follow_Up: sequence number, t2 and correction. -/
  sync : Option (Nat × Int × Int) := none
  /-- The last Pdelay_Req sent: sequence number and t1, corrected. -/
  req : Option (Nat × Int) := none
  /-- A two-step Pdelay_Resp that waits for its Follow_Up: sequence number, t2, t4 and correction. -/
  resp : Option (Nat × Int × Int × Int) := none
  /-- meanLinkDelay in 2^-16 ns, once measured. -/
  delay : Option Int := none
  /-- Sequence numbers of the next Pdelay_Req, Sync and Announce. -/
  reqSeq : Nat := 0
  syncSeq : Nat := 0
  annSeq : Nat := 0
deriving DecidableEq, Repr

/-- A picot output beyond its registers (R426, R427). -/
structure PicotSt where
  /-- Time of the next pulse. -/
  next : Option Nat := none
  /-- Tick at which the pulse in progress ends. -/
  ends : Option Nat := none
  /-- A pulse fell due in the tick of a commit, under the values the commit replaced: that tick, and their WIDTH (R428). -/
  due : Option (Nat × Nat) := none
deriving DecidableEq, Repr


/-! ## Station network (16) -/

/-- A pair of Ethernet ports (R397 to R400). -/
structure NetPair where
  /-- Duplicate table, newest first: source MAC and sequence number (R399). -/
  dup : List (Nat × Nat) := []
  /-- The pair's own sequence number (R398, R400). -/
  seq : Nat := 0
  /-- Supervision frames received, and the SAT bit of their counter (R9, R398). -/
  superv : Nat := 0
  supervSat : Bool := false
deriving DecidableEq, Repr

/-- The sending side of an Ethernet port (R396): the tick at which the frame in progress ends with its gap, the frames that wait,
each with its rank, in order of arrival, and of the last frame begun its first tick, its rank and itself. -/
structure EthPort where
  busyTo : Nat := 0
  queue : List (Nat × Output) := []
  begun : Option (Nat × Nat × Output) := none
deriving DecidableEq, Repr

/-- A sample held for a sampled-value subscription (R409, R410): its tick of completion, time in 2^-32 ns, smpCnt,
smpSynch and pairs of value and quality. -/
structure SvSample where
  tick : Nat
  t : Int
  cnt : Nat
  synch : Nat
  pairs : List (Nat × Nat)
deriving DecidableEq, Repr

/-- A sampled-value subscription beyond its registers (R410 to R412). -/
structure SvSub where
  /-- The newest sample, and the one that was newest before the tick of its completion. -/
  cur : Option SvSample := none
  prev : Option SvSample := none
  /-- Consecutive samples without a gap, 4 at most. -/
  run : Nat := 0
deriving DecidableEq, Repr

/-- A GOOSE subscription beyond its registers (R415, R416). -/
structure GooseSub where
  /-- A frame has been accepted since EN, and since STALE. -/
  seen : Bool := false
  sq : Nat := 0
  ttl : Nat := 0
deriving DecidableEq, Repr

/-- A maintenance operation (R404). -/
inductive MaintOp where
  | bad
  | read (addr count : Nat) (passive : Bool)
  | readSignal (index : Nat)
  | identity (off count : Nat)
  | begin (kind total : Nat)
  | attest (nonce : Nat)
  | data (off : Nat) (bytes : List Byte)
  /-- DELIVER_END: its CRC, whether what is written then reads back, and whether a check of the image meets a read error. -/
  | finish (crc : Nat) (readBack readError : Bool)
  | stat
deriving DecidableEq, Repr

/-- A request that waits in the queue of R408. -/
structure MaintReq where
  port : Nat
  /-- Source MAC of the requester, and OP of the request (R403). -/
  mac : Nat
  code : Nat
  tag : Nat
  op : MaintOp
deriving DecidableEq, Repr

/-- A delivery in progress (R407). -/
structure Delivery where
  kind : Nat
  total : Nat
  next : Nat
  /-- First flash offset, or none where the image is held in region SRAM (R116). -/
  base : Option Nat
  /-- Bytes 0 to 3, held back. -/
  head : List Byte
deriving DecidableEq, Repr

/-- The maintenance service beyond its registers (R402 to R408, R118). -/
structure MaintSt where
  /-- Requests waiting, oldest first. -/
  queue : List MaintReq := []
  deliv : Option Delivery := none
  /-- The report being signed: port, MAC and tag of its request, and bytes 0x000 to 0x0C7. -/
  signing : Option (Nat × Nat × Nat × List Byte) := none
deriving DecidableEq, Repr


/-! ## The whole state -/

/-- A GOOSE publication beyond its registers (R414, R428). -/
structure GooseSt where
  /-- Interval of the repetitions in ms, 0 when none runs. -/
  iv : Nat := 0
  /-- Tick of the last change, and what changed in it: SEND, or a group by its number. -/
  at_ : Option Nat := none
  why : List (Option Nat) := []
  /-- stNum, sqNum, the interval and the published values before that change. -/
  stNum : Nat := 0
  sqNum : Nat := 0
  ivWas : Nat := 0
  vals : List Nat := []
deriving DecidableEq, Repr

/-- The state of the block. -/
structure State where
  /-- Active register values (R4); a value stands as value XOR reset, so that reset lists nothing. -/
  regs : Tab Nat := []
  /-- Shadows of SH fields: the worker's, which reads return, and the passive's comparison copy (R7, R455). -/
  shadow : Tab Nat := []
  shadowP : Tab Nat := []
  /-- Staging copies of the shadow sets (R292). -/
  stagedW : Tab Nat := []
  stagedP : Tab Nat := []
  /-- Commit status of the shadow sets; a die's own sets stand at 0x10000 × (1 + die) + number. -/
  sets : Tab SetSt := []
  /-- SRAM, CLE memories and the byte tables of the I/O die window: die or window number × 2^32 + address. -/
  ram : List Host.Cell := []
  /-- Flash bytes by offset; an unlisted byte reads as erased. -/
  flash : List Host.Cell := []
  tb : Timebase := {}
  pins : Pins := {}
  power : Power := {}
  jtag : Jtag := {}
  boot : Boot := {}
  rewrite : Option Rewrite := none
  /-- Bobbin instances: 4 × die + cluster. -/
  bobs : Tab Bobbin := []
  /-- Cores: 16 × die + core. -/
  cores : Tab CoreSt := []
  /-- Locks: 64 × die + lock; last owners beside them (R146). -/
  locks : Tab LockSt := []
  lockLast : Tab LockWas := []
  /-- Pending latches of event sources: 256 × die + source, in order of holding (R140). -/
  latched : List Nat := []
  /-- Ticks of faults within the last second: 8 × die + 2 × cluster for cores, plus 1 for the CLE (R147, R246). -/
  faultTicks : Tab (List Nat) := []
  /-- Ground targets: 64 × die + target. -/
  gnd : Tab GndTarget := []
  /-- Lottery registers and cycle counts of the four arbitration clocks: 4 × die + clock (R154). -/
  lfsr : Tab Nat := []
  gndClk : Tab Nat := []
  /-- Cycle, plus 1, of the last burst of each emergency requester on each clock: 8 × die + 2 × clock + requester mod 2
  (R153). -/
  gndEm : Tab Nat := []
  gen : Tab GenCh := []
  sync : SyncSt := {}
  trip : TripSt := {}
  red : RedSt := {}
  /-- Per die: adaptive loops and substitution. -/
  adapt : Tab AdaptDie := []
  /-- GOOSE publications by block (R414). -/
  gooseSt : Tab GooseSt := []
  /-- GOOSE publications: last published values, 32 × block + entry. -/
  goosePub : Tab Nat := []
  /-- CLE trip requests, 4 × die + CLE: groups in bits 15 to 0, bit 16 while a loop is TRIPPED (R318). -/
  cleReq : Tab Nat := []
  links : Tab NolLink := []
  nol : NolSt := {}
  /-- Regions: 2 × die + region. -/
  regions : Tab RegionSt := []
  /-- Placement: entry 128 × die + i → 1 + its present cluster, 5 when shed, unlisted at HOME (R447, R475). -/
  placed : Tab Nat := []
  /-- Tick of an entry's last move, plus 1. -/
  movedAt : Tab Nat := []
  /-- CLEs: 4 × die + CLE. -/
  cles : Tab CleSt := []
  /-- Decimation channels, and integrating units. -/
  meas : Tab MeasCh := []
  inj : Tab InjSt := []
  /-- Ladder engines: channels of a Cell, 128 × die + channel; the Cell's engine, by die; a Hub's members by node,
  0x1000 × die + node, and its arms, 8 × die + arm. -/
  balCh : Tab BalCh := []
  balCell : Tab BalCell := []
  hubMem : Tab (Option HubMem) := []
  hubArm : Tab HubArm := []
  lanes : Tab LaneSt := []
  servo : ServoSt := {}
  ptp : Tab PtpPort := []
  picot : Tab PicotSt := []
  netPair : Tab NetPair := []
  /-- Ethernet port → its sending side. -/
  eth : Tab EthPort := []
  svSub : Tab SvSub := []
  gooseSub : Tab GooseSub := []
  maint : MaintSt := {}
  /-- Free values drawn so far. -/
  freeCtr : Nat := 0
  /-- What the block has sent, newest first. -/
  out : List Output := []
  /-- Commands waiting, first in first out. -/
  pending : List Instr := []
deriving DecidableEq, Repr

/-- The block right after reset: PORST_N asserted, every register at its reset value, nothing waiting. -/
def State.reset : State := {}

end Sys2Proof.Machine
end

