-- ==== Sys2Proof/Machine/Flags.lean ====
section
/-! DEFINITION. Register fields, sticky flags and event counters: every read and write of a register goes through here
(R4 to R13). -/

namespace Sys2Proof.Machine

/-- Where a field is held: 0 and 1 the peripherals of a die, 2 the I/O die window, 3 the OTP area. -/
def fieldLoc (d : Die) (a : Nat) : Nat :=
  if 0x70000000 ≤ a then 3 else if 0x50000000 ≤ a then d.toNat else 2

/-- The table key of a field as die `d` addresses it. -/
def fieldKey (d : Die) (f : Field) : Nat := (fieldLoc d f.addr * 2 ^ 32 + f.addr) * 32 + f.lo

/-- The active value of a field, within its width. -/
def State.rd (s : State) (d : Die) (f : Field) : Nat := (tabGet 0 s.regs (fieldKey d f) ^^^ f.reset) % 2 ^ f.width

/-- The state with active value `v` in a field, cut to the field's width. -/
def State.wr (s : State) (d : Die) (f : Field) (v : Nat) : State :=
  { s with regs := tabSet 0 s.regs (fieldKey d f) ((v % 2 ^ f.width) ^^^ f.reset) }

/-- A field of the I/O die window. -/
def State.io (s : State) (f : Field) : Nat := s.rd .d0 f

/-- A write to a field of the I/O die window. -/
def State.setIo (s : State) (f : Field) (v : Nat) : State := s.wr .d0 f v

/-- A one-bit field as a truth value. -/
def State.bit (s : State) (d : Die) (f : Field) : Bool := s.rd d f = 1

/-- A one-bit field of the I/O die window. -/
def State.ioBit (s : State) (f : Field) : Bool := s.io f = 1

/-- The shadow of an SH field (R7). -/
def State.rdSh (s : State) (d : Die) (f : Field) : Nat := (tabGet 0 s.shadow (fieldKey d f) ^^^ f.reset) % 2 ^ f.width

/-- A write to the shadow of an SH field. -/
def State.wrSh (s : State) (d : Die) (f : Field) (v : Nat) : State :=
  { s with shadow := tabSet 0 s.shadow (fieldKey d f) ((v % 2 ^ f.width) ^^^ f.reset) }

/-- The passive's comparison copy of an SH field (R455). -/
def State.rdShP (s : State) (d : Die) (f : Field) : Nat := (tabGet 0 s.shadowP (fieldKey d f) ^^^ f.reset) % 2 ^ f.width

/-- A write to the passive's comparison copy. -/
def State.wrShP (s : State) (d : Die) (f : Field) (v : Nat) : State :=
  { s with shadowP := tabSet 0 s.shadowP (fieldKey d f) ((v % 2 ^ f.width) ^^^ f.reset) }

/-- The test state of the device: TEST_EN was high at PORST_N release (R51, R52). -/
def State.testState (s : State) : Bool := s.bit .d0 Reg.SYS_STRAP_TEST_EN

/-- Hardware sets a sticky flag (R8). -/
def State.raise (s : State) (d : Die) (f : Field) : State := s.wr d f 1

/-- Hardware sets a sticky flag of the I/O die window. -/
def State.raiseIo (s : State) (f : Field) : State := s.wr .d0 f 1

/-- The greatest value of a 32-bit counter. -/
def counterMax : Nat := 0xFFFFFFFF

/-- `n` events counted in one cycle: the counter adds, or holds at its maximum and sets its SAT bit (R9). -/
def State.count (s : State) (d : Die) (cnt sat : Field) (n : Nat) : State :=
  if s.rd d cnt + n ≤ counterMax then s.wr d cnt (s.rd d cnt + n)
  else (s.wr d cnt counterMax).wr d sat 1

/-- One event of a counter of the I/O die window. -/
def State.countIo (s : State) (cnt sat : Field) : State := s.count .d0 cnt sat 1

/-- A W1C write of 1 to a SAT bit in a cycle that also counts `n` events: the counter is zeroed, then the events are
added, and SAT sets only when those events alone pass the maximum (R10). -/
def State.satClear (s : State) (d : Die) (cnt sat : Field) (n : Nat) : State :=
  ((s.wr d sat 0).wr d cnt 0).count d cnt sat n

/-- A narrow count that sticks at its field's maximum. -/
def State.stick (s : State) (d : Die) (f : Field) : State :=
  if s.rd d f + 1 < 2 ^ f.width then s.wr d f (s.rd d f + 1) else s

/-- A free value: the next one drawn, constrained by nothing. -/
def State.draw (s : State) (n : Nat) : State := { s with freeCtr := s.freeCtr + n }

/-- What leaves the block. -/
def State.send (s : State) (o : Output) : State := { s with out := o :: s.out }

end Sys2Proof.Machine
end

