-- ==== Sys2Proof/Machine/Ops.lean ====
section
/-! DEFINITION. The named operations every block uses: tables of the state, bytes and words, CRC-32C, the time value,
roles, and the posting of events to Bobbin. -/

namespace Sys2Proof.Machine

/-- The outcome of a command. -/
abbrev Result := Host.Outcome State Fault Refusal

/-! ## Bits and bytes -/

/-- Bit `i` of a number. -/
def bitOf (n i : Nat) : Bool := n / 2 ^ i % 2 = 1

/-- A number with bit `i` set to `b`. -/
def withBit (n i : Nat) (b : Bool) : Nat :=
  if bitOf n i = b then n else if b then n + 2 ^ i else n - 2 ^ i

/-- A bit vector with bit `i` set to `b`. -/
def setBit {w : Nat} (v : BitVec w) (i : Nat) (b : Bool) : BitVec w :=
  if b then v ||| BitVec.ofNat w (2 ^ i) else v &&& ~~~(BitVec.ofNat w (2 ^ i))

/-- The numbers below `n` whose bit is set in `m`, ascending. -/
def bitsBelow (n m : Nat) : List Nat := (List.range n).filter (fun i => bitOf m i)

/-- A signed reading of the low `w` bits. -/
def signed (w n : Nat) : Int :=
  if n % 2 ^ w < 2 ^ (w - 1) then (n % 2 ^ w : Nat) else ((n % 2 ^ w : Nat) : Int) - 2 ^ w

/-- The low `w` bits of an integer, as a two's complement number. -/
def unsigned (w : Nat) (z : Int) : Nat := (z % 2 ^ w).toNat

/-- `n` bytes of a number, least significant first. -/
def bytesOf : (n v : Nat) → List Byte
  | 0, _ => []
  | n + 1, v => BitVec.ofNat 8 v :: bytesOf n (v / 256)

/-- The number that little-endian bytes hold. -/
def natOf : List Byte → Nat
  | [] => 0
  | b :: bs => b.toNat + 256 * natOf bs

/-- The `n` bytes of a list from `off`. -/
def slice (bs : List Byte) (off n : Nat) : List Byte := (bs.drop off).take n

/-- A little-endian number inside a byte list. -/
def field (bs : List Byte) (off n : Nat) : Nat := natOf (slice bs off n)

/-- One bit step of the reflected CRC-32C (R81). -/
def crcStep (c : Nat) : Nat := if c % 2 = 1 then (c / 2) ^^^ 0x82F63B78 else c / 2

/-- CRC-32C of bytes from a running value. -/
def crcRun : Nat → List Byte → Nat
  | c, [] => c
  | c, b :: bs =>
    crcRun (crcStep (crcStep (crcStep (crcStep (crcStep (crcStep (crcStep (crcStep (c ^^^ b.toNat))))))))) bs

/-- CRC-32C (R81). -/
def crc32c (bs : List Byte) : Nat := crcRun 0xFFFFFFFF bs ^^^ 0xFFFFFFFF

/-- Serial comparison of 32-bit numbers: `a` is later than `b` (R68, R88). -/
def later (a b : Nat) : Bool :=
  let d := (a + 2 ^ 32 - b % 2 ^ 32) % 2 ^ 32
  1 ≤ d ∧ d ≤ 2 ^ 31 - 1

/-- Ceiling division. -/
def ceilDiv (a b : Nat) : Nat := (a + b - 1) / b

/-! ## Memories -/

/-- What an unlisted byte of RAM reads as (log entry 4). -/
def ramDefault : Byte := 0

/-- What an unlisted byte of flash reads as: erased (log entry 5). -/
def flashDefault : Byte := 0xFF

/-- The canonical form of the memories. -/
def Memory.wf (s : State) : Bool := tabWf ramDefault s.ram && tabWf flashDefault s.flash

/-- Key of a RAM byte: location 0 or 1 a die, 2 the I/O die window. -/
def ramKey (loc a : Nat) : Nat := loc * 2 ^ 32 + a

/-- A byte of RAM. -/
def State.ram8 (s : State) (loc a : Nat) : Byte := tabGet ramDefault s.ram (ramKey loc a)

/-- The first write of a control die's word since the couching snapshot is noted (R461). -/
def State.noteWrite (s : State) (loc a : Nat) : RedSt :=
  let k := ramKey loc (a / 4 * 4)
  if s.red.couching && loc < 2 && s.red.dirty.all (fun p => p.1 ≠ k) then
    { s.red with dirty := s.red.dirty ++ [(k, s.tb.ticks)] }
  else s.red

/-- A byte written to RAM. -/
def State.setRam8 (s : State) (loc a : Nat) (b : Byte) : State :=
  { s with ram := tabSet ramDefault s.ram (ramKey loc a) b, red := s.noteWrite loc a }

/-- `n` bytes of RAM from an address up. -/
def State.ramBytes (s : State) (loc a : Nat) : Nat → List Byte
  | 0 => []
  | n + 1 => s.ram8 loc a :: State.ramBytes s loc (a + 1) n

/-- Bytes written to RAM from an address up. -/
def State.setRamBytes (s : State) (loc a : Nat) : List Byte → State
  | [] => s
  | b :: bs => State.setRamBytes (s.setRam8 loc a b) loc (a + 1) bs

/-- A little-endian word of RAM. -/
def State.ram32 (s : State) (loc a : Nat) : Nat := natOf (s.ramBytes loc a 4)

/-- A little-endian word written to RAM. -/
def State.setRam32 (s : State) (loc a v : Nat) : State := s.setRamBytes loc a (bytesOf 4 v)

/-- A CLE beyond its registers. -/
def State.cle (s : State) (d : Die) (c : Nat) : CleSt := tabGet {} s.cles (4 * d.toNat + c)
def State.setCle (s : State) (d : Die) (c : Nat) (x : CleSt) : State :=
  { s with cles := tabSet {} s.cles (4 * d.toNat + c) x }

/-- The internal port has written the state word of a byte address in this tick, so an external write of it is lost (R222). -/
def State.smTaken (s : State) (d : Die) (a : Nat) : Bool :=
  let x := s.cle d ((a - 0x30000000) / 0x10000)
  0x30000000 ≤ a && a < 0x30040000 && 0x8000 ≤ a % 0x10000 && x.portAt = s.tb.ticks && x.port.contains (a % 0x10000 / 4 - 0x2000)

/-- A word that another unit writes into a memory of the die (R222). -/
def State.extWord (s : State) (d : Die) (a v : Nat) : State := if s.smTaken d a then s else s.setRam32 d.toNat a v

/-- A byte of flash. -/
def State.flash8 (s : State) (off : Nat) : Byte := tabGet flashDefault s.flash off

/-- `n` bytes of flash from an offset. -/
def State.flashBytes (s : State) (off : Nat) : Nat → List Byte
  | 0 => []
  | n + 1 => s.flash8 off :: State.flashBytes s (off + 1) n

/-- Bytes programmed into flash from an offset. -/
def State.setFlashBytes (s : State) (off : Nat) : List Byte → State
  | [] => s
  | b :: bs => State.setFlashBytes { s with flash := tabSet flashDefault s.flash off b } (off + 1) bs

/-- Flash bytes from `off` to `off + n` erased. -/
def State.eraseFlash (s : State) (off n : Nat) : State :=
  { s with flash := s.flash.filter (fun c => !(decide (off ≤ c.1) && decide (c.1 < off + n))) }

/-! ## Tables of the state -/

def State.bob (s : State) (d : Die) (c : Nat) : Bobbin := tabGet {} s.bobs (4 * d.toNat + c)
def State.setBob (s : State) (d : Die) (c : Nat) (b : Bobbin) : State :=
  { s with bobs := tabSet {} s.bobs (4 * d.toNat + c) b }
def State.core (s : State) (d : Die) (c : Nat) : CoreSt := tabGet {} s.cores (16 * d.toNat + c)
def State.setCore (s : State) (d : Die) (c : Nat) (x : CoreSt) : State :=
  { s with cores := tabSet {} s.cores (16 * d.toNat + c) x }
/-- Reservations that the die's cores but `core` hold on a written word are lost (R123, log entry 44). -/
def State.breakResv (s : State) (d : Die) (core a : Nat) : State :=
  (List.range 12).foldl (fun s k =>
    if k ≠ core && (s.core d k).resv = some (a / 4 * 4) then s.setCore d k { s.core d k with resv := none } else s) s
def State.genCh (s : State) (n : Nat) : GenCh := tabGet {} s.gen n
def State.setGenCh (s : State) (n : Nat) (g : GenCh) : State := { s with gen := tabSet {} s.gen n g }
/-- The command that channel `n` has now: that of the last carrier change whose instant has come, else the one a register
write or a boundary left (R283, R296). -/
def State.actNow (s : State) (n : Nat) : Nat :=
  match ((s.genCh n).chg.filter (fun c => c.at_ / 16 ≤ s.tb.ticks)).getLast? with
  | some c => c.cmd
  | none => s.io (Reg.GEN_CMD_ACT n)
def State.grp (s : State) (g : Nat) : Grp := tabGet {} s.trip.groups g
def State.setGrp (s : State) (g : Nat) (x : Grp) : State :=
  { s with trip := { s.trip with groups := tabSet {} s.trip.groups g x } }
def State.adaptOf (s : State) (d : Die) : AdaptDie := tabGet {} s.adapt d.toNat
def State.setAdapt (s : State) (d : Die) (a : AdaptDie) : State := { s with adapt := tabSet {} s.adapt d.toNat a }
def State.setOf (s : State) (n : Nat) : SetSt := tabGet {} s.sets n
def State.setSet (s : State) (n : Nat) (x : SetSt) : State := { s with sets := tabSet {} s.sets n x }

/-! ## Time (R61) -/

/-- One nanosecond in units of the time value. -/
def nsUnit : Nat := 2 ^ 32

/-- One second in units of the time value. -/
def secUnit : Nat := 10 ^ 9 * 2 ^ 32

/-- The addend that the last sample, or the reset, left (R422). -/
def State.newAddend (s : State) : Nat := s.io Reg.TB_ADDEND_HI_NS * 2 ^ 32 + s.io Reg.TB_ADDEND_LO_FRAC

/-- TB_ADDEND as one number: the addend of the present tick, which the next one adds. In the tick of a sample it is the one
before the sample's (R422). -/
def State.addend (s : State) : Nat :=
  match s.tb.addOld with
  | some (t, a) => if s.tb.ticks ≤ t then a else s.newAddend
  | none => s.newAddend

/-- What `n` ticks from now add to the time value (R61, R422). -/
def State.elapsed (s : State) (n : Nat) : Nat := if n = 0 then 0 else s.addend + (n - 1) * s.newAddend

/-- Ticks after which the time value has grown by at least `u` (R61, R422). -/
def State.ticksFor (s : State) (u : Nat) : Nat :=
  if u = 0 then 0 else if u ≤ s.addend then 1 else 1 + ceilDiv (u - s.addend) s.newAddend

/-- CP_ns in units of the time value (R65). -/
def State.cpUnits (s : State) : Nat := 2 * s.io Reg.TB_PERIOD_CP * 2 ^ 32

/-- The time value after the timebase has run to tick `t`, or the present state where `t` has passed. -/
def State.runTo (s : State) (t : Nat) : State :=
  if t ≤ s.tb.ticks then s
  else { s with tb := { s.tb with ticks := t, time := s.tb.time + s.elapsed (t - s.tb.ticks) } }

/-- The first tick at which the time value is at least `u`. -/
def State.tickAt (s : State) (u : Nat) : Nat :=
  s.tb.ticks + s.ticksFor (u - s.tb.time)

/-- The tick `n` after the boundary lies in the present period: a count beyond its last tick is not reached, and what it
would have placed is dropped (R66). -/
def State.inPeriod (s : State) (n : Nat) : Bool := decide (s.tb.bTick + n < s.tickAt s.tb.nextB)

/-- The guard tick of the next boundary: GUARD ticks before its tick (R69). -/
def State.guardTick (s : State) : Nat := s.tickAt s.tb.nextB - s.io Reg.TB_GUARD_GUARD

/-- No commit of the period is accepted any more: the guard tick has come (R69). -/
def State.inGuard (s : State) : Bool := s.tb.guarded || decide (s.guardTick ≤ s.tb.ticks)

/-- One tick of the timebase (R61). -/
def State.tick (s : State) : State := s.runTo (s.tb.ticks + 1)

/-- Seconds, 48 bits. -/
def secOf (t : Nat) : Nat := t / secUnit % 2 ^ 48
/-- Nanoseconds, 0 to 999 999 999. -/
def nsOf (t : Nat) : Nat := t % secUnit / nsUnit
/-- The upper 8 bits of the fraction. -/
def fracOf (t : Nat) : Nat := t % nsUnit / 2 ^ 24

/-! ## Roles (R455, R456) -/

/-- State code of a die in RED_DIE. -/
def State.dieState (s : State) (d : Die) : Nat := s.io (Reg.RED_DIE_STATE d.toNat)

/-- The die that holds the worker role. -/
def State.worker (s : State) : Option Die :=
  if s.io (Reg.RED_DIE_WORKER 0) = 1 then some .d0
  else if s.io (Reg.RED_DIE_WORKER 1) = 1 then some .d1 else none

/-- Die `d` holds the worker role. -/
def State.isWorker (s : State) (d : Die) : Bool := s.worker = some d

/-- The worker's writes take effect; those of a die from which a takeover runs are discarded (R467). -/
def State.mayWrite (s : State) (d : Die) : Bool :=
  s.isWorker d && (match s.red.takeover with | some t => decide (t.from_ ≠ d) | none => true)

/-- OUT, RETIRED or ABSENT (R456). -/
def State.lost (s : State) (d : Die) : Bool := s.dieState d = 4 || s.dieState d = 6 || s.dieState d = 7

/-- WORKER, PASSIVE, SYNCING or CHECKING (R456). -/
def State.inService (s : State) (d : Die) : Bool := s.dieState d ≤ 3

/-- Some die is PASSIVE. -/
def State.hasPassive (s : State) : Bool := s.dieState .d0 = 1 || s.dieState .d1 = 1

/-- BOOT_STAT.PHASE of the worker, or of die 0 before a worker stands (R100). -/
def State.phase (s : State) : Nat := s.rd (s.worker.getD .d0) Reg.BOOT_STAT_PHASE

/-- PHASE on both dies. -/
def State.setPhase (s : State) (p : Nat) : State :=
  (s.wr .d0 Reg.BOOT_STAT_PHASE p).wr .d1 Reg.BOOT_STAT_PHASE p

def phaseRom : Nat := 0
def phaseStage1 : Nat := 1
def phaseFwVerify : Nat := 2
def phaseApply : Nat := 3
def phaseLanes : Nat := 4
def phaseMembership : Nat := 5
def phaseReady : Nat := 6
def phaseRun : Nat := 7
def phaseMaint : Nat := 0xE
def phaseStopped : Nat := 0xF

/-- A Hub, from SYS_NODE.ROLE as the pricking applied it (R18). -/
def State.isHub (s : State) : Bool := s.rd (s.worker.getD .d0) Reg.SYS_NODE_ROLE = 1

/-- The physical cluster that holds logical cluster `c` (R449, R453). -/
def State.phys (s : State) (d : Die) (c : Nat) : Nat := s.rd d Reg.PL_MAP_PHYS / 4 ^ c % 4

/-- The cluster of a core (R121). -/
def clusterOf (core : Nat) : Nat := core / 3

/-- Cycles of a region's core clock, in thousandths, 2 ns a tick at 800 MHz + 50 MHz × code (R439). -/
def State.clockMilli (s : State) (d : Die) (r : Nat) : Nat :=
  let x := tabGet {} s.regions (2 * d.toNat + r)
  x.cyc + (s.tb.ticks - x.cycAt) * 2 * (800 + 50 * s.rd d (Reg.AVS_FREQ_CUR r))

/-- A core as its reset leaves it: its counters count from now (R129, R130). -/
def State.freshCore (s : State) (d : Die) (core : Nat) : CoreSt :=
  { resetAt := s.tb.ticks, cycFrom := s.clockMilli d (s.phys d (clusterOf core) / 2) }

/-! ## Bobbin (R135 to R140) -/

/-- The word FZ.TWAIT returns for an entry (R132). -/
def taskWord (t : Task) : Nat := t.arg * 2 ^ 16 + b2n t.delayed * 2 ^ 15 + t.src * 2 ^ 8 + t.desc

/-- The cores of cluster `c` that wait in FZ.TWAIT, as bits 0 to 2. -/
def State.waitMask (s : State) (d : Die) (c : Nat) : Nat :=
  b2n ((s.core d (3 * c)).mode = .waiting) + 2 * b2n ((s.core d (3 * c + 1)).mode = .waiting)
    + 4 * b2n ((s.core d (3 * c + 2)).mode = .waiting)

/-- The lowest set bit below 3 of `m`, if any. -/
def lowBit3 (m : Nat) : Option Nat :=
  if bitOf m 0 then some 0 else if bitOf m 1 then some 1 else if bitOf m 2 then some 2 else none

/-- The core a ready entry may go to now: the lowest-numbered waiting core of its descriptor's mask (R138). -/
def State.coreFor (s : State) (d : Die) (c : Nat) (t : Task) : Option Nat :=
  lowBit3 (Nat.land (s.rd d (Reg.BOB_DESC_CORES c t.desc)) (s.waitMask d c))

/-- The entry to dispatch: highest priority, oldest within it (R138), with its place in the list. -/
def State.pick (s : State) (d : Die) (c : Nat) : List Task → Nat → Option (Nat × Task × Nat) → Option (Nat × Task × Nat)
  | [], _, best => best
  | t :: ts, i, best =>
    match s.coreFor d c t, best with
    | none, _ => State.pick s d c ts (i + 1) best
    | some k, none => State.pick s d c ts (i + 1) (some (i, t, k))
    | some k, some (j, b, m) =>
      if b.prio < t.prio then State.pick s d c ts (i + 1) (some (i, t, k))
      else State.pick s d c ts (i + 1) (some (j, b, m))

/-- Place of an entry among those of one cycle: delay entries first, then event sources by ascending number (R140), the CLE's DONE
posts behind them (log entry 154), and then core posts by ascending core number (R142). -/
def Task.rank (t : Task) : Nat :=
  if t.delayed then 0 else
  match t.poster with
  | .event => 1 + t.arg
  | .done => 257
  | .core k _ => 258 + k

/-- Posters held in tick `now` so far. -/
def Bobbin.heldNow (b : Bobbin) (now : Nat) : Nat := if b.heldIn.1 = now then min b.heldIn.2 b.held.length else 0

/-- Place of a poster among those held in one cycle: delay entries first, then event sources by ascending number (R140); the
CLE's DONE posts come behind them (log entry 154). -/
def HeldPoster.rank : HeldPoster → Nat
  | .delay _ => 0
  | .event e _ => 1 + e
  | .done _ => 257

/-- A poster put among others in the order of one cycle, behind those of its own place. -/
def holdIn (h : HeldPoster) : List HeldPoster → List HeldPoster
  | [] => [h]
  | x :: xs => if h.rank < x.rank then h :: x :: xs else x :: holdIn h xs

/-- A poster is held in tick `now`: behind those held before that tick, in the order of R140 among the tick's own. -/
def Bobbin.hold (b : Bobbin) (now : Nat) (h : HeldPoster) : Bobbin :=
  let n := b.heldNow now
  { b with held := b.held.take (b.held.length - n) ++ holdIn h (b.held.drop (b.held.length - n)), heldIn := (now, n + 1) }

/-- The cancels of tick `now`. -/
def Bobbin.cancelsNow (b : Bobbin) (now : Nat) : List Cancel := if b.cancels.1 = now then b.cancels.2 else []

/-- A cancel of tick `now` meets a post of the same cycle; two instructions of one core are never of one cycle (R142). -/
def Bobbin.cancelsPost (b : Bobbin) (now : Nat) (t : Task) : Bool :=
  (b.cancelsNow now).any (fun x => x.desc = t.desc &&
    !(match t.poster with | .core k _ => decide (k = x.core) && !t.delayed | _ => false))

/-- The status of every cancel of descriptor `dsc` in this tick is `st` at least, in its core's rd too (R133, R142). -/
def State.noteCancel (s : State) (d : Die) (c dsc st : Nat) : State :=
  let b := s.bob d c
  let cs := b.cancelsNow s.tb.ticks
  let rise := fun (x : Cancel) => decide (x.desc = dsc) && decide (x.st < st)
  if !cs.any rise then s else
  let s := s.setBob d c { b with cancels := (s.tb.ticks, cs.map (fun x => if rise x then { x with st := st } else x)) }
  cs.foldl (fun s x => if rise x && x.rd ≠ 0 then s.setCore d x.core { s.core d x.core with rd := BitVec.ofNat 32 st } else s) s

/-- An entry enters the ready list; one whose descriptor is cancelled in this tick is removed (R142). -/
def State.enter (s : State) (d : Die) (c : Nat) (t : Task) : State :=
  let b := s.bob d c
  if b.cancelsPost s.tb.ticks t then s.noteCancel d c t.desc 1
  else s.setBob d c { b with ready := b.ready ++ [{ t with entered := s.tb.ticks }] }

/-- The entry of a held poster. -/
def State.heldTask (s : State) (d : Die) (c : Nat) : HeldPoster → Task
  | .delay t | .done t => t
  | .event e dsc => { desc := dsc, arg := e, delayed := false, src := 3, prio := s.rd d (Reg.BOB_DESC_PRIO c dsc) }

/-- An entry freed by a dispatch admits the head of the held-poster queue (R140); none while a substitution pauses the
cluster's routes (R449). -/
def State.admitHeld (s : State) (d : Die) (c : Nat) : State :=
  let b := s.bob d c
  if b.ready.length < 64 ∧ (s.adaptOf d).subst ≠ some c then
    match b.held with
    | [] => s
    | h :: hs =>
      let t := s.heldTask d c h
      let s := { s.setBob d c { b with held := hs, admitAt := s.tb.ticks + 1 } with
        latched := s.latched.filter (fun l => match h with | .event e _ => l ≠ 256 * d.toNat + e | _ => true) }
      s.enter d c t
  else s

/-- One dispatch: the entry leaves the ready list, and the core's FZ.TWAIT returns its task word and retires (R138). An older entry
cancelled in this very tick runs, and its canceller reads LATE (R142). -/
def State.dispatchOne (s : State) (d : Die) (c : Nat) : Option State :=
  match s.pick d c (s.bob d c).ready 0 none with
  | none => none
  | some (i, t, k) =>
    let b := s.bob d c
    let w := taskWord t
    let x := s.core d (3 * c + k)
    some ((((s.setBob d c { b with ready := b.ready.eraseIdx i }).setCore d (3 * c + k)
      { x with mode := .running, task := w, since := some s.tb.ticks, entered := t.entered, poster := t.poster
               retired := x.retired + 1, resv := none
               rd := if x.waitRd = 0 then x.rd else BitVec.ofNat 32 w
               bulk := bitOf (s.rd d (Reg.GND_BULK_DESC_BULK c (t.desc / 32))) (t.desc % 32) }).noteCancel d c t.desc 2).admitHeld
        d c)

/-- Dispatches while a ready entry and a waiting core match: a cluster has three cores, so three at most. -/
def State.dispatch (s : State) (d : Die) (c : Nat) : Nat → State
  | 0 => s
  | n + 1 =>
    match s.dispatchOne d c with
    | none => s
    | some s' => State.dispatch s' d c n

/-- A post to the ready list that finds room, and the dispatch it may cause. -/
def State.postReady (s : State) (d : Die) (c : Nat) (t : Task) : State := (s.enter d c t).dispatch d c 3

/-- An event source is held: its latch is set. -/
def State.holdEvent (s : State) (d : Die) (c e dsc : Nat) : State :=
  { s.setBob d c ((s.bob d c).hold s.tb.ticks (.event e dsc)) with latched := s.latched ++ [256 * d.toNat + e] }

/-- The entry of tick `now` that comes last in the order of one cycle, behind place `r`. -/
def lastNow (r now : Nat) : List Task → Nat → Option (Nat × Task) → Option (Nat × Task)
  | [], _, best => best
  | t :: ts, i, best =>
    lastNow r now ts (i + 1)
      (if t.entered = now ∧ (match best with | some (_, u) => u.rank | none => r) < t.rank then some (i, t) else best)

/-- An entry that had room loses it to one before it in its cycle: an event source or an expired entry is held, and a core reads FULL
(R140, R142). -/
def State.giveWay (s : State) (d : Die) (c : Nat) (u : Task) : State :=
  if u.delayed then s.setBob d c ((s.bob d c).hold s.tb.ticks (.delay u))
  else
    match u.poster with
    | .event => s.holdEvent d c u.arg u.desc
    | .done => s.setBob d c ((s.bob d c).hold s.tb.ticks (.done u))
    | .core k rd => if rd = 0 then s else s.setCore d k { s.core d k with rd := 1 }

/-- An entry that finds the ready list full: none where it has no place; one that is cancelled in its cycle is removed, and one that
the list of this very tick should have taken before another has that one's place (R138, R140, R142, log entry 154). -/
def State.takePlace (s : State) (d : Die) (c : Nat) (t : Task) : Option State :=
  let b := s.bob d c
  let now := s.tb.ticks
  if b.cancelsPost now t then some (s.noteCancel d c t.desc 1)
  else if 64 ≤ b.ready.length ∧ b.heldNow now = b.held.length ∧ b.admitAt ≠ now + 1 then
    (lastNow t.rank now b.ready 0 none).map (fun p =>
      ((s.setBob d c { b with ready := b.ready.eraseIdx p.1 ++ [{ t with entered := now }] }).giveWay d c p.2).dispatch d c 3)
  else none

/-- The event controller of die `d` takes source `e` (R140, R148): posted, held in its pending latch, or nothing where
the source has no route. A route to a descriptor that is not VALID, or to the spare, posts too (log entry 181). -/
def State.postEventDie (s : State) (d : Die) (e : Nat) : State :=
  if s.lost d then s else
  let s := s.send (.event d e)
  if s.rd d (Reg.EVC_ROUTE_EN e) = 0 then s else
  let c := s.rd d (Reg.EVC_ROUTE_CLUSTER e)
  let dsc := s.rd d (Reg.EVC_ROUTE_DESC e)
  let b := s.bob d c
  let t : Task := { desc := dsc, arg := e, delayed := false, src := 3, prio := s.rd d (Reg.BOB_DESC_PRIO c dsc) }
  if 256 * d.toNat + e ∈ s.latched then s
  else if (s.adaptOf d).subst = some c then s.holdEvent d c e dsc
  else if 64 ≤ b.ready.length ∨ b.held ≠ [] then (s.takePlace d c t).getD (s.holdEvent d c e dsc)
  else s.postReady d c t

/-- An event source posts to both dies (R148). -/
def State.post (s : State) (e : Nat) : State := (s.postEventDie .d0 e).postEventDie .d1 e

/-- A sticky flag of the I/O die window sets and its event posts. -/
def State.raisePost (s : State) (f : Field) (e : Nat) : State := (s.raiseIo f).post e

end Sys2Proof.Machine
end

