-- ==== Sys2Proof/Machine/Operands.lean ====
section
/-! DEFINITION. How operand values are formed: convergent rounding, clamping, Q-format readings, and the access path of a
die's firmware (R4, R183, R455). -/

namespace Sys2Proof.Machine

/-- Convergent rounding of a / 2^s (R183). -/
def conv (a : Int) (s : Nat) : Int :=
  let q := a / 2 ^ s
  let f := a - q * 2 ^ s
  if f * 2 > 2 ^ s ∨ (f * 2 = 2 ^ s ∧ q % 2 = 1) then q + 1 else q

/-- A value clamped to lo … hi. -/
def clamp (lo hi z : Int) : Int := if z < lo then lo else if hi < z then hi else z

/-- Absolute value as a natural number. -/
def absN (z : Int) : Nat := z.natAbs

/-- A signed field of the I/O die window. -/
def State.ioInt (s : State) (f : Field) : Int := signed f.width (s.io f)

/-- The active duty word of a carrier channel (R295). -/
def State.dutyWord (s : State) (n : Nat) : Int :=
  s.ioInt (Reg.CLE_OUTA_Y (s.io (Reg.GEN_CAR_CLE n)) (s.io (Reg.GEN_CAR_WORD n)))

/-- A signed field of a die. -/
def State.rdInt (s : State) (d : Die) (f : Field) : Int := signed f.width (s.rd d f)

/-- A signed value written to a field of the I/O die window. -/
def State.setIoInt (s : State) (f : Field) (z : Int) : State := s.setIo f (unsigned f.width z)

/-- A signed value written to a field of a die. -/
def State.wrInt (s : State) (d : Die) (f : Field) (z : Int) : State := s.wr d f (unsigned f.width z)

/-- What a measurement field holds of a value written to it: MEAS_TRIM.TRIM is clamped to ±10 485, and MEAS_CFG.OW of a remote
channel stays 0 (R188, R197). -/
def Field.holds (f : Field) (v : Nat) : Nat :=
  if 0x40200010 ≤ f.addr ∧ f.addr < 0x40201210 ∧ f.addr % 0x20 = 0x10 ∧ f.width = 16 then unsigned 16 (clamp (-10485) 10485 (signed 16 v))
  else if 0x40200000 ≤ f.addr ∧ f.addr < 0x40201000 ∧ f.addr % 0x20 = 0 ∧ f.lo = 12 then 0
  else v

end Sys2Proof.Machine
end

