-- ==== Sys2Proof/Machine/ServoOps.lean ====
section
/-! DEFINITION. The servo's state, its source and the loss of it (R421 to R423): shared by the commands of time and by the controlled
stop, which leaves the parent. -/

namespace Sys2Proof.Machine

def servoFree : Nat := 0
def servoAcquire : Nat := 1
def servoLocked : Nat := 2
def servoHoldover : Nat := 3

/-- The servo's state changes, with event 182 (R423). -/
def State.setServo (s : State) (st : Nat) : State :=
  if s.io Reg.SERVO_STAT_STATE = st then s else (s.setIo Reg.SERVO_STAT_STATE st).post 182

/-- An addend within the limits of R62. -/
def addendClamp (z : Int) : Nat := (clamp 0x1FFF2E48F 0x2000D1B71 z).toNat

/-- The hardware servo writes TB_ADDEND, in the tick after the present one (R422). -/
def State.setAddend (s : State) (a : Nat) : State :=
  let s := { s with tb := { s.tb with addOld := some (s.tb.ticks, s.addend) } }
  (s.setIo Reg.TB_ADDEND_HI_NS (a / 2 ^ 32)).setIo Reg.TB_ADDEND_LO_FRAC (a % 2 ^ 32)

/-- The drift. -/
def State.drift (s : State) : Int := s.ioInt Reg.SERVO_DRIFT_DRIFT

/-- The source is lost: the drift is held (R422, R423). -/
def State.servoLost (s : State) : State :=
  let st := s.io Reg.SERVO_STAT_STATE
  if st = servoAcquire ∨ st = servoLocked then
    ({ s with servo := { s.servo with near := 0, far := 0, sum := 0, count := 0 } }.setServo servoHoldover).setAddend
      (addendClamp (2 ^ 33 + s.drift))
  else s

/-- The source SERVO_CFG.SRC selects now, as SERVO_STAT.SOURCE codes it (R421); SRC 0 is PTP with no port in use too (log
entry 171). -/
def State.servoSource (s : State) : Nat :=
  let src := s.io Reg.SERVO_CFG_SRC
  if src = 1 then 1
  else if src = 2 then
    (if (List.range 4).any (fun p => s.io (Reg.PTP_PORT_STAT_STATE p) = 9) then 0 else 1)
  else 0

end Sys2Proof.Machine
end

