-- ==== Sys2Proof/Machine/GooseOps.lean ====
section
/-! DEFINITION. Publishing GOOSE messages (R413, R414): shared by the commands of the station network and by the trip
fabric, whose group changes publish. -/

namespace Sys2Proof.Machine

/-- The value of entry `e` of block `b`: GOOSE_TX, or TRUE while the named trip group is asserted (R413). -/
def State.gooseVal (s : State) (b e : Nat) : Nat :=
  if s.io (Reg.GOOSE_PUB_ENT_SRC b e) = 1 then
    b2n (bitOf (s.io Reg.TRIP_STATE_ASSERTED) (s.io (Reg.GOOSE_PUB_ENT_GROUP b e)))
  else s.io (Reg.GOOSE_TX_V b e)

/-- The block publishes: enabled, and PHASE has reached READY (R414). -/
def State.goosePublishes (s : State) (b : Nat) : Bool :=
  s.io (Reg.GOOSE_PUB_CFG_EN b) = 1 && (s.phase = phaseReady || s.phase = phaseRun)

/-! ## Pairs of ports (R397, R398, R400) -/

/-- Destinations of PTP: of its messages, and of those of peer delay (R394, R419). -/
def macPtp : Nat := 0x011B19000000
def macPdelay : Nat := 0x0180C200000E

def State.pair (s : State) (x : Nat) : NetPair := tabGet {} s.netPair x
def State.setPair (s : State) (x : Nat) (p : NetPair) : State := { s with netPair := tabSet {} s.netPair x p }

/-- MODE of a pair; both run in mode 0 in maintenance-only mode (R397). -/
def State.pairMode (s : State) (x : Nat) : Nat :=
  if s.phase = phaseMaint then 0 else if x = 0 then s.io Reg.ETH_RED_CFG_MODE_A else s.io Reg.ETH_RED_CFG_MODE_B

/-- An own frame of a pair in PRP or HSR takes the pair's next sequence number, which wraps (R398, R400). -/
def State.pairSend (s : State) (x : Nat) : State :=
  if s.pairMode x = 0 then s else s.setPair x { s.pair x with seq := ((s.pair x).seq + 1) % 65536 }

/-! ## Sending on a port (R396) -/

def State.ethOf (s : State) (p : Nat) : EthPort := tabGet {} s.eth p
def State.setEth (s : State) (p : Nat) (x : EthPort) : State := { s with eth := tabSet {} s.eth p x }

/-- Ranks of the queues of a port, highest first; a frame forwarded in HSR ranks second (R396, R400). -/
def rankPtpEvent : Nat := 0
def rankForward : Nat := 1
def rankGoose : Nat := 2
def rankPtp : Nat := 3
def rankMaint : Nat := 4

/-- The lane of Ethernet port `p` (R393). -/
def State.portLane (s : State) (p : Nat) : Option Nat :=
  (List.range 32).find? (fun k => s.io (Reg.LANE_CFG_USE k) = 2 && s.io (Reg.LANE_CFG_PORT k) = p)

/-- Bits that port `p` sends in a tick of 2 ns: at 1, 10 or 25 Gb/s of data (R393, R396). -/
def State.portBits (s : State) (p : Nat) : Nat :=
  match s.portLane p with
  | some k => if s.io (Reg.LANE_CFG_RATE k) = 5 then 20 else if s.io (Reg.LANE_CFG_RATE k) = 7 then 50 else 2
  | none => 2

/-- The tag of a frame sent on port `p`: GOOSE and maintenance frames where ETH_PORT_CFG.TAG = 1, PTP frames where PTP_CFG.TAG = 1
(R395). -/
def State.ethTci (s : State) (p : Nat) : Output → Option Nat
  | .goose _ _ => if s.ioBit (Reg.ETH_PORT_CFG_TAG p) then some (s.io (Reg.ETH_PORT_CFG_PCP_G p) * 2 ^ 13 + s.io (Reg.ETH_PORT_CFG_VID p)) else none
  | .maint _ _ _ => if s.ioBit (Reg.ETH_PORT_CFG_TAG p) then some (s.io (Reg.ETH_PORT_CFG_PCP_M p) * 2 ^ 13 + s.io (Reg.ETH_PORT_CFG_VID p)) else none
  | .ptp _ _ => if s.ioBit Reg.PTP_CFG_TAG then some (Config.ptpPriority % 8 * 2 ^ 13 + s.io (Reg.ETH_PORT_CFG_VID p)) else none
  | _ => none

/-- The pair's sequence number, in the trailer of PRP or the HSR tag, of an own frame (R398, R400); in PRP a PTP message carries
none (R401). -/
def State.ethSeq (s : State) (p : Nat) : Output → Option Nat
  | .hsrForward _ _ => none
  | .ptp _ _ => if s.pairMode (p / 2) = 2 then some (s.pair (p / 2)).seq else none
  | _ => if s.pairMode (p / 2) = 0 then none else some (s.pair (p / 2)).seq

/-- The LAN identifier of the trailer in PRP: A on the lower port of the pair, B on the higher (R398). -/
def State.ethLan (s : State) (p : Nat) (o : Output) : Option Bool :=
  if s.pairMode (p / 2) = 1 && (s.ethSeq p o).isSome then some (p % 2 = 1) else none

/-- A message as port `p` sends it. -/
def State.ethFrame (s : State) (p : Nat) (o : Output) : Output := .eth p (s.ethTci p o) (s.ethSeq p o) (s.ethLan p o) o

/-- Bytes of a frame from destination address to FCS: of a maintenance response by R403 with its tags, of a forwarded frame
as it came, and of any other 64 to 1 522, free (log entry 145). -/
def State.ethBytes (s : State) (p : Nat) : Output → Nat
  | .eth _ tci seq _ (.maint _ _ bs) => max 64 (18 + bs.length + 4 * b2n tci.isSome + 6 * b2n seq.isSome)
  | .eth _ _ _ _ (.hsrForward _ f) => f.len
  | _ => 64 + Config.frameBytes p s.tb.ticks % 1459

/-- A frame of rank `e.1` begins to leave port `p` in tick `t`; the port is free after the frame, its preamble of 8 bytes and its gap of
12 (R396). -/
def State.ethStart (s : State) (p t : Nat) (q : List (Nat × Output)) (e : Nat × Output) : State :=
  (s.setEth p ⟨t + ceilDiv (8 * (20 + s.ethBytes p e.2)) (s.portBits p), q, some (t, e)⟩).send e.2

/-- The frame that leaves next: the first to arrive of the highest rank (R396). -/
def nextFrame : List (Nat × Output) → Option (Nat × Output)
  | [] => none
  | e :: es =>
    match nextFrame es with
    | none => some e
    | some f => if f.1 < e.1 then some f else some e

/-- The frames that wait at port `p` leave, as far as the clock has come, at most `n` of them. -/
def State.ethDrain (s : State) (p : Nat) : Nat → State
  | 0 => s
  | n + 1 =>
    let x := s.ethOf p
    match (if x.busyTo ≤ s.tb.ticks then nextFrame x.queue else none) with
    | none => s
    | some e => State.ethDrain (s.ethStart p x.busyTo (x.queue.erase e) e) p n

/-- The frames that have left port `p` by now. -/
def State.ethRun (s : State) (p : Nat) : State := s.ethDrain p (s.ethOf p).queue.length

/-- A frame of port `p`. -/
def Output.onPort (p : Nat) : Output → Bool
  | .eth q _ _ _ _ => q = p
  | _ => false

/-- The frame that port `p` began in the present tick and that gives way to one of rank `r` of the same tick: a frame of a lower
queue (R396, R428). -/
def State.ethYields (s : State) (p r : Nat) : Option (Nat × Output) :=
  match (s.ethOf p).begun with
  | some (t, e) => if t = s.tb.ticks ∧ r < e.1 ∧ e.2.onPort p then some e else none
  | none => none

/-- A frame of rank `r` for port `p`: it leaves at once where the port is free, else it waits; a frame in progress is never
cut (R396). Of the frames of one tick the highest rank leaves first (R428). -/
def State.ethSend (s : State) (r : Nat) (o : Output) (p : Nat) : State :=
  let s := s.ethRun p
  let x := s.ethOf p
  let f := (r, s.ethFrame p o)
  if x.busyTo ≤ s.tb.ticks then s.ethStart p s.tb.ticks x.queue f
  else
    match s.ethYields p r with
    | some e => { s with out := s.out.erase e.2 }.ethStart p s.tb.ticks (e :: x.queue) f
    | none => s.setEth p { x with queue := x.queue ++ [f] }

/-- What `s` came to, `t`, where its frames cross the FIFO of a lane: found full by an internal fault, it loses them, and event 255 is
posted (R60). -/
def ethFifo (full : Bool) (s t : State) : State :=
  if full && (s.out != t.out || s.eth != t.eth) then { t with out := s.out, eth := s.eth }.post 255 else t

/-- A frame for several ports. -/
def State.ethSendAll (s : State) (r : Nat) (o : Output) (ps : List Nat) : State := ps.foldl (fun s p => s.ethSend r o p) s

/-- The ports on which a frame of port `p` goes out: both of a pair in PRP or HSR (R398, R400). -/
def State.pairPorts (s : State) (p : Nat) : List Nat :=
  if s.pairMode (p / 2) = 0 then [p] else [2 * (p / 2), 2 * (p / 2) + 1]

/-- The ports that are UP (R393). -/
def State.portsUp (s : State) : List Nat := (List.range 4).filter (fun p => s.ioBit (Reg.ETH_PORT_STAT_UP p))

/-! ## Publications (R413, R414) -/

/-- Entry `n` of the GOOSE string table (R431). -/
def State.gooseStr (s : State) (n : Nat) : List Byte :=
  let a := 0x40A30000 + 68 * n
  s.ramBytes 2 (a + 4) (s.ram32 2 a)

/-- The goosePdu of block `b` with the present stNum and sqNum; timeAllowedtoLive is twice the interval to the next transmission,
its values are those of the last publication, t is UTC, and its quality tells whether the clock is synchronised (R413, R414). -/
def State.goosePdu (s : State) (b iv : Nat) : GoosePdu where
  dst := s.io (Reg.GOOSE_PUB_DST_HI_MAC b) * 2 ^ 32 + s.io (Reg.GOOSE_PUB_DST_LO_MAC b)
  appid := s.io (Reg.GOOSE_PUB_CFG_APPID b)
  gocbRef := s.gooseStr (3 * b)
  datSet := s.gooseStr (3 * b + 1)
  goId := s.gooseStr (3 * b + 2)
  ttl := 2 * iv
  sec := secOf s.tb.time - s.io Reg.PTP_UTC_OFF
  frac := s.tb.time % secUnit * 2 ^ 24 / secUnit
  quality := if s.ioBit Reg.TB_STAT_TIME_VALID then 0x94 else 0xB4
  stNum := s.io (Reg.GOOSE_PUB_ST_STNUM b)
  sqNum := s.io (Reg.GOOSE_PUB_SQ_SQNUM b)
  simulation := false
  confRev := s.io (Reg.GOOSE_PUB_CONFREV_CONFREV b)
  ndsCom := false
  allData := (List.range (s.io (Reg.GOOSE_PUB_CFG_N b) + 1)).map (fun e => (s.io (Reg.GOOSE_PUB_ENT_TYPE b e), tabGet 0 s.goosePub (32 * b + e)))

/-- The frame of block `b`, on every port that is UP (log entry 145). -/
def State.gooseFrame (s : State) (b iv : Nat) : State :=
  ((s.pairSend 0).pairSend 1).ethSendAll rankGoose (.goose b (s.goosePdu b iv)) s.portsUp

/-- The last published values of block `b` are the present ones. -/
def State.gooseNote (s : State) (b : Nat) : State :=
  { s with goosePub := (List.range 32).foldl (fun t e => tabSet 0 t (32 * b + e) (s.gooseVal b e)) s.goosePub }

/-- A publication beyond its registers. -/
def State.gooseOf (s : State) (b : Nat) : GooseSt := tabGet {} s.gooseSt b
def State.setGoose (s : State) (b : Nat) (x : GooseSt) : State := { s with gooseSt := tabSet {} s.gooseSt b x }

/-- The message of a state change of block `b`. -/
def Output.changes (b st : Nat) : Output → Bool
  | .eth _ _ _ _ (.goose b' p) => b' = b && p.stNum = st && p.sqNum = 0
  | _ => false

/-- A state change's message as it stands with the values of `p`. -/
def Output.withPdu (b : Nat) (p : GoosePdu) (o : Output) : Output :=
  match o with
  | .eth q tci seq lan (.goose b' p') => if b' = b ∧ p'.stNum = p.stNum ∧ p'.sqNum = 0 then .eth q tci seq lan (.goose b p) else o
  | o => o

/-- The frames of a change of this tick carry what has changed since (R428). -/
def State.gooseAgain (s : State) (b iv : Nat) : State :=
  let s := s.gooseNote b
  let f := Output.withPdu b (s.goosePdu b iv)
  { s with
    out := s.out.map f
    eth := s.eth.map (fun e => (e.1, { e.2 with
      queue := e.2.queue.map (fun x => (x.1, f x.2)), begun := e.2.begun.map (fun x => (x.1, x.2.1, f x.2.2)) })) }

/-- A state change of block `b`: stNum rises, wrapping to 1, sqNum is 0, the frame goes out, and the repetitions start
over at T1 (R414). What changes in the tick of a change is one change with it: stNum rises once (R428). -/
def State.gooseChange (s : State) (b : Nat) (why : Option Nat) : State :=
  let x := s.gooseOf b
  let t1 := s.io (Reg.GOOSE_PUB_T_T1 b)
  if x.at_ = some s.tb.ticks then (s.setGoose b { x with why := why :: x.why }).gooseAgain b t1
  else
    let st := s.io (Reg.GOOSE_PUB_ST_STNUM b)
    let was : GooseSt := ⟨t1, some s.tb.ticks, [why], st, s.io (Reg.GOOSE_PUB_SQ_SQNUM b), x.iv,
      (List.range 32).map (fun e => tabGet 0 s.goosePub (32 * b + e))⟩
    let s := (s.setIo (Reg.GOOSE_PUB_ST_STNUM b) (if st = 0xFFFFFFFF then 1 else st + 1)).setIo (Reg.GOOSE_PUB_SQ_SQNUM b) 0
    ((s.gooseNote b).gooseFrame b t1).setGoose b was

/-- The frames of the present change of block `b` leave the port: none of them has gone, a port that began one is free, and the pair's
sequence number is the one before. -/
def State.gooseDropPort (b st : Nat) (s : State) (p : Nat) : State :=
  let x := s.ethOf p
  let took := match s.out.find? (fun o => o.onPort p && o.changes b st), x.queue.find? (fun e => e.2.changes b st) with
    | some (.eth _ _ (some q) _ _), _ => some q
    | _, some (_, .eth _ _ (some q) _ _) => some q
    | _, _ => none
  let y := s.pair (p / 2)
  let s := if took = some y.seq then s.setPair (p / 2) { y with seq := (y.seq + 65535) % 65536 } else s
  let begun : Bool := match x.begun with
    | some (_, e) => e.2.changes b st
    | none => false
  let x := { x with queue := x.queue.filter (fun e => !e.2.changes b st) }
  let x := if begun then { x with busyTo := s.tb.ticks, begun := none } else x
  ({ s with out := s.out.filter (fun o => !(o.onPort p && o.changes b st)) }.setEth p x).ethRun p

/-- A change of group `g` in the present tick is taken back: with nothing else changed, what block `b` published of it has not been
(R328, R414). -/
def State.gooseUndo (s : State) (b g : Nat) : State :=
  let x := s.gooseOf b
  if x.at_ ≠ some s.tb.ticks ∨ !x.why.contains (some g) then s else
  let why := x.why.filter (· ≠ some g)
  if why ≠ [] then (s.setGoose b { x with why := why }).gooseAgain b x.iv
  else
    let s := (List.range 4).foldl (State.gooseDropPort b (s.io (Reg.GOOSE_PUB_ST_STNUM b))) s
    let s := (s.setIo (Reg.GOOSE_PUB_ST_STNUM b) x.stNum).setIo (Reg.GOOSE_PUB_SQ_SQNUM b) x.sqNum
    { s with goosePub := (List.range 32).foldl (fun t e => tabSet 0 t (32 * b + e) (x.vals.getD e 0)) s.goosePub }.setGoose b
      { iv := x.ivWas }

/-- Some entry of block `b` with SRC = 1 names group `g`. -/
def State.gooseNames (s : State) (b g : Nat) : Bool :=
  (List.range (s.io (Reg.GOOSE_PUB_CFG_N b) + 1)).any (fun e =>
    s.io (Reg.GOOSE_PUB_ENT_SRC b e) = 1 && s.io (Reg.GOOSE_PUB_ENT_GROUP b e) = g)

/-- A change of group `g` publishes on every block that names it (R414). -/
def State.gooseGroup (s : State) (g : Nat) : State :=
  (List.range 8).foldl (fun s b => if s.goosePublishes b && s.gooseNames b g then s.gooseChange b (some g) else s) s

/-- A change of group `g` in the present tick has not been (R328). -/
def State.gooseTakeBack (s : State) (g : Nat) : State := (List.range 8).foldl (fun s b => s.gooseUndo b g) s

/-- Publication starts at PHASE = READY with stNum 1 (R414). -/
def State.gooseStart (s : State) : State :=
  (List.range 8).foldl (fun s b => if s.goosePublishes b then s.gooseChange b none else s) s

end Sys2Proof.Machine
end

