-- ==== Sys2Proof/Machine/TripOps.lean ====
section
/-! DEFINITION. The shared operations of gate generation and the trip fabric: placing edges, safe actions, sources,
group transitions and trip records (R283 to R288, R313 to R329). -/

namespace Sys2Proof.Machine

/-! ## Edges (R285 to R288) -/

/-- The order of 4 bits reversed (R286). -/
def bitrev4 (n : Nat) : Nat := n % 2 * 8 + n / 2 % 2 * 4 + n / 4 % 2 * 2 + n / 8 % 2

/-- The dither term d(j, f) (R286). -/
def dither (j f : Nat) : Nat := if bitrev4 (j % 16) < f then 1 else 0

/-- The tick, counted from its boundary or cycle start, of an edge at position `p` sixteenths (R285). -/
def edgeTick (p j : Nat) : Nat := p / 16 + dither j (p % 16)

/-- A channel in use (R16): MODE is not 0. -/
def State.inUse (s : State) (n : Nat) : Bool := s.io (Reg.GEN_CH_CFG_MODE n) ≠ 0

/-- The active RISE_DLY and its bound flags (R302). -/
def State.setRise (s : State) (n rise : Nat) : State :=
  ((s.setIo (Reg.GEN_RISE_ACT_RISE n) rise).setIo (Reg.GEN_RISE_ACT_AT_HI n)
      (b2n (s.io (Reg.GEN_CH_CFG_ADAPT n) = 1 && rise = 16 * s.io (Reg.GEN_DT_BND_RISE_HI n)))).setIo
    (Reg.GEN_RISE_ACT_AT_LO n)
      (b2n (s.io (Reg.GEN_CH_CFG_ADAPT n) = 1 && rise = 16 * s.io (Reg.GEN_DT_BND_RISE_LO n)))

/-- The group of channel `n` is asserted. -/
def State.chAsserted (s : State) (n : Nat) : Bool :=
  bitOf (s.io Reg.TRIP_STATE_ASSERTED) (s.io (Reg.TRIP_CH_CFG_GROUP n))

/-- The two output bits of a command (R283). -/
def cmdUpper (c : Nat) : Bool := bitOf c 1
def cmdLower (c : Nat) : Bool := bitOf c 0

/-- The edge of one output that a change from `a` to `b` makes at reference `r` from tick `base` (R285). -/
def State.edgeFor (s : State) (n : Nat) (upper a b : Bool) (base r j : Nat) : List Edge :=
  if a = b then []
  else if b then [⟨upper, true, base + edgeTick (r + s.io (Reg.GEN_RISE_ACT_RISE n)) j⟩]
  else [⟨upper, false, base + edgeTick (r + s.io (Reg.GEN_FALL_FALL n)) j⟩]

/-- Every copy of a channel unit computes (R304). -/
def GenCh.each (g : GenCh) (f : GenCopy → GenCopy) : GenCh := { g with c0 := f g.c0, c1 := f g.c1, c2 := f g.c2 }

/-- The copy that at least two agree on. -/
def GenCh.maj (g : GenCh) : GenCopy := if g.c0 = g.c1 ∨ g.c0 = g.c2 then g.c0 else g.c1

/-- A copy by its number. -/
def GenCh.copy (g : GenCh) (i : Nat) : GenCopy := if i = 0 then g.c0 else if i = 1 then g.c1 else g.c2

/-- An output bit of a copy. -/
def GenCopy.bit (c : GenCopy) (upper : Bool) : Bool := if upper then c.outU else c.outL

/-- A copy with its active command OFF, both outputs low and nothing pending. -/
def GenCopy.off (c : GenCopy) : GenCopy := { c with cmd := 0, edges := [], outU := false, outL := false }

/-- A command change of channel `n` to `c`, at `r` sixteenths after tick `base`, with dither index `j`: the active
command changes and the edges of both outputs are placed (R285, R287). -/
def State.placeCmd (s : State) (n c base r j : Nat) : State :=
  (s.setIo (Reg.GEN_CMD_ACT n) c).setGenCh n ((s.genCh n).each (fun x =>
    { x with cmd := c % 4, edges := x.edges ++ s.edgeFor n true (cmdUpper x.cmd) (cmdUpper c) base r j
        ++ s.edgeFor n false (cmdLower x.cmd) (cmdLower c) base r j }))

/-- The command changes of channel `n` whose instants lie in ticks up to `t` take place (R296). -/
def State.settleTo (s : State) (n t : Nat) : State :=
  let g := s.genCh n
  (g.chg.filter (fun c => c.at_ / 16 ≤ t)).foldl (fun s c => s.placeCmd n c.cmd 0 c.at_ c.cyc)
    (s.setGenCh n { g with chg := g.chg.filter (fun c => t < c.at_ / 16) })

/-- A voter's output from the bits of the copies: the majority of the three, or with a copy fenced high where both of the
others are (R304, R305). -/
def voteOut (fence : Nat) (high : Nat → Bool) : Bool :=
  let left := [0, 1, 2].filter (fun c => !bitOf fence c)
  if left.length = 3 then decide (2 ≤ (left.filter high).length) else left.length = 2 && left.all high

/-- What the voter of an output of channel `n` puts out. -/
def State.voted (s : State) (n : Nat) (upper : Bool) : Bool :=
  voteOut (s.io (Reg.GEN_STAT_FENCE n)) (fun c => ((s.genCh n).copy c).bit upper)

/-- Drives a gate pin; in the test state of R52 the boundary register drives it instead. -/
def State.setGate (s : State) (n : Nat) (upper v : Bool) : State :=
  if upper then { s with pins := { s.pins with gu := setBit s.pins.gu n v } }
  else { s with pins := { s.pins with gl := setBit s.pins.gl n v } }

/-- The pin level of an output. -/
def State.gate (s : State) (n : Nat) (upper : Bool) : Bool :=
  if upper then s.pins.gu.getLsbD n else s.pins.gl.getLsbD n

/-! ## Safe actions (R314 to R317) -/

/-- D_bp: the channel's dead time rounded up to whole ticks (R315). -/
def State.dbp (s : State) (n : Nat) : Nat :=
  ceilDiv (s.io (Reg.GEN_RISE_ACT_RISE n) - s.io (Reg.GEN_FALL_FALL n)) 16

/-- The channel is held at BLOCK whatever its ACTION (R316), as it is before gate release (R96). -/
def State.forceBlock (s : State) (n : Nat) : Bool :=
  s.power.shutdown || s.power.clockLost || !s.pins.live || (s.genCh n).faulty

/-- A falling edge opens an echo watch where the dead time adapts; falls of both outputs in one tick are one (R301). -/
def State.openWatch (s : State) (n t : Nat) : State :=
  if s.io (Reg.GEN_CH_CFG_ADAPT n) = 1 then
    let g := s.genCh n
    s.setGenCh n { g with
      watch := some t
      lapsed := match g.watch with
        | some u => if u = t then g.lapsed else (u, t) :: g.lapsed
        | none => g.lapsed }
  else s

/-- A falling edge of channel `n` takes place in tick `t`: of either output, or of the upper one alone (R315, R317). -/
def State.fallsAt (s : State) (n t : Nat) (lower : Bool) : Bool :=
  (s.genCh n).maj.edges.any (fun e => !e.level && e.tick = t && (e.upper || lower) && s.gate n e.upper)

/-- The safe action of channel `n` from trip tick `t` on: edges dropped, active command OFF, pins at BLOCK or BYPASS; a
falling edge of that tick still takes place, and a turn-on already placed keeps its tick (R307, R314 to R317). -/
def State.safeCh (s : State) (n t : Nat) : State :=
  let s := s.settleTo n t
  let g := s.genCh n
  let s := s.setIo (Reg.GEN_CMD_ACT n) 0
  let block : Bool := s.forceBlock n || s.io (Reg.TRIP_CH_CFG_ACTION n) = 0
  let fell := s.fallsAt n t block
  let s := if block then
      ((s.setGenCh n { g.each GenCopy.off with chg := [], mute := true, bypassAt := none }).setGate n true false).setGate n false
        false
    else
      let at' := if s.gate n false then none else some (g.bypassAt.getD (t + s.dbp n))
      (s.setGenCh n { g.each GenCopy.off with chg := [], mute := true, bypassAt := at' }).setGate n true false
  if fell then s.openWatch n t else s

/-- The safe action of every channel in use of group `g`. -/
def State.safeGroup (s : State) (g : Nat) : State :=
  if s.testState then s else
  (List.range 128).foldl (fun s n =>
    if s.inUse n && s.io (Reg.TRIP_CH_CFG_GROUP n) = g then s.safeCh n (s.tb.ticks + 1) else s) s

/-- Every channel at BLOCK (R41, R316); in the test state the boundary register keeps the pins (R52). -/
def State.blockAll (s : State) : State :=
  if s.testState then s else
  let s := (List.range 128).foldl (fun s n =>
    if s.inUse n then s.safeCh n (s.tb.ticks + 1) else s) s
  { s with pins := { s.pins with gu := 0, gl := 0 } }

/-! ## Sources (R318) -/

/-- The groups that source `code` trips. -/
def State.srcMask (s : State) (code : Nat) : Nat :=
  if code < 0x80 then s.io (Reg.TRIP_CH_MASK_DASH code)
  else if code < 0x100 then s.io (Reg.TRIP_CH_MASK_OV (code - 0x80))
  else if code < 0x180 then s.io (Reg.TRIP_CH_UV_UV (code - 0x100))
  else if code < 0x188 then s.io (Reg.TRIP_IN_MASK_MASK (code - 0x180))
  else if code = 0x188 then s.io Reg.TRIP_BOS_CFG_MASK
  else if code < 0x18D then
    (match s.worker with | some d => tabGet 0 s.cleReq (4 * d.toNat + (code - 0x189)) % 2 ^ 16 | none => 0)
  else if code = 0x18D then s.io Reg.TRIP_FW_ACT_GROUPS
  else 0xFFFF

/-- TRIP_IN[p] is active: enabled and at its active level (R319). -/
def State.tripInActive (s : State) (p : Nat) : Bool :=
  bitOf (s.io Reg.TRIP_IN_CFG_EN) p && (s.pins.tripIn.getLsbD p != bitOf (s.io Reg.TRIP_IN_CFG_POL) p)

/-- The request of CLE `c` of the worker stands. -/
def State.cleReqActive (s : State) (c : Nat) : Bool :=
  match s.worker with | some d => bitOf (tabGet 0 s.cleReq (4 * d.toNat + c)) 16 | none => false

/-- The active sources' codes, rising. -/
def State.activeCodes (s : State) : List Nat :=
  s.trip.chan
    ++ ((List.range 8).filter s.tripInActive).map (0x180 + ·)
    ++ (if s.trip.bos then [0x188] else [])
    ++ ((List.range 4).filter s.cleReqActive).map (0x189 + ·)
    ++ (if s.io Reg.TRIP_FW_ACT_GROUPS ≠ 0 then [0x18D] else [])
    ++ (if s.trip.package then [0x18E] else [])

/-- TRIP_SRC_ACT as R331 encodes it. -/
def State.srcAct (s : State) : Nat :=
  ((List.range 8).filter s.tripInActive).foldl (fun m p => m + 2 ^ p) 0
    + 2 ^ 8 * b2n s.trip.bos
    + ((List.range 4).filter s.cleReqActive).foldl (fun m c => m + 2 ^ (9 + c)) 0
    + 2 ^ 13 * b2n (s.io Reg.TRIP_FW_ACT_GROUPS ≠ 0)
    + 2 ^ 14 * b2n s.trip.package
    + 2 ^ 15 * b2n (s.trip.chan ≠ [])

/-- The firmware request in force: the firmware's own bits and the request held during a substitution (R318, R469). -/
def State.fwGroups (s : State) : Nat :=
  Nat.lor s.trip.fw.toNat (if s.red.substHold then s.io Reg.RED_SUBST_MASK else 0)

/-! ## Records and block order sets (R322, R329) -/

/-- A record event: queued, or counted as lost where the queue of 32 is full. TIME is the present tick (R329). -/
def State.tripRecord (s : State) (type g src : Nat) : State :=
  if s.trip.recs.length < 32 then
    { s with trip := { s.trip with recs := s.trip.recs ++
      [⟨s.tb.time, type, g, src, s.io Reg.TB_PERIOD_NUM_K, s.srcAct⟩] } }
  else s.countIo Reg.TRIP_REC_LOST_COUNT Reg.TRIP_CNT_SAT_LOST_SAT

/-! ## Block order sets on lanes that carry frames (R322, R364) -/

def State.link (s : State) (l : Nat) : NolLink := tabGet {} s.links l
def State.setLink (s : State) (l : Nat) (x : NolLink) : State := { s with links := tabSet {} s.links l x }

/-- Word time of a rate, in ps (R335, R373). -/
def wordPs (rate : Nat) : Nat := [16000, 8000, 6400, 4000, 3200, 6400, 5280, 2560].getD rate 6400

/-- The present tick in ps: a tick lasts 2 ns. -/
def State.psNow (s : State) : Nat := 2000 * s.tb.ticks

/-- The lane at position `b` of link `l` (R360). -/
def State.laneAt (s : State) (l b : Nat) : Nat :=
  s.io (if b = 0 then Reg.NOL_LINK_LANES_LANE0 l else if b = 1 then Reg.NOL_LINK_LANES_LANE1 l
    else if b = 2 then Reg.NOL_LINK_LANES_LANE2 l else Reg.NOL_LINK_LANES_LANE3 l)

/-- Block order sets leave on the lanes that `sent` names: a frame in progress on link `l` ends later by one word cycle per set on
the lane that carries the most (R364, R388). -/
def State.delayFrame (s : State) (sent : Nat → Bool) (l : Nat) : State :=
  let x := s.link l
  let w := wordPs (s.io (Reg.LANE_CFG_RATE (s.laneAt l 0)))
  if x.busyTo ≤ s.psNow + 2 * w then s
  else
    let on := ((bitsBelow 4 x.dealing).filter (fun p => sent (s.laneAt l p))).foldl
      (fun t p => tabSet 0 t p (tabGet 0 t p + 1)) x.bosOn
    let most := fun t => ((List.range 4).map (tabGet 0 t)).foldl max 0
    s.setLink l { x with bosOn := on, busyTo := x.busyTo + (most on - most x.bosOn) * w }

/-- `f` put before the latest `o` of what has left, newest first. -/
def putBefore (o f : Output) : List Output → List Output
  | [] => [f]
  | x :: xs => if x = o then x :: f :: xs else x :: putBefore o f xs

/-- A block order set on lane `k`; a forwarded one goes before one of the device's own of the same tick (R328). -/
def State.sendSet (forwarded : Bool) (s : State) (k : Nat) : State :=
  if !forwarded then { s.send (.bos k false) with trip := { s.trip with ownAt := tabSet 0 s.trip.ownAt k (s.tb.ticks + 1) } }
  else if tabGet 0 s.trip.ownAt k = s.tb.ticks + 1 then { s with out := putBefore (.bos k false) (.bos k true) s.out }
  else s.send (.bos k true)

/-- Block order sets on the lanes of `m`, ascending, of the device's own (R322) or forwarded (R321). -/
def State.sendSets (s : State) (m : Nat) (forwarded : Bool) : State :=
  let s := (bitsBelow 32 m).foldl (State.sendSet forwarded) s
  (List.range 32).foldl (State.delayFrame · (bitOf m) ·) s

/-- Block order sets of the device's own on the lanes of `m` (R322). -/
def State.sendBos (s : State) (m : Nat) : State := s.sendSets m false

/-! ## Group transitions (R323) -/

def grpArmed : Nat := 0
def grpTripped : Nat := 1
def grpHold : Nat := 2
def grpFault : Nat := 3

/-- Bit `g` of TRIP_STATE. -/
def State.setAsserted (s : State) (g : Nat) (b : Bool) : State :=
  s.setIo Reg.TRIP_STATE_ASSERTED (withBit (s.io Reg.TRIP_STATE_ASSERTED) g b)

/-- A group is TRIPPED but for its event: safe action at once, record and count; a SEND group also sends block order sets where a
source other than the block order set is active for it (R322, R323). -/
def State.tripAction (s : State) (g : Nat) (srcs : List Nat) : State :=
  let code := srcs.headD 0x18E
  let s := (s.setIo (Reg.TRIP_GRP_STAT_STATE g) grpTripped).setAsserted g true
  let s := (s.setGrp g { s.grp g with tripAt := some s.tb.ticks }).safeGroup g
  let s := s.setIo (Reg.TRIP_GRP_STAT_FIRST_SRC g) code
  let s := s.countIo (Reg.TRIP_GRP_CNT_COUNT g) (Reg.TRIP_GRP_STAT_SAT g)
  let s := s.tripRecord 1 g code
  let s := if bitOf (s.io Reg.TRIP_BOS_CFG_SEND) g && srcs.any (· ≠ 0x188) then
      { s.sendBos (s.io Reg.TRIP_BOS_TX_LANES) with trip := { s.trip with sending := setBit s.trip.sending g true } }
    else s
  s.gooseGroup g

/-- A source becomes active for an ARMED or HOLD group: TRIPPED, with event 160 + g (R323). -/
def State.tripGroup (s : State) (g : Nat) (srcs : List Nat) : State := (s.tripAction g srcs).post (160 + g)

/-- The sources of `acts` whose mask names group `g`. -/
def State.srcsOf (s : State) (acts : List Nat) (g : Nat) : List Nat := acts.filter (fun c => bitOf (s.srcMask c) g)

/-- A further source of group `g` becomes active in the tick of its trip: FIRST_SRC and the TRIP record name the lowest
code, and the record's SRC_ACT shows them all (R328). -/
def State.meetTrip (s : State) (g : Nat) (srcs : List Nat) : State :=
  let code := min (s.io (Reg.TRIP_GRP_STAT_FIRST_SRC g)) (srcs.headD 0x3FF)
  { s.setIo (Reg.TRIP_GRP_STAT_FIRST_SRC g) code with trip := { s.trip with recs := s.trip.recs.map (fun r =>
    if r.type = 1 ∧ r.group = g ∧ r.time = s.tb.time then { r with source := code, srcAct := Nat.lor r.srcAct s.srcAct }
    else r) } }

/-- The records of group `g` and type `type` of the present tick are taken back. -/
def State.unrecord (s : State) (type g : Nat) : State :=
  { s with trip := { s.trip with recs := s.trip.recs.filter (fun r => !(r.type = type && r.group = g && r.time = s.tb.time)) } }

/-- A list of codes in rising order with `c` put in. -/
def insertCode (c : Nat) : List Nat → List Nat
  | [] => [c]
  | x :: xs => if c < x then c :: x :: xs else if c = x then x :: xs else x :: insertCode c xs

/-- The sources of group `g` that are active or have been at some moment of this tick, by rising code (R323, R328). -/
def State.tickSrcs (s : State) (g : Nat) : List Nat :=
  let x := s.grp g
  (s.srcsOf s.activeCodes g).foldl (fun l c => insertCode c l) (if x.seenAt = s.tb.ticks then x.seen else [])

/-- A clear request is refused: flag, record and event (R323). -/
def State.clearRefused (s : State) (g : Nat) : State :=
  ((s.raiseIo (Reg.TRIP_GRP_STAT_CLR_REFUSED g)).tripRecord 2 g ((s.tickSrcs g).headD 0x3FF)).post (160 + g)

/-- A further source of the group becomes active in the tick of a refused clear: the record names the lowest (R329). -/
def State.meetRefused (s : State) (g : Nat) : State :=
  { s with trip := { s.trip with recs := s.trip.recs.map (fun r =>
    if r.type = 2 ∧ r.group = g ∧ r.time = s.tb.time then { r with source := (s.tickSrcs g).headD 0x3FF } else r) } }

/-- A clear request taken earlier in the tick meets a source: it is refused, and the group was never in HOLD (R328). -/
def State.unclear (s : State) (g : Nat) (sent : Bool) : State :=
  let s := (s.setIo (Reg.TRIP_GRP_STAT_STATE g) grpTripped).unrecord 3 g
  let s := s.setGrp g { s.grp g with cleared := none }
  { s with trip := { s.trip with sending := setBit s.trip.sending g sent } }.gooseTakeBack g |>.clearRefused g

/-- Group `g` in HOLD meets a source: its clear of this tick is refused, or the clear is consumed (R323, R328). -/
def State.tripHeld (s : State) (g : Nat) (srcs : List Nat) (event : Bool) : State :=
  match (s.grp g).cleared with
  | some (t, sent) =>
    if t = s.tb.ticks then s.unclear g sent
    else if event then s.tripGroup g srcs else s.tripAction g srcs
  | none => if event then s.tripGroup g srcs else s.tripAction g srcs

/-- A group re-armed earlier in the tick, from state `old`, meets a source: it has not re-armed (R328). Event 160 + g of a re-arm at
a boundary is that of the trip. -/
def State.unarm (s : State) (g old : Nat) (sent : Bool) (srcs : List Nat) : State :=
  let s := ((s.setIo (Reg.TRIP_GRP_STAT_STATE g) old).setAsserted g true).unrecord 4 g
  let s := s.setGrp g { s.grp g with rearmed := none }
  let s := { s with trip := { s.trip with sending := setBit s.trip.sending g sent } }.gooseTakeBack g
  if old = grpHold then s.tripHeld g srcs false else s.safeGroup g

/-- The quiet time of a group follows its counted sources, and the sources of the tick gather (R323). -/
def Grp.follow (x : Grp) (srcs : List Nat) (active : Bool) (now : Nat) : Grp :=
  let seen := srcs.foldl (fun l c => insertCode c l) (if x.seenAt = now then x.seen else x.acts)
  let x := { x with acts := srcs, seenAt := now, seen := seen }
  if active then { x with busy := true, quiet := now } else if x.busy then { x with busy := false, quiet := now } else x

/-- One group looked at: its quiet time follows the counted sources, and a group with an active source trips; what the tick did
before with a clear or a re-arm gives way (R323, R328). -/
def State.scanGroup (acts : List Nat) (s : State) (g : Nat) : State :=
  let srcs := s.srcsOf acts g
  let counted := if s.tb.released then srcs else srcs.filter (· ≠ 0x18E)
  let s := (s.setGrp g ((s.grp g).follow srcs (decide (counted ≠ [])) s.tb.ticks)).meetRefused g
  let st := s.io (Reg.TRIP_GRP_STAT_STATE g)
  if srcs = [] then s
  else if st = grpHold then s.tripHeld g srcs true
  else if st = grpArmed then
    match (s.grp g).rearmed with
    | some (t, old, sent) => if t = s.tb.ticks then s.unarm g old sent srcs else s.tripGroup g srcs
    | none => s.tripGroup g srcs
  else if st = grpTripped ∧ (s.grp g).tripAt = some s.tb.ticks then s.meetTrip g srcs
  else s

/-- The fabric looks at its sources after any of them has changed: the activity registers follow, and every group is
looked at. -/
def State.tripScan (s : State) : State :=
  let s := s.setIo Reg.TRIP_FW_ACT_GROUPS s.fwGroups
  let s := s.setIo Reg.TRIP_SRC_ACT_ACT s.srcAct
  (List.range 16).foldl (State.scanGroup s.activeCodes) s

/-- A channel source becomes active or inactive, TRIP_CH_STAT shows it, and the fabric looks (R318). -/
def State.setChanSrc (s : State) (code : Nat) (on : Bool) : State :=
  let n := code % 0x80
  let f := if code < 0x80 then Reg.TRIP_CH_STAT_DASH_ACT n
    else if code < 0x100 then Reg.TRIP_CH_STAT_OV_ACT n else Reg.TRIP_CH_STAT_UV_ACT n
  let s := s.setIo f (b2n on)
  { s with trip := { s.trip with
    chan := if on then insertCode code s.trip.chan else s.trip.chan.filter (· ≠ code) } }.tripScan

/-- A group leaves TRIPPED or HOLD for ARMED: the pins pass to the generator, whose active command is OFF, and a BYPASS
channel's lower gate falls as a command change of R285 (R324). -/
def State.rearmCh (s : State) (n k : Nat) : State :=
  let g := s.genCh n
  let r := if s.io (Reg.GEN_CH_CFG_MODE n) = 1 then 16 * s.io (Reg.GEN_CH_CFG_STAGGER n) else 0
  let es := s.edgeFor n false (s.gate n false) false s.tb.bTick r k
  s.setGenCh n { g.each (fun c => { c with edges := es, outU := s.gate n true, outL := s.gate n false }) with
    chg := [], bypassAt := none, mute := true }

/-- Re-arming of group `g` in the boundary tick of period `k` (R324), with its REARM record. -/
def State.rearmGroup (s : State) (g k : Nat) : State :=
  let s := s.setGrp g { s.grp g with
    rearmed := some (s.tb.ticks, s.io (Reg.TRIP_GRP_STAT_STATE g), s.trip.sending.getLsbD g) }
  let s := (s.setIo (Reg.TRIP_GRP_STAT_STATE g) grpArmed).setAsserted g false
  let s := { s with trip := { s.trip with sending := setBit s.trip.sending g false } }
  let s := (List.range 128).foldl (fun s n =>
    if s.inUse n && s.io (Reg.TRIP_CH_CFG_GROUP n) = g then s.rearmCh n k else s) s
  (s.tripRecord 4 g 0x3FF).gooseGroup g

/-- A source of group `g` is active in this tick (R323, R328). -/
def State.sourceNow (s : State) (g : Nat) : Bool := s.tickSrcs g ≠ []

/-- A clear request of group `g` (R323). -/
def State.clearGroup (s : State) (g : Nat) : State :=
  let st := s.io (Reg.TRIP_GRP_STAT_STATE g)
  if st = grpTripped ∧ s.sourceNow g = false then
    let s := (s.setIo (Reg.TRIP_GRP_STAT_STATE g) grpHold).tripRecord 3 g 0x3FF
    let s := s.setGrp g { s.grp g with cleared := some (s.tb.ticks, s.trip.sending.getLsbD g) }
    { s with trip := { s.trip with sending := setBit s.trip.sending g false } }.gooseGroup g
  else if st = grpTripped ∨ st = grpFault then s.clearRefused g
  else s

/-- Bypass, block or shutdown: the package source asserts every group (R318). -/
def State.packageOn (s : State) : State := { s with trip := { s.trip with package := true } }.tripScan

end Sys2Proof.Machine
end

