-- ==== Sys2Proof/Machine/NolOps.lean ====
section
/-! DEFINITION. Shared operations of the Nolri link: links and nodes, queues of frames, and sending (R360 to R375, R386). -/

namespace Sys2Proof.Machine

def dirUp : Nat := 0
def dirDown : Nat := 1
def dirPeer : Nat := 2

/-- The links in use with direction `dir`, ascending (R360). -/
def State.linksOf (s : State) (dir : Nat) : List Nat :=
  (List.range 32).filter (fun l => s.io (Reg.NOL_LINK_CFG_EN l) = 1 && s.io (Reg.NOL_LINK_CFG_DIR l) = dir)

/-- Registers of SYS_NODE and the like, as the worker's die holds them. -/
def State.sys (s : State) (f : Field) : Nat := s.rd (s.worker.getD .d0) f

/-- The device's node ID. -/
def State.nodeId (s : State) : Nat := s.sys Reg.SYS_NODE_NODE_ID

/-- The 64-bit unique ID (R1). -/
def State.uid (s : State) : Nat := s.sys Reg.SYS_UID_HI_UID * 2 ^ 32 + s.sys Reg.SYS_UID_LO_UID

def typeCycle : Nat := 1
def typeRef : Nat := 2
def typeThreshold : Nat := 3
def typeLadder : Nat := 4
def typeStatus : Nat := 5
def typeHealth : Nat := 6
def typeBulk : Nat := 7
def typeJoin : Nat := 8
def typeAccept : Nat := 9
def typeRefuse : Nat := 10
def typeLeave : Nat := 11

/-- The header of a frame (R366). -/
def OutFrame.header (f : OutFrame) : List Byte :=
  bytesOf 1 f.type ++ bytesOf 1 (b2n f.bcast + 2 * f.hops) ++ bytesOf 2 f.src ++ bytesOf 2 (if f.bcast then 0 else f.dst)
    ++ bytesOf 2 f.payload.length ++ bytesOf 4 f.period

/-- Bytes with zeros up to a multiple of `n`. -/
def padTo (n : Nat) (bs : List Byte) : List Byte := bs ++ List.replicate (ceilDiv bs.length n * n - bs.length) 0

/-- A frame behind its SOF: header, payload, padding and CRC (R365). -/
def OutFrame.bytes (f : OutFrame) : List Byte :=
  let b := f.header ++ padTo 4 f.payload
  b ++ bytesOf 4 (crc32c b)

/-- The rate codes words in 8b/10b, not in 64b/66b (R335). -/
def is8b10b (rate : Nat) : Bool := decide (rate ≤ 4)

/-- A word in 8b/10b: code-groups in order, each a byte and whether it is a control code (R363). -/
def LaneWord.groups : LaneWord → List (Bool × Byte)
  | .data bs => bs.map (false, ·)
  | .idle => [(true, 0xBC), (false, 0x50)]
  | .sof => [(true, 0xFB), (false, 0x00)]
  | .bos => [(true, 0x5C), (false, 0xB5)]
  | .mark a b => [(true, 0x7C), (false, a), (true, 0x7C), (false, b)]

/-- A word in 64b/66b: sync header and 8 bytes (R363). -/
def LaneWord.block : LaneWord → BitVec 2 × List Byte
  | .data bs => (0b01, bs)
  | .idle => (0b10, 0x1E :: List.replicate 7 0)
  | .sof => (0b10, 0x78 :: List.replicate 7 0)
  | .bos => (0b10, [0x55, 0xB5] ++ List.replicate 6 0)
  | .mark a b => (0b10, [0x66, a, b] ++ List.replicate 5 0)

/-- Bytes of a data word (R373). -/
def wordBytes (rate : Nat) : Nat := if is8b10b rate then 2 else 8

/-- The words of a frame: SOF, then its bytes in ascending order, the last word filled with zeros (R363, R365). -/
def frameWords (rate : Nat) (bs : List Byte) : List LaneWord :=
  let w := wordBytes rate
  .sof :: (List.range (ceilDiv bs.length w)).map (fun i => .data (padTo w (slice bs (w * i) w)))

/-- The words of a frame dealt over `n` lanes: word i goes on lane i mod n in cycle i / n, with IDLE elsewhere (R380). -/
def dealt (n : Nat) (ws : List LaneWord) : List (List LaneWord) :=
  (List.range n).map (fun i => (List.range (ceilDiv ws.length n)).map (fun c => ws.getD (c * n + i) .idle))

/-- Time of a frame of `len` payload bytes and its gap of two words on `n` lanes, in ps (R365, R373). -/
def framePs (rate n len : Nat) : Nat :=
  (ceilDiv (1 + ceilDiv (16 + 4 * ceilDiv len 4) (wordBytes rate)) n + 2) * wordPs rate

/-- A frame of this device's own, of the present period. -/
def State.ownFrame (s : State) (type : Nat) (bcast : Bool) (dst : Nat) (payload : List Byte) : OutFrame :=
  ⟨type, bcast, 0, s.nodeId, dst, s.io Reg.TB_PERIOD_NUM_K, payload⟩

/-- A membership frame joins the queue of link `l`. -/
def State.queueMemb (s : State) (l : Nat) (f : OutFrame) : State :=
  s.setLink l { s.link l with membQ := (s.link l).membQ ++ [f] }

/-- A membership frame goes ahead of every open frame. -/
def State.queueFirst (s : State) (l : Nat) (f : OutFrame) : State :=
  s.setLink l { s.link l with membQ := f :: (s.link l).membQ }

/-- LEAVE payload (R383). -/
def State.leavePayload (s : State) (reason : Nat) : List Byte := bytesOf 8 s.uid ++ bytesOf 8 reason

/-- A ladder of this device's own. -/
def ownLadder (f : OutFrame) : Bool := f.type = typeLadder && f.hops = 0

/-- The LEAVE of a controlled stop: a Cell's to its Hub ahead of every open frame, its state LEAVING, by which the servo loses
its parent (R423), and its ladder no longer sent (R23); a Hub's as BCAST with REASON 3 on every DOWN link (R385, R386). -/
def State.leaveForStop (s : State) : State :=
  if s.isHub then
    (s.linksOf dirDown).foldl (fun s l => s.queueFirst l (s.ownFrame typeLeave true 0 (s.leavePayload 3))) s
  else
    let s := if s.io Reg.NOL_MEMB_STAT_STATE = 3 ∧ s.servoSource = 1 then s.servoLost else s
    let s := s.setIo Reg.NOL_MEMB_STAT_STATE 4
    let s := { s with nol := { s.nol with leaving := true } }
    (s.linksOf dirUp).foldl (fun s l =>
      let x := s.link l
      let s := s.setLink l { x with tcQ := x.tcQ.filter (!ownLadder ·), tcP := x.tcP.filter (!ownLadder ·) }
      s.queueFirst l (s.ownFrame typeLeave false (s.sys Reg.SYS_NODE_PARENT) (s.leavePayload 1))) s

end Sys2Proof.Machine
end

