-- ==== Sys2Proof/Machine/RedOps.lean ====
section
/-! DEFINITION. Shared operations of the redundancy block: event records, grades, the controlled stop, die faults and
takeover (R467 to R480, R486). -/

namespace Sys2Proof.Machine

/-! ## Event records (R479, R480) -/

def recGrade : Nat := 0x10
def recDiscord : Nat := 0x11
def recVerdict : Nat := 0x12
def recTakeover : Nat := 0x13
def recDieState : Nat := 0x14
def recSpare : Nat := 0x15
def recShed : Nat := 0x16
def recStop : Nat := 0x17
def recCouch : Nat := 0x18

/-- A record with its CRC-32C put behind it. -/
def withCrc (bs : List Byte) : List Byte := bs ++ bytesOf 4 (crc32c bs)

/-- The 32 bytes of an event record (R479). -/
def logBytes (r : LogRec) : List Byte :=
  withCrc (bytesOf 4 (secOf r.time) ++ bytesOf 4 (nsOf r.time) ++ bytesOf 1 (fracOf r.time) ++ bytesOf 1 r.type
    ++ bytesOf 1 r.grade ++ bytesOf 1 r.die ++ bytesOf 2 r.cause ++ bytesOf 2 r.item ++ bytesOf 4 r.period
    ++ bytesOf 4 r.word ++ bytesOf 4 r.serial)

/-- First byte of the event queue in region A SRAM (R480). -/
def eventQueue : Nat := 0x200F6000

/-- The worker places an event record in its queue: entry `serial mod 256` (log entry 36). -/
def State.placeRecord (s : State) (r : LogRec) : State :=
  match s.worker with
  | none => s
  | some d => s.setRamBytes d.toNat (eventQueue + 32 * (r.serial % 256)) (logBytes r)

/-- An event record joins the queue of 256 entries, or is counted in LOG_LOST (R480). The stop record is written first
(R478). -/
def State.logEvent (s : State) (type die cause item word : Nat) : State :=
  let r : LogRec := ⟨type, s.io Reg.RED_GRADE_GRADE, die, cause, item, s.io Reg.TB_PERIOD_NUM_K, word, s.tb.time, s.red.serial⟩
  let s := { s with red := { s.red with serial := s.red.serial + 1 } }
  if type = recStop then { s with red := { s.red with logq := r :: s.red.logq } }.placeRecord r
  else if s.red.logq.length < 256 then { s with red := { s.red with logq := s.red.logq ++ [r] } }.placeRecord r
  else s.count (s.worker.getD .d0) Reg.LOG_LOST_COUNT Reg.LOG_STAT_SAT 1

/-! ## Grades (R474, R477, R486) -/

def causeRail : Nat := 0x01
def causePll : Nat := 0x02
def causeLockParity : Nat := 0x03
def causeRegion : Nat := 0x04
def causeBride : Nat := 0x05
def causeSelfCheck : Nat := 0x06
def causeCluster : Nat := 0x07
def causeCouch : Nat := 0x08
def causeBoot : Nat := 0x09
def causeHeartbeat : Nat := 0x0A
def causeLate : Nat := 0x0B
def causeRom : Nat := 0x0C
def causeNoDie : Nat := 0x20
def causeFit : Nat := 0x21
def causeThermal : Nat := 0x22
def causeClock : Nat := 0x23
def causeBothCheck : Nat := 0x24
def causeSpareUsed : Nat := 0x30
def causeChUnit : Nat := 0x31
def causeSparesSpent : Nat := 0x32
def causeNoSpare : Nat := 0x33
def causeGroupFault : Nat := 0x34
def causeClusterLost : Nat := 0x35

/-- DEGRADE[1:0] of a grade (R477). -/
def degradeCode (g : Nat) : BitVec 2 := if g = 0 then 0 else if g = 1 then 1 else if g ≤ 3 then 2 else 3

/-- DEGRADE[1:0] shows the grade once the gates have been released or G4 is entered (R477). -/
def State.showGrade (s : State) : State :=
  let g := s.io Reg.RED_GRADE_GRADE
  if s.pins.degrade.isSome || g = 4 || s.tb.released then
    { s with pins := { s.pins with degrade := some (degradeCode g) } }
  else s

/-- REPLACE_REQ_N asserts at the first entry to G2 or above, but for a G4 of cause THERMAL or CLOCK entered from below
G2, and not in maintenance-only mode (R477, R97). -/
def State.replaceFor (s : State) (old new cause : Nat) : Bool :=
  2 ≤ new && !(new = 4 && (cause = causeThermal || cause = causeClock) && old < 2) && s.phase ≠ phaseMaint

/-- A record of tick `now` carries the grade after it, and that of the rise its cause (R479, log entry 153). -/
def LogRec.regraded (r : LogRec) (now g cause : Nat) : LogRec :=
  if r.time = now then
    { r with grade := g, cause := if r.type = recGrade ∨ r.type = recStop then cause else r.cause }
  else r

/-- The records that wait to be written. -/
def State.setLogq (s : State) (q : List LogRec) : State := { s with red := { s.red with logq := q } }

/-- The records of this tick carry grade `g`, in the queue and where they stand in memory. -/
def State.regrade (s : State) (g cause : Nat) : State :=
  let named := s.red.logq.map (fun r => r.regraded s.tb.time g cause)
  (named.filter (fun r => r.time = s.tb.time)).foldl State.placeRecord (s.setLogq named)

/-- REPLACE for the tick's rise from grade `old`. -/
def State.showReplace (s : State) (old new cause : Nat) : State :=
  if s.replaceFor old new cause then s.setIo Reg.RED_GRADE_REPLACE 1 else s

/-- A further condition in the tick of a rise, no higher than the grade: the lowest code is the one named (R481, R486, log
entry 153). -/
def State.gradeMeets (s : State) (g cause : Nat) : State :=
  let old := s.io Reg.RED_GRADE_CAUSE
  let top := s.io Reg.RED_GRADE_GRADE
  if s.red.gradeAt = some s.tb.ticks && decide (s.red.gradeFrom < g) && decide (cause < old) then
    ((s.setIo Reg.RED_GRADE_CAUSE cause).regrade top cause).showReplace s.red.gradeFrom top cause
  else s

/-- The tick of a rise from grade `old`. -/
def State.noteRise (s : State) (old : Nat) : State :=
  { s with red := { s.red with gradeAt := some s.tb.ticks, gradeFrom := old } }

/-- What every rise of the grade does, from grade `old` to `g`: grade and cause, REPLACE, event 255 and the GRADE record, unless they
stand from a rise of the same tick, and the pins (R474, R477, R479). -/
def State.riseTo (s : State) (again : Bool) (old g cause : Nat) : State :=
  let s := (s.setIo Reg.RED_GRADE_GRADE g).setIo Reg.RED_GRADE_CAUSE cause
  let s := (s.showReplace old g cause).noteRise old
  let s := if again then s else (s.post 255).logEvent recGrade 0xFF cause 0 0
  (s.regrade g cause).showGrade

/-- The controlled stop starts: the package source asserts every group, a Hub sends block order sets on every Nolri lane, LEAVE is
queued, and the stop record is queued (R478). -/
def State.startStop (s : State) (cause : Nat) : State :=
  let s := s.packageOn
  let s := { s with tb := { s.tb with released := false }, red := { s.red with stopAt := some s.tb.ticks } }
  let s := if s.isHub then
      { s.sendBos ((List.range 32).foldl (fun m k => if s.io (Reg.LANE_CFG_USE k) = 1 then m + 2 ^ k else m) 0) with
        trip := { s.trip with stopSend := true } }
    else s
  s.leaveForStop.logEvent recStop 0xFF cause 0 0

/-- The grade rises, and entry to G4 starts the controlled stop (R474, R477, R478). Rises of one tick are one, to the highest grade,
with the cause that `pick` takes of the new one and the one named before. -/
def State.raiseGradeBy (s : State) (pick : Nat → Nat → Nat) (g cause : Nat) : State :=
  let old := s.io Reg.RED_GRADE_GRADE
  if g ≤ old then s.gradeMeets g cause else
  let again : Bool := s.red.gradeAt = some s.tb.ticks
  let old := if again then s.red.gradeFrom else old
  let cause := if again then pick cause (s.io Reg.RED_GRADE_CAUSE) else cause
  let s := s.riseTo again old g cause
  if g = 4 then s.startStop cause else s

/-- A rise of the grade; of several causes in one tick the lowest code is named (R481). -/
def State.raiseGrade (s : State) (g cause : Nat) : State := s.raiseGradeBy min g cause

/-! ## Die faults and takeover (R467, R468) -/

/-- The state code and cause of a die, logged and posted (R479, R484); the record of a retirement carries the unit's
unique ID (R473). -/
def State.setDieState (s : State) (d : Die) (st : Nat) : State :=
  ((s.setIo (Reg.RED_DIE_STATE d.toNat) st).logEvent recDieState d.toNat (s.io (Reg.RED_DIE_CAUSE d.toNat)) st
    (if st = 6 then s.uid % 2 ^ 32 else 0)).post 253

/-- The firmware trip request of RED_SUBST.MASK is held, or lifts (R469, R475). -/
def State.holdRequest (s : State) (b : Bool) : State := { s with red := { s.red with substHold := b } }.tripScan

/-- The takeover that a declaration began has not been: the records, the count of those lost and the time of the new copies are as
before (R481). -/
def State.undeclare (s : State) (w : Die) (x : Declared) : State :=
  let q := x.logq ++ s.red.logq.filter (fun r => !x.logq.contains r)
  let q := q.filter (fun r => !(r.time = s.tb.time && r.type = recDieState && r.die = w.toNat))
  ({ s with red := { s.red with logq := q, newFrom := x.newFrom } }.wr w.other Reg.LOG_LOST_COUNT x.lost).wr w.other
    Reg.LOG_STAT_SAT x.lostSat

/-- A declaration with the spare used and a fault of the passive in one tick: no die is PASSIVE, and the worker keeps its role at G3,
its lost cluster's work to be placed, or at G4 where it finds none (R469, R475, R481). -/
def State.keepWorker (s : State) (w : Die) (x : Declared) : State :=
  let s := s.undeclare w x
  let s := (s.setIo (Reg.RED_DIE_STATE w.toNat) 0).setIo (Reg.RED_DIE_FAULT w.toNat) x.fault
  let s := s.setIo (Reg.RED_DIE_CAUSE w.toNat) x.cause
  let s := if s.red.gradeAt = some s.tb.ticks then s.setIo Reg.RED_GRADE_CAUSE (s.io (Reg.RED_DIE_CAUSE w.other.toNat)) else s
  let s := { s with red := { s.red with takeover := none, declared := none, placeDue := some (w, x.cluster) } }.holdRequest true
  if x.fits then s.raiseGrade 3 causeClusterLost else s.raiseGrade 4 causeFit

/-- The die that a takeover goes to leaves service before it has the role: the package goes to G4, unless the old worker only
substitutes a cluster: it keeps the role then, with the request held; in the tick of the declaration it keeps the role in either case
(R467, R469, R481). -/
def State.takeoverFails (s : State) (d : Die) : State :=
  match s.red.takeover with
  | none => s
  | some t =>
    if t.from_ = d then s
    else
      let same := if t.at_ = s.tb.ticks then s.red.declared else none
      if s.red.takeoverSync then
        let s := match same with
          | some x => s.undeclare t.from_ x
          | none => s
        { s with red := { s.red with takeover := none, takeoverSync := false, declared := none } }.holdRequest true
      else match same with
        | some x => s.keepWorker t.from_ x
        | none => { s with red := { s.red with takeover := none } }.raiseGrade 4 causeNoDie

/-- A die leaves service by a fault of R468: OUT, or RETIRED where its cause is CLUSTER or its rejoins are spent; a die
lost is G2. -/
def State.putOut (s : State) (d : Die) (cause : Nat) : State :=
  let s := (s.raiseIo (Reg.RED_DIE_FAULT d.toNat)).setIo (Reg.RED_DIE_CAUSE d.toNat) cause
  let retired := cause = causeCluster ∨ s.io Reg.RED_CFG_REJOIN_MAX ≤ s.io (Reg.RED_DIE_REJOINS d.toNat)
  ((s.setDieState d (if retired then 6 else 4)).raiseGrade 2 cause).takeoverFails d

/-- Takeover starts: writes of the failed worker are discarded from now, t_v (R467); the role moves at ROLE_CHANGE. The
records its queue still holds are lost and counted by the new worker (R480). A takeover under way goes on, but no longer
spares the old worker (R468, R469). -/
def State.startTakeover (s : State) (d : Die) : State :=
  if s.red.takeover.isSome then { s with red := { s.red with takeoverSync := false } } else
  let keep := s.red.logq.filter (fun r => r.time = s.tb.time)
  let lost := s.red.logq.length - keep.length
  let s := { s with red := { s.red with takeover := some ⟨d, s.tb.ticks⟩, declared := none, newFrom := s.tb.ticks + 1000, logq := keep } }
  s.count d.other Reg.LOG_LOST_COUNT Reg.LOG_STAT_SAT lost

/-- The cause of a die whose state stays as it is: shown, logged and posted (R468, R479). -/
def State.logFault (s : State) (d : Die) (cause : Nat) : State :=
  ((s.setIo (Reg.RED_DIE_CAUSE d.toNat) cause).logEvent recDieState d.toNat cause (s.dieState d) 0).post 253

/-- A die fault (R42, R468): flag, cause, record and event 253; a fault of the worker starts a takeover where the other die
is PASSIVE and stops the package at G4 where none is; any other die in service leaves it; a die in RESET stays in it. -/
def State.dieFault (s : State) (d : Die) (cause : Nat) : State :=
  if s.lost d then s else
  let s := s.raiseIo (Reg.RED_DIE_FAULT d.toNat)
  if s.dieState d = 5 then s.logFault d cause else
  if s.isWorker d then
    if s.red.checking then
      { s.logFault d cause with red := { (s.logFault d cause).red with workerFault := some cause } }
    else if s.dieState d.other = 1 then (s.putOut d cause).startTakeover d
    else (s.logFault d cause).raiseGrade 4 causeNoDie
  else s.putOut d cause

end Sys2Proof.Machine
end

