-- ==== Sys2Proof/Machine/EccOps.lean ====
section
/-! DEFINITION. ECC events of a control die's SRAM: regions and banks, corrected and uncorrectable errors, and the start of
a spare bank's copy (R126, R127, R150, R471, R472). -/

namespace Sys2Proof.Machine

/-- The region, 0 or 1, in which an SRAM address lies; region A for anything else (R121, R123). -/
def regionOf (a : Nat) : Nat :=
  if 0x10000000 ≤ a ∧ a < 0x10100000 then (a - 0x10000000) / 0x80000
  else if 0x20000000 ≤ a ∧ a < 0x20200000 then (a - 0x20000000) / 0x100000
  else if 0x30000000 ≤ a ∧ a < 0x30040000 then (a - 0x30000000) / 0x20000
  else 0

/-- The bank of R471 that holds an address: 0 to 7 region banks, 8 to 11 and 12 to 15 the banks of the region's clusters;
CLE memory has none (R150). -/
def bankOf (a : Nat) : Option Nat :=
  if 0x20000000 ≤ a ∧ a < 0x20200000 then some (a / 4 % 8)
  else if 0x10000000 ≤ a ∧ a < 0x10100000 then some (8 + 4 * ((a - 0x10000000) / 0x40000 % 2) + a / 4 % 4)
  else none

/-- The address with the physical cluster in the place of the logical one: a remapped cluster lies in its spare's region and banks
(R449). -/
def State.physAddr (s : State) (d : Die) (a : Nat) : Nat :=
  if 0x10000000 ≤ a ∧ a < 0x10100000 then 0x10000000 + 0x40000 * s.phys d ((a - 0x10000000) / 0x40000) + a % 0x40000
  else if 0x30000000 ≤ a ∧ a < 0x30040000 then 0x30000000 + 0x10000 * s.phys d ((a - 0x30000000) / 0x10000) + a % 0x10000
  else a

/-- Bank `b` of region `r` reaches its threshold (R472): the spare bank takes it, or NO_SPARE sets and grades G2. Of two banks in
one tick the lower takes the spare (R481). -/
def State.bankThreshold (s : State) (d : Die) (r b : Nat) : State :=
  if s.bit d (Reg.MEM_SPARE_COPYING r) && s.rd d (Reg.MEM_SPARE_BANK r) = b then s
  else if s.bit d (Reg.MEM_SPARE_USED r) || s.bit d (Reg.MEM_SPARE_COPYING r) then
    let first := s.bit d (Reg.MEM_SPARE_COPYING r) && tabGet 0 s.red.copyAt (2 * d.toNat + r) = s.tb.ticks + 1
      && decide (b < s.rd d (Reg.MEM_SPARE_BANK r))
    let s := if first then s.wr d (Reg.MEM_SPARE_BANK r) b else s
    let s := (s.raise d (Reg.MEM_SPARE_NO_SPARE r)).post 254
    if s.inService d then s.raiseGrade 2 causeNoSpare else s
  else
    let s := { s with red := { s.red with copyAt := tabSet 0 s.red.copyAt (2 * d.toNat + r) (s.tb.ticks + 1) } }
    (s.wr d (Reg.MEM_SPARE_COPYING r) 1).wr d (Reg.MEM_SPARE_BANK r) b

/-- A single-bit error corrected at an address (R126, R471). -/
def State.eccCorrected (s : State) (d : Die) (a : Nat) : State :=
  let r := regionOf (s.physAddr d a)
  let b := bankOf (s.physAddr d a)
  let s := s.count d (Reg.MEM_ECC_CE_CNT_COUNT r) (Reg.MEM_ECC_STAT_SAT r) 1
  match b with
  | none => s
  | some b =>
    let n := s.rd d (Reg.MEM_BANK_CE_COUNT r b)
    let s := s.stick d (Reg.MEM_BANK_CE_COUNT r b)
    if n + 1 = s.rd d Reg.MEM_SPARE_CFG_CE_LIM then s.bankThreshold d r b else s

/-- An uncorrectable error at an address (R126, R127): flag, address, event 241 and the bank's threshold. The word offset
is the spec's within a region SRAM and a free value elsewhere (log entry 12). -/
def State.eccUncorrectable (s : State) (d : Die) (a : Nat) : State :=
  let r := regionOf (s.physAddr d a)
  let b := bankOf (s.physAddr d a)
  let s := s.raise d (Reg.MEM_ECC_STAT_UE r)
  let s := if 0x20000000 ≤ a ∧ a < 0x20200000 then s.wr d (Reg.MEM_ECC_STAT_UE_ADDR r) ((a - 0x20000000) % 0x100000 / 4)
    else (s.wr d (Reg.MEM_ECC_STAT_UE_ADDR r) (Config.free s.freeCtr)).draw 1
  let s := s.post 241
  match b with
  | none => s
  | some b => s.bankThreshold d r b

end Sys2Proof.Machine
end

