-- ==== Sys2Proof/Machine/Ground.lean ====
section
/-! DEFINITION. Ground: requests, grants by emergency, cap or lottery draw, revocation, and the bulk counters (R150 to
R165). -/

namespace Sys2Proof.Machine

/-- The arbitration clock of a target: 0, 1 the core clocks of regions A, B; 2, 3 their CLE clocks (R150, R450). -/
def State.gndClock (s : State) (d : Die) (t : Nat) : Nat :=
  if t < 16 then s.phys d (t / 4) / 2
  else if t < 24 then 0
  else if t < 32 then 1
  else if t < 36 then 2 + s.phys d (t - 32) / 2
  else 0

/-- One cycle of a lottery register (R154). -/
def lfsrStep (l : Nat) : Nat :=
  (l * 2) % 2 ^ 16 + (l / 2 ^ 15 + l / 2 ^ 13 + l / 2 ^ 12 + l / 2 ^ 10) % 2

/-- `n` cycles of a lottery register. -/
def lfsrRun : Nat → Nat → Nat
  | 0, l => l
  | n + 1, l => lfsrRun n (lfsrStep l)

def State.gndTarget (s : State) (d : Die) (t : Nat) : GndTarget := tabGet {} s.gnd (64 * d.toNat + t)
def State.setGndTarget (s : State) (d : Die) (t : Nat) (x : GndTarget) : State :=
  { s with gnd := tabSet {} s.gnd (64 * d.toNat + t) x }

/-- The reset value of GND_CFG.SEED (R165). -/
def seedReset : Nat := 0xACE1

/-- A clock's lottery register. -/
def State.lottery (s : State) (d : Die) (k : Nat) : Nat := tabGet seedReset s.lfsr (4 * d.toNat + k)

/-- The lottery registers of a die are loaded from GND_CFG.SEED once the pricking has been applied (R154, R165). -/
def State.seedLottery (s : State) (d : Die) : State :=
  (List.range 4).foldl (fun s k =>
    { s with lfsr := tabSet seedReset s.lfsr (4 * d.toNat + k) (s.rd d Reg.GND_CFG_SEED) }) s

/-- A clock's cycle count. -/
def State.gndNow (s : State) (d : Die) (k : Nat) : Nat := tabGet 0 s.gndClk (4 * d.toNat + k)

/-- The class of a requester: 16 to 20 bulk, a core's by its task, the others control or emergency (R151, R152). -/
def State.isBulk (s : State) (d : Die) (r : Nat) : Bool :=
  if r < 12 then (s.core d r).bulk else 16 ≤ r && r ≤ 20

/-- The effective ticket count of a requester in its present class (R151, R155, R161). -/
def State.tickets (s : State) (d : Die) (rq : GndReq) : Nat :=
  if s.isBulk d rq.req then s.rd d (Reg.GND_TKT_BLK rq.req) else s.rd d (Reg.GND_TKT_CTL rq.req)

/-- Requesters 21 and 22 are emergency requesters. -/
def isEmergency (r : Nat) : Bool := r = 21 || r = 22

/-- A bulk request not granted in its first cycle counts once (R163). -/
def State.countWait (s : State) (d : Die) (rq : GndReq) : State :=
  if rq.bulk && !rq.counted then s.count d (Reg.GND_WAIT_CNT_COUNT rq.req) (Reg.GND_CNT_STAT_WAIT_SAT rq.req) 1 else s

/-- What a waiting request has become by cycle `now`: counted when its first cycle has passed, capped when it has waited
WAIT_CAP cycles with tickets (R156, R163). -/
def State.ageReq (s : State) (d : Die) (now : Nat) (rq : GndReq) : GndReq :=
  { rq with
    counted := rq.counted || decide (rq.since < (now : Int))
    capped := rq.capped || (!isEmergency rq.req && decide ((s.rd d Reg.GND_CFG_WAIT_CAP : Int) ≤ now - rq.since)
      && decide (s.tickets d rq ≠ 0)) }

/-- A bulk grant has ended with its last word: GND_LONGEST takes the wait from first issue to that grant (R163). -/
def State.noteLongest (s : State) (d : Die) (h : GndHold) : State :=
  if h.rq.bulk then
    s.wr d (Reg.GND_LONGEST_COUNT h.rq.req)
      (max (s.rd d (Reg.GND_LONGEST_COUNT h.rq.req)) (min ((h.ends : Int) - h.rq.words - h.rq.since).toNat counterMax))
  else s

/-- The address in the common map that a requester's address stands for: a core and a CLE see their own cluster at 0 (R123). -/
def gndAddr (r a : Nat) : Nat :=
  if a < 0x40000 ∧ r < 16 then 0x10000000 + 0x40000 * (if r < 12 then r / 3 else r - 12) + a else a

/-- The target that an address selects, by its bits where the resource has banks (R150). -/
def gndSelects (a : Nat) : Option Nat :=
  if 0x10000000 ≤ a ∧ a < 0x10100000 then some (4 * ((a - 0x10000000) / 0x40000) + a / 4 % 4)
  else if 0x20000000 ≤ a ∧ a < 0x20200000 then some (16 + 8 * ((a - 0x20000000) / 0x100000) + a / 4 % 8)
  else if 0x30000000 ≤ a ∧ a < 0x30040000 then some (32 + (a - 0x30000000) / 0x10000)
  else if 0x50000000 ≤ a ∧ a < 0x50010000 then some 36
  else if 0x40000000 ≤ a ∧ a < 0x41000000 ∨ 0x60000000 ≤ a ∧ a < 0x61000000 ∨ 0x80000000 ≤ a ∧ a < 0x90000000 then some 37
  else none

/-- Bytes from one word of a burst to the next: consecutive words of one bank (R150). -/
def gndStride (t : Nat) : Nat := if t < 16 then 16 else if t < 32 then 32 else 4

/-- The address of a transfer. -/
def xferAddr : Xfer → Nat
  | .read a | .write a _ => a.toNat

/-- A transfer stores. -/
def xferWrites : Xfer → Bool
  | .read _ => false
  | .write _ _ => true

/-- Word `i` of a request's burst at target `t`, where it lies in SRAM of the die. Words elsewhere are their unit's, whose access has a
row of its own (log entry 157). -/
def gndPlace (t : Nat) (rq : GndReq) (i : Nat) : Option Nat :=
  let a := gndAddr rq.req (xferAddr rq.xfer / 4 * 4) + gndStride t * i
  if gndSelects a = some t ∧ (t < 32 ∨ 32 ≤ t ∧ t < 36 ∧ 0x8000 ≤ a % 0x10000) then some a else none

/-- Word `i` of a grant is written: it is stored (R155, R160). -/
def State.moveWord (s : State) (d : Die) (t : Nat) (rq : GndReq) (i : Nat) : State :=
  match rq.xfer with
  | .read _ => s
  | .write _ data =>
    match gndPlace t rq i, data[i]? with
    | some x, some v => (s.breakResv d rq.req x).extWord d x v.toNat
    | _, _ => s

/-- Word `i` of a grant is read: the state after it, and its data, none where its error is uncorrectable (R126). -/
def State.readWord (s : State) (d : Die) (t : Nat) (rq : GndReq) (i : Nat) : State × List Nat :=
  match rq.xfer, gndPlace t rq i with
  | .read _, some x =>
    (match (rq.errs.find? (fun p => p.1 = i)).map (fun p => p.2) with
     | some Ecc.corrected => (s.eccCorrected d x, [s.ram32 d.toNat x])
     | some Ecc.uncorrectable => (s.eccUncorrectable d x, [])
     | _ => (s, [s.ram32 d.toNat x]))
  | _, _ => (s, [])

/-- Words `i` to `n` of a grant, and what a read of them brings after `got`. -/
def State.moveWords (s : State) (d : Die) (t : Nat) (rq : GndReq) (is got : List Nat) : State × List Nat :=
  is.foldl (fun p i => let r := (p.1.moveWord d t rq i).readWord d t rq i; (r.1, p.2 ++ r.2)) (s, got)

/-- The grant of a target goes on to cycle `now`, one word a cycle; its end frees the target and hands a read's words over (R153,
R160). -/
def State.gndMove (s : State) (d : Die) (t now : Nat) (h : GndHold) : State × Option GndHold :=
  let n := min h.rq.words (now + h.rq.words - h.ends)
  let p := s.moveWords d t h.rq ((List.range n).drop h.done) h.got
  if now < h.ends then (p.1, some { h with done := n, got := p.2 })
  else
    (match h.rq.xfer with
     | .read _ => (p.1.noteLongest d h).send (.ground d t h.rq.req p.2)
     | .write _ _ => p.1.noteLongest d h, none)

/-- The outstanding stores of requester `r` are dropped, at every target (R147). -/
def State.dropStores (s : State) (d : Die) (r : Nat) : State :=
  let out := fun (rq : GndReq) => decide (rq.req = r) && xferWrites rq.xfer
  (List.range 38).foldl (fun s t =>
    let x := s.gndTarget d t
    if x.waiting.any out || (x.hold.any fun h => out h.rq) then
      s.setGndTarget d t { hold := x.hold.filter (fun h => !out h.rq), waiting := x.waiting.filter (fun rq => !out rq) }
    else s) s

/-- A target at cycle `now` of its clock: waits are counted and capped, and a finished grant frees it. -/
def State.gndAge (s : State) (d : Die) (t now : Nat) : State :=
  let x := s.gndTarget d t
  let s := x.waiting.foldl (fun s rq => if rq.since < (now : Int) then s.countWait d rq else s) s
  let w := x.waiting.map (s.ageReq d now)
  match x.hold with
  | none => s.setGndTarget d t { hold := none, waiting := w }
  | some h => (s.gndMove d t now h).1.setGndTarget d t { hold := (s.gndMove d t now h).2, waiting := w }

/-- The clock of target `t` runs `n` cycles: its lottery register advances, and so do all targets that share it. -/
def State.gndRun (s : State) (d : Die) (t n : Nat) : State :=
  let k := s.gndClock d t
  let now := s.gndNow d k + n
  let s := { s with
    lfsr := tabSet seedReset s.lfsr (4 * d.toNat + k) (lfsrRun n (s.lottery d k))
    gndClk := tabSet 0 s.gndClk (4 * d.toNat + k) now }
  ((List.range 38).filter (fun t => s.gndClock d t = k)).foldl (fun s t => s.gndAge d t now) s

/-- The draw of a requester (R155). -/
def State.drawOf (s : State) (d : Die) (k : Nat) (rq : GndReq) : Nat :=
  s.tickets d rq * ((s.lottery d k * (2 * rq.req + 1)) % 2 ^ 16 / 2 ^ 8 + 1)

/-- `a` is preferred to `b` among capped requests: the longer wait, then the lower number. -/
def cappedBefore (a b : GndReq) : Bool := decide (a.since < b.since) || (decide (a.since = b.since) && a.req < b.req)

/-- The best of a list under a preference. -/
def bestOf {α : Type} (before : α → α → Bool) : List α → Option α
  | [] => none
  | x :: xs =>
    match bestOf before xs with
    | none => some x
    | some y => if before y x then some y else some x

/-- The request that wins a free target, and how (R155). -/
def State.winner (s : State) (d : Die) (k : Nat) (w : List GndReq) : Option (GndReq × GrantKind) :=
  match bestOf (fun a b => a.req < b.req) (w.filter (fun r => isEmergency r.req)) with
  | some r => some (r, .emergency)
  | none =>
    match bestOf cappedBefore (w.filter (·.capped)) with
    | some r => some (r, .capped)
    | none =>
      (bestOf (fun a b => s.drawOf d k b < s.drawOf d k a || (s.drawOf d k a = s.drawOf d k b && a.req < b.req)) w).map
        (fun r => (r, .draw (s.drawOf d k r)))

/-- Whether a winner may revoke the grant in progress (R159). -/
def mayRevoke (immediate : Bool) (hold win : GrantKind) : Bool :=
  match hold, win with
  | .emergency, _ => false
  | _, .emergency => true
  | .capped, _ => false
  | .draw _, .capped => immediate
  | .draw h, .draw w => immediate && h < w

/-- GND_GRANT_CNT wraps, and WRAPS counts the wraps up to 0xFF (R163). -/
def State.countGrant (s : State) (d : Die) (i : Nat) : State :=
  if s.rd d (Reg.GND_GRANT_CNT_COUNT i) < counterMax then
    s.wr d (Reg.GND_GRANT_CNT_COUNT i) (s.rd d (Reg.GND_GRANT_CNT_COUNT i) + 1)
  else
    let s := s.wr d (Reg.GND_GRANT_CNT_COUNT i) 0
    if s.rd d (Reg.GND_CNT_STAT_WRAPS i) < 0xFF then
      s.wr d (Reg.GND_CNT_STAT_WRAPS i) (s.rd d (Reg.GND_CNT_STAT_WRAPS i) + 1)
    else s.raise d (Reg.GND_CNT_STAT_GRANT_SAT i)

/-- The request takes the target (R155, R163): bulk requests are counted, and the losers of this cycle wait. -/
def State.grant (s : State) (d : Die) (t now : Nat) (rq : GndReq) (kind : GrantKind) (back : List GndReq) : State :=
  let x := s.gndTarget d t
  let s := if rq.bulk then s.countGrant d rq.req else s
  let rest := x.waiting.erase rq
  let s := rest.foldl (fun s r => s.countWait d r) s
  s.setGndTarget d t { hold := some { rq := rq, kind := kind, ends := now + rq.words }
                       waiting := back ++ rest.map (fun r => { r with counted := true }) }

/-- Requester `r` issues no burst in cycle `now` of clock `k`: a core that waits in FZ.TWAIT or has stopped (R147, R152), and an
emergency requester within 64 cycles of its last burst (R153). -/
def State.gndSilent (s : State) (d : Die) (k r now : Nat) : Bool :=
  (r < 12 && (s.core d r).mode ≠ .running)
    || (isEmergency r && now < tabGet 0 s.gndEm (8 * d.toNat + 2 * k + r % 2) + 63
      && tabGet 0 s.gndEm (8 * d.toNat + 2 * k + r % 2) ≠ 0)

/-- An emergency burst is issued: its cycle, plus 1, is kept (R153). -/
def State.noteBurst (s : State) (d : Die) (k r now : Nat) : State :=
  if isEmergency r then { s with gndEm := tabSet 0 s.gndEm (8 * d.toNat + 2 * k + r % 2) (now + 1) } else s

/-- The region whose clock a requester has: cores and CLEs that of their cluster, the scrubbers their own, the others region A. -/
def State.reqRegion (s : State) (d : Die) (r : Nat) : Nat :=
  if r < 12 then s.phys d (r / 3) / 2
  else if r < 16 then s.phys d (r - 12) / 2
  else if r = 18 then 1 else 0

/-- GROUND_REQUEST (R152, R153, R155): a request of 1 to 16 words joins the target's waiting requests. One that waits there already has
its request, and a second is dropped (log entry 158). A target serves what its address selects (R150), and the debug port reads only
(R151). A region FIFO that an internal fault has filled refuses a request from the
other region, with event 255 (R60, log entry 121). -/
def execGroundRequest (d : Die) (target : Fin 38) (req : Fin 24) (words : Fin 17) (cycles : Nat) (xfer : Xfer) (full : Bool)
    (errs : List (Nat × Ecc)) (s : State) : Result :=
  let s := s.gndRun d target cycles
  let x := s.gndTarget d target
  let k := s.gndClock d target
  let now := s.gndNow d k
  if gndSelects (gndAddr req (xferAddr xfer)) ≠ some target.val ∨ (req = 22 ∧ xferWrites xfer) then .next s
  else if full && s.reqRegion d req ≠ k % 2 then .next (s.post 255)
  else if words = 0 ∨ x.waiting.any (·.req = req) ∨ s.gndSilent d k req now then .next s
  else .next ((s.setGndTarget d target { x with waiting := x.waiting ++
    [{ req := req, words := words, bulk := s.isBulk d req, xfer := xfer, errs := errs, since := now }] }).noteBurst d k req now)

/-- GROUND_GRANT (R155, R159, R160): a free target is granted; a held one passes to a winner that may revoke the grant,
whose request then waits again with the wait it had. The last word of a grant is never revoked. -/
def execGroundGrant (d : Die) (target : Fin 38) (cycles : Nat) (s : State) : Result :=
  let s := s.gndRun d target cycles
  let x := s.gndTarget d target
  let k := s.gndClock d target
  let now := s.gndNow d k
  match s.winner d k x.waiting with
  | none => .next s
  | some (rq, kind) =>
    match x.hold with
    | none => .next (s.grant d target now rq kind [])
    | some h =>
      let imm := bitOf (s.rd d Reg.GND_PREEMPT_LO_MODE + 2 ^ 32 * s.rd d Reg.GND_PREEMPT_HI_MODE) target
      if now + 1 < h.ends ∧ mayRevoke imm h.kind kind then
        .next (s.grant d target now rq kind [{ h.rq with counted := true }])
      else .next s

/-- REQUEST_CAPPED (R156): a request with tickets that has waited WAIT_CAP cycles becomes capped. -/
def execRequestCapped (d : Die) (target : Fin 38) (req : Fin 24) (cycles : Nat) (s : State) : Result :=
  let s := s.gndRun d target cycles
  let x := s.gndTarget d target
  .next (s.setGndTarget d target { x with waiting := x.waiting.map (fun r =>
    if r.req = req.val && !isEmergency r.req && s.tickets d r ≠ 0
        && decide ((s.rd d Reg.GND_CFG_WAIT_CAP : Int) ≤ s.gndNow d (s.gndClock d target) - r.since) then { r with capped := true }
    else r) })

/-- The grant and the waits of a target pass from clock `k` to the target's present clock: what a grant still holds and what a request
has waited stay the same numbers of cycles (R153, R156, R163, R449). -/
def State.gndRebase (s : State) (d : Die) (t k : Nat) : State :=
  let x := s.gndTarget d t
  let old := s.gndNow d k
  let now := s.gndNow d (s.gndClock d t)
  if s.gndClock d t = k then s
  else s.setGndTarget d t
    { hold := x.hold.map (fun h => { h with ends := now + (h.ends - old), rq := { h.rq with since := h.rq.since + now - old } })
      waiting := x.waiting.map (fun r => { r with since := r.since + now - old }) }

/-- The targets of a cluster: its SRAM banks and its CLE's memory (R150). -/
def clusterTargets (c : Nat) : List Nat := [4 * c, 4 * c + 1, 4 * c + 2, 4 * c + 3, 32 + c]

/-- GND_LONGEST of the requesters named is zeroed (R164). -/
def State.longClr (s : State) (d : Die) (mask : Nat) : State :=
  (bitsBelow 24 mask).foldl (fun s i => s.wr d (Reg.GND_LONGEST_COUNT i) 0) s

/-- GND_LONG_CLR (R164). -/
def execGndLongClr (d : Die) (mask : BitVec 24) (s : State) : Result := .next (s.longClr d mask.toNat)

end Sys2Proof.Machine
end

