-- ==== Sys2Proof/Machine/Shadow.lean ====
section
/-! DEFINITION. Shadow sets: their fields, writes to the worker's shadow and to the passive's comparison copy, commits,
and the discord comparator (R4, R7, R69, R292, R455, R464 to R466, R481). -/

namespace Sys2Proof.Machine

/-! ## The sets -/

/-- Set numbers of the I/O die (R188, R250, R292, R433). -/
def setTrim : Nat := 0x100
def setOut (c : Nat) : Nat := 0x200 + c
def setCmd : Nat := 0x300
def setRise : Nat := 0x301
def setPicot (p : Nat) : Nat := 0x400 + p

/-- Set numbers of a die's own sets: loop modes of CLE `c` (R234) and the control tickets (R161). -/
def setMode (c : Nat) : Nat := 0x210 + c
def setTickets : Nat := 0x800

/-- The sets of the I/O die in rising order. -/
def ioSets : List Nat := setTrim :: [0, 1, 2, 3].map setOut ++ [setCmd, setRise] ++ (List.range 8).map setPicot

/-- The fields of a set, each with its register of the active value; the place in the list is the item of R482. -/
def setFields (n : Nat) : List (Field × Field) :=
  if n = setTrim then (List.range 144).map (fun i => (Reg.MEAS_TRIM_TRIM i, Reg.MEAS_TRIM_TRIM i))
  else if 0x200 ≤ n ∧ n < 0x204 then (List.range 256).map (fun w => (Reg.CLE_OUT_Y (n - 0x200) w, Reg.CLE_OUTA_Y (n - 0x200) w))
  else if n = setCmd then (List.range 128).map (fun i => (Reg.GEN_CMD_CMD i, Reg.GEN_CMD_ACT i))
  else if n = setRise then (List.range 128).map (fun i => (Reg.GEN_RISE_RISE i, Reg.GEN_RISE_ACT_RISE i))
  else if 0x400 ≤ n ∧ n < 0x408 then
    [Reg.PICOT_CFG_MODE, Reg.PICOT_START_SEC_SEC, Reg.PICOT_START_NS_NS, Reg.PICOT_WIDTH_WIDTH, Reg.PICOT_PER_PER].map
      (fun f => (f (n - 0x400), f (n - 0x400)))
  else []

/-- The SH fields of a die's own sets. -/
def dieSetFields (n : Nat) : List Field :=
  if 0x210 ≤ n ∧ n < 0x214 then (List.range 32).map (fun i => Reg.LOOP_CTL_MODE (n - 0x210) i)
  else if n = setTickets then (List.range 24).map Reg.GND_TKT_CTL
  else []

/-! ## Copies: the worker's and the passive's -/

/-- A field of one of the two shadow copies, the worker's or the passive's. -/
def State.sideSh (s : State) (w : Bool) (f : Field) : Nat := if w then s.rdSh .d0 f else s.rdShP .d0 f

/-- A write to one of the two shadow copies. -/
def State.setSideSh (s : State) (w : Bool) (f : Field) (v : Nat) : State :=
  if w then s.wrSh .d0 f v else s.wrShP .d0 f v

/-- A field of a staging copy. -/
def State.staged (s : State) (w : Bool) (f : Field) : Nat :=
  tabGet 0 (if w then s.stagedW else s.stagedP) (fieldKey .d0 f) ^^^ f.reset

/-- A write to a staging copy. -/
def State.setStaged (s : State) (w : Bool) (f : Field) (v : Nat) : State :=
  if w then { s with stagedW := tabSet 0 s.stagedW (fieldKey .d0 f) ((v % 2 ^ f.width) ^^^ f.reset) }
  else { s with stagedP := tabSet 0 s.stagedP (fieldKey .d0 f) ((v % 2 ^ f.width) ^^^ f.reset) }

/-- The whole shadow of a set goes to its staging copy (R292). -/
def State.stageSet (s : State) (w : Bool) (n : Nat) : State :=
  (setFields n).foldl (fun s p => s.setStaged w p.1 (s.sideSh w p.1)) s

/-- The fields of a set, each with its active value; that of a command is the one in force (R283, R292, R296). -/
def State.activeVals (s : State) (n : Nat) : List (Field × Nat) :=
  if n = setCmd then (List.range 128).map (fun i => (Reg.GEN_CMD_CMD i, s.actNow i))
  else (setFields n).map (fun p => (p.1, s.io p.2))

/-- The active values of a set go back into a shadow (R292). -/
def State.restoreSet (s : State) (w : Bool) (n : Nat) : State :=
  (s.activeVals n).foldl (fun s p => s.setSideSh w p.1 p.2) s

/-- What an abandoned or late run has written to the output block goes: the die's shadow copy takes the active values again, so that no
later commit applies it (R224, R292). -/
def State.dropOut (s : State) (d : Die) (c : Nat) : State :=
  if s.mayWrite d then s.restoreSet true (setOut c)
  else if s.lost d || s.isWorker d then s
  else s.restoreSet false (setOut c)

/-- A write to an SH field of the I/O die window: the worker's shadow, or the passive's comparison copy; MEAS_TRIM.TRIM is
clamped to its bounds (R188, R455). -/
def State.writeShIo (s : State) (d : Die) (f : Field) (v : Nat) : State :=
  let v := f.holds v
  if s.mayWrite d then s.setSideSh true f v
  else if s.lost d || s.isWorker d then s
  else s.setSideSh false f v

/-! ## Discord (R464, R465, R481) -/

/-- Both dies enter CHECKING, the worker keeping its role; a discord in CHECKING starts no second check, and the lowest
set of the period is the one shown. -/
def State.discord (s : State) (kind n word : Nat) : State :=
  let shown := s.red.checking && (s.io Reg.RED_DISC_STAT_KIND < kind
    || (s.io Reg.RED_DISC_STAT_KIND = kind && s.io Reg.RED_DISC_STAT_SET ≤ n))
  let s := if shown then s else
    ((s.setIo Reg.RED_DISC_STAT_KIND kind).setIo Reg.RED_DISC_STAT_SET n).setIo Reg.RED_DISC_STAT_WORD word
  let s := s.raiseIo Reg.RED_DISC_STAT_DISCORD
  if s.red.checking then s else
  let s := (s.post 253).logEvent recDiscord 0xFF 0 n word
  ({ s with red := { s.red with checking := true, checkAt := s.tb.ticks } }.setDieState .d0 3).setDieState .d1 3

/-- One field agrees: exactly, or within the window of its CLE. -/
def State.fieldAgrees (s : State) (n : Nat) (f : Field) : Bool :=
  if 0x200 ≤ n ∧ n < 0x204 then
    absN (signed 32 (s.staged true f) - signed 32 (s.staged false f)) ≤ s.io (Reg.RED_DISC_WIN_LSB (n - 0x200))
  else s.staged true f = s.staged false f

/-- The first item that disagrees, counted from `i`. -/
def State.firstDispute (s : State) (n : Nat) : List (Field × Field) → Nat → Option Nat
  | [], _ => none
  | p :: ps, i => if s.fieldAgrees n p.1 then State.firstDispute s n ps (i + 1) else some i

/-- Commits are compared: a die is PASSIVE, or was when the self-check began that still runs, so that a second discord of the
period is seen (R464, R465, R481, log entry 152). -/
def State.compares (s : State) : Bool :=
  s.hasPassive || (s.red.checking && s.dieState .d0 = 3 && s.dieState .d1 = 3)

/-- Both commits of a set have come while commits are compared. -/
def State.compareSet (s : State) (n : Nat) : State :=
  let x := s.setOf n
  if x.staged && x.pStaged && s.compares then
    match s.firstDispute n (setFields n) 0 with
    | none => s.setSet n { x with agreed := true, disputed := false }
    | some i => (s.setSet n { x with agreed := false, disputed := true }).discord 0 n i
  else s

/-! ## Picot outputs (R426, R427) -/

def State.picotOf (s : State) (p : Nat) : PicotSt := tabGet {} s.picot p
def State.setPicotSt (s : State) (p : Nat) (x : PicotSt) : State := { s with picot := tabSet {} s.picot p x }

/-- PICOT[p] at its pin: the pulse in progress, inverted where POL is 1; low until gate release and in the shutdown of R41
(R32). In the test state the boundary register drives it (R52). -/
def State.drivePicot (s : State) (p : Nat) : State :=
  let v : Bool := (s.ioBit (Reg.PICOT_STAT_ACTIVE p) != s.ioBit (Reg.PICOT_CFG_POL p)) && s.pins.live && !s.power.shutdown
  if s.testState then s else
  { s with pins := { s.pins with picot := setBit s.pins.picot p v } }

/-- Picot modes of R426. -/
def picotOnce : Nat := 1
def picotPeriodic : Nat := 2

/-- The least T + j × PER that is not before `now`, in units of the time value. -/
def nextPulse (t per now : Nat) : Nat := if now ≤ t then t else t + ceilDiv (now - t) per * per

/-- The staged values of PICOT[p] take effect in the tick of their acceptance, or are not taken; a pulse due in that
tick still starts under the old ones (R426 to R428). -/
def State.picotTake (s : State) (p : Nat) : State :=
  let v := fun f => s.staged true f
  let w := v (Reg.PICOT_WIDTH_WIDTH p)
  let per := v (Reg.PICOT_PER_PER p)
  let mode := v (Reg.PICOT_CFG_MODE p)
  if w = 0 ∨ (mode = picotPeriodic ∧ per ≤ w) then s.raiseIo (Reg.PICOT_STAT_BAD p)
  else
    let old := s.io (Reg.PICOT_WIDTH_WIDTH p)
    let due := (s.picotOf p).next.any (fun t => decide (t ≤ s.tb.time) && decide (s.tb.time < t + s.addend))
    let s := (setFields (setPicot p)).foldl (fun s e => s.setIo e.2 (s.staged true e.1)) s
    let now := s.tb.time
    let t := (secOf now / 2 ^ 32 * 2 ^ 32 + v (Reg.PICOT_START_SEC_SEC p)) * secUnit + v (Reg.PICOT_START_NS_NS p) * nsUnit
    let x := { s.picotOf p with due := if due then some (s.tb.ticks, old) else none }
    if mode = picotOnce then
      if t < now then (s.setPicotSt p { x with next := none }).raiseIo (Reg.PICOT_STAT_PAST p)
      else s.setPicotSt p { x with next := some t }
    else if mode = picotPeriodic then s.setPicotSt p { x with next := some (nextPulse t (2 * per * nsUnit) now) }
    else s.setPicotSt p { x with next := none }

/-! ## Commits (R7, R69, R292, R464) -/

/-- An accepted commit of a picot set acts at once; with a die PASSIVE, once both dies' commits have come and agree (R427,
R464). -/
def State.picotCommit (s : State) (n : Nat) : State :=
  if 0x400 ≤ n ∧ n < 0x408 ∧ (s.setOf n).staged ∧ (!s.compares || (s.setOf n).agreed) then
    (s.setSet n { s.setOf n with done := true }).picotTake (n - 0x400)
  else s

/-- A commit of set `n` by die `d` reaches the I/O die: before the guard the shadow is staged and compared; inside it
nothing stays staged and the shadow takes the active values. -/
def State.commitIo (s : State) (d : Die) (n : Nat) : State :=
  let x := s.setOf n
  if s.mayWrite d then
    if s.inGuard then (s.setSet n { x with staged := false, missed := true }).restoreSet true n
    else (((s.stageSet true n).setSet n { x with staged := true, missed := false, done := false }).compareSet n).picotCommit n
  else if s.lost d || s.isWorker d then s
  else if s.inGuard then (s.setSet n { x with pStaged := false }).restoreSet false n
  else (((s.stageSet false n).setSet n { x with pStaged := true }).compareSet n).picotCommit n

/-- R69 at a boundary: MISS, the counter and event 177, which names the period whose commit was missed (R74). -/
def State.missSet (s : State) : State :=
  let s := { s with tb := { s.tb with missed := some s.tb.prevK } }
  ((s.raiseIo Reg.TB_STAT_MISS).countIo Reg.TB_MISS_CNT_COUNT Reg.TB_MISS_SAT_SAT).post 177

/-- Whether set `n` is applied at this boundary (R69, R464). -/
def State.applies (s : State) (n : Nat) : Bool := (s.setOf n).staged && !(s.setOf n).disputed

/-- Set `n` is left uncommitted by the worker at this boundary: its last commit was late, or only the passive committed. -/
def State.misses (s : State) (n : Nat) : Bool :=
  let x := s.setOf n
  !x.staged && (x.missed || (x.pStaged && s.hasPassive))

/-- The passive's commit of set `n` is missing (R464). -/
def State.passiveMissing (s : State) (n : Nat) : Bool :=
  (s.setOf n).staged && !(s.setOf n).pStaged && s.hasPassive

end Sys2Proof.Machine
end

