-- ==== Sys2Proof/Machine/Adapt.lean ====
section
/-! DEFINITION. Adaptive supply, frequency, temperature, placement, the spare cluster, and cluster faults (R42 to R44,
R435 to R454, R469, R475). -/

namespace Sys2Proof.Machine

def State.region (s : State) (d : Die) (r : Nat) : RegionSt := tabGet {} s.regions (2 * d.toNat + r)
def State.setRegion (s : State) (d : Die) (r : Nat) (x : RegionSt) : State :=
  { s with regions := tabSet {} s.regions (2 * d.toNat + r) x }

/-- The request code of 0.880 V (R452). -/
def vreqMax : Nat := 52

/-- A new voltage request, with AT_HI and AT_LO following it (R437, R452). -/
def State.setVreq (s : State) (d : Die) (r v : Nat) : State :=
  ((s.wr d (Reg.AVS_STAT_VREQ r) v).wr d (Reg.AVS_STAT_AT_HI r) (b2n (v = vreqMax))).wr d (Reg.AVS_STAT_AT_LO r)
    (b2n (v = 0))

/-- The die issues no more voltage requests for this rail (R44). -/
def State.avsLost (s : State) (d : Die) (r : Nat) : Bool := s.power.avsStopped.getLsbD (2 * d.toNat + r)

/-- A frequency step of one code starts (R439). -/
def State.startStep (s : State) (d : Die) (r code : Nat) : State :=
  s.setRegion d r { s.region d r with stepTo := some code, stepAt := s.tb.ticks }

/-- CPM_EMERGENCY (R436): a monitor reads S_CRIT taps or fewer. Once per update: the request rises by 20 mV, and for a
core or SRAM path the frequency steps down one code. A step up of the same tick does not take place (R451). -/
def execCpmEmergency (d : Die) (r : Region) (path : CpmPath) (s : State) : Result :=
  let i := r.toNat
  let x := s.region d i
  if x.emerged then .next s else
  let cur := s.rd d (Reg.AVS_FREQ_CUR i)
  let up : Bool := x.stepAt = s.tb.ticks && (match x.stepTo with | some c => decide (cur < c) | none => false)
  let s := s.setRegion d i { x with emerged := true, emergAt := some s.tb.ticks, stepTo := if up then none else x.stepTo }
  let s := if s.avsLost d i then s else s.setVreq d i (min vreqMax (s.rd d (Reg.AVS_STAT_VREQ i) + 4))
  let s := if path ≠ .cle ∧ 0 < cur then s.startStep d i (cur - 1) else s
  .next ((s.raise d (Reg.AVS_STAT_EMERG i)).post 250)

/-- The target code (R440). -/
def State.freqTarget (s : State) (d : Die) (r : Nat) : Nat :=
  min (min (min 8 (s.rd d (Reg.AVS_FREQ_REQ r))) (s.rd d (Reg.AVS_FREQ_FCAP r))) (s.rd d (Reg.AVS_FREQ_TCAP r))

/-- Δ of a step up from a code, in taps (R440). -/
def stepDelta (code : Nat) : Nat := [10, 9, 8, 7, 6, 6, 5, 5].getD code 0

/-- A region fault: flag, event 250, and a fault of the die (R437, R438). -/
def State.regionFault (s : State) (d : Die) (r : Nat) : State :=
  ((s.raise d (Reg.AVS_STAT_REGION_FAULT r)).post 250).dieFault d causeRegion

/-- The frequency steps down one code, which FCAP takes (R437, R438); code 0 is the lowest. -/
def State.capDown (s : State) (d : Die) (r : Nat) : State :=
  let c := s.rd d (Reg.AVS_FREQ_CUR r)
  let s := if c = 0 then s else s.startStep d r (c - 1)
  s.wr d (Reg.AVS_FREQ_FCAP r) (c - 1)

/-- FCAP takes the present code, FREQ_LIM sets and event 250 posts (R440). -/
def State.freqLimit (s : State) (d : Die) (r : Nat) : State :=
  ((s.wr d (Reg.AVS_FREQ_FCAP r) (s.rd d (Reg.AVS_FREQ_CUR r))).raise d (Reg.AVS_STAT_FREQ_LIM r)).post 250

/-- A step up is due and S_core forbids it, so that the region raises the voltage instead (R440). -/
def State.upBlocked (s : State) (d : Die) (r sCore : Nat) : Bool :=
  let cur := s.rd d (Reg.AVS_FREQ_CUR r)
  decide (cur < s.freqTarget d r) && decide (sCore < s.rd d (Reg.AVS_CFG_S_LO r) + stepDelta cur)

/-- The request of a region is acknowledged: no update changes an unacknowledged one (R437). -/
def State.acked (s : State) (d : Die) (r : Nat) : Bool := s.rd d (Reg.AVS_STAT_VACK r) = s.rd d (Reg.AVS_STAT_VREQ r)

/-- An update with the request at 0.880 V (R437): a shortfall in S_core takes one code, S_cle at S_CRIT is a region
fault; the flag says whether either came about. -/
def State.topUpdate (s : State) (d : Die) (r sCore sCle : Nat) : State × Bool :=
  let core := decide (sCore < s.rd d (Reg.AVS_CFG_S_LO r))
  let cle := decide (sCle ≤ s.rd d (Reg.AVS_CFG_S_CRIT r))
  let s := if core then ((s.capDown d r).raise d (Reg.AVS_STAT_FREQ_LIM r)).post 250 else s
  (if cle then s.regionFault d r else s, core || cle)

/-- The voltage part of an update (R437); the flag says whether it raised the request or stepped the frequency. A run of
16 updates that meets an unacknowledged request lowers it at the first update that finds it acknowledged. -/
def State.voltUpdate (s : State) (d : Die) (r sCore sCle : Nat) (stepDown : Bool) : State × Bool :=
  let smin := min sCore sCle
  let req := s.rd d (Reg.AVS_STAT_VREQ r)
  let n := (s.region d r).hiRun
  let run := fun (s : State) k => s.setRegion d r { s.region d r with hiRun := k }
  if smin < s.rd d (Reg.AVS_CFG_S_LO r) then
    if req < vreqMax then (if s.acked d r then run (s.setVreq d r (req + 1)) 0 else run s 0, true)
    else (run s 0).topUpdate d r sCore sCle
  else if s.rd d (Reg.AVS_CFG_S_HI r) < smin && !s.upBlocked d r sCore then
    if n + 1 < 16 then (run s (n + 1), false)
    else if stepDown then (run s 0, false)
    else if s.acked d r then (run (s.setVreq d r (req - 1)) 0, false)
    else (s, false)
  else (run s 0, false)

/-- The update of a region whose voltage requests have stopped (R438): a shortfall of Smin steps the frequency down, and 16
consecutive updates with S_core above S_HI raise FCAP, in this order. -/
def State.lostUpdate (s : State) (d : Die) (r sCore sCle : Nat) : State × Bool :=
  let smin := min sCore sCle
  let x := s.region d r
  let n := if s.rd d (Reg.AVS_CFG_S_HI r) < sCore then x.hiRun + 1 else 0
  let s := s.setRegion d r { x with hiRun := if n < 16 then n else 0 }
  let low := decide (smin < s.rd d (Reg.AVS_CFG_S_LO r))
  let fault : Bool := low && s.rd d (Reg.AVS_FREQ_CUR r) = 0 && decide (smin < s.rd d (Reg.AVS_CFG_S_CRIT r))
  let s := if low then s.capDown d r else s
  let s := if n < 16 then s else s.wr d (Reg.AVS_FREQ_FCAP r) (min 8 (s.rd d (Reg.AVS_FREQ_FCAP r) + 1))
  (if fault then s.regionFault d r else s, low)

/-- The frequency part of an update (R440); a step up waits while another step runs, and gives way to an emergency
of its tick (R451). -/
def State.freqUpdate (s : State) (d : Die) (r sCore : Nat) : State :=
  let cur := s.rd d (Reg.AVS_FREQ_CUR r)
  let tgt := s.freqTarget d r
  if tgt < cur then s.startStep d r (cur - 1)
  else if cur < tgt then
    if !s.upBlocked d r sCore then (if (s.region d r).stepTo.isNone && (s.region d r).emergAt ≠ some s.tb.ticks then
        s.startStep d r (cur + 1) else s)
    else if s.avsLost d r then s
    else if s.rd d (Reg.AVS_STAT_VREQ r) < vreqMax then
      (if s.acked d r then s.setVreq d r (s.rd d (Reg.AVS_STAT_VREQ r) + 1) else s)
    else s.freqLimit d r
  else s

/-- AVS_UPDATE (R437, R438, R440, R451): the voltage first, then the frequency; a raise or a step of the voltage part
leaves the frequency to the next update. FCAP rises while the request stands at 0.860 V or less. -/
def execAvsUpdate (d : Die) (r : Region) (sCore sCle : BitVec 7) (s : State) : Result :=
  let i := r.toNat
  let s := s.setRegion d i { s.region d i with emerged := false }
  let s := s.wr d (Reg.AVS_STAT_S_MIN i) (min sCore.toNat sCle.toNat)
  let down := decide (s.freqTarget d i < s.rd d (Reg.AVS_FREQ_CUR i))
  let p := if s.avsLost d i then s.lostUpdate d i sCore.toNat sCle.toNat
    else s.voltUpdate d i sCore.toNat sCle.toNat down
  let s := if p.2 && !(down && (p.1.region d i).stepTo.isNone) then p.1 else p.1.freqUpdate d i sCore.toNat
  .next (if !s.avsLost d i && s.rd d (Reg.AVS_STAT_VREQ i) ≤ 48 then
    s.wr d (Reg.AVS_FREQ_FCAP i) (min 8 (s.rd d (Reg.AVS_FREQ_FCAP i) + 1)) else s)

/-- FREQ_STEP_DONE (R439): the step of one code has completed; the cycles of the region's clock so far are noted. -/
def execFreqStepDone (d : Die) (r : Region) (s : State) : Result :=
  match (s.region d r.toNat).stepTo with
  | none => .next s
  | some c => .next ((s.wr d (Reg.AVS_FREQ_CUR r.toNat) c).setRegion d r.toNat
      { s.region d r.toNat with stepTo := none, cyc := s.clockMilli d r.toNat, cycAt := s.tb.ticks })

/-- The answer to a transaction of a regional rail (R44): the third in a row that fails stops the requests of the rail, sets
AVS_LOST and posts event 250. The count is of the rail's own transactions (log entry 169). -/
def State.avsAnswer (s : State) (d : Die) (r : Nat) (a : AvsAnswer) : State :=
  let key := 2 * d.toNat + r
  let n := if a = .ok then 0 else tabGet 0 s.power.avsFail key + 1
  let s := { s with power := { s.power with avsFail := tabSet 0 s.power.avsFail key n } }
  if n < 3 then s
  else ({ s with power := { s.power with avsStopped := setBit s.power.avsStopped key true } }.raise d
    (Reg.AVS_STAT_AVS_LOST r)).post 250

/-- AVS_VOLTAGE_WRITE (R43, R44): the die issues the request, 0.620 V + 5 mV × VREQ, unless it has stopped under R44. A write
that fails leaves no request for the status to acknowledge. -/
def execAvsVoltageWrite (d : Die) (r : Region) (a : AvsAnswer) (s : State) : Result :=
  let i := r.toNat
  let v := s.rd d (Reg.AVS_STAT_VREQ i)
  if s.avsLost d i then .next s
  else
    let s := if a = .ok then s.setRegion d i { s.region d i with issued := some v } else s
    .next ((s.send (.avsVoltage d r (620 + 5 * v))).avsAnswer d i a)

/-- AVS_STATUS_READ (R43, R44): an answer acknowledges the request that the last Voltage write issued. -/
def execAvsStatusRead (d : Die) (r : Region) (a : AvsAnswer) (s : State) : Result :=
  let i := r.toNat
  if s.avsLost d i then .next s
  else
    let s := if a = .ok then s.wr d (Reg.AVS_STAT_VACK i) ((s.region d i).issued.getD (s.rd d (Reg.AVS_STAT_VACK i))) else s
    .next (s.avsAnswer d i a)

/-- REGION_RAIL_CROSSING (R42): a die fault with cause RAIL. -/
def execRegionRailCrossing (d : Die) (_r : Region) (s : State) : Result := .next (s.dieFault d causeRail)

/-- REGION_PLL_UNLOCK (R72): a die fault with cause PLL. -/
def execRegionPllUnlock (d : Die) (_r : Region) (s : State) : Result := .next (s.dieFault d causePll)

/-! ## Temperature (R442, R443) -/

/-- The larger of a region's two sensors, in 1/256 °C. -/
def State.regionTemp (s : State) (d : Die) (r : Nat) : Int :=
  max (s.rdInt d (Reg.THM_TEMP_T (2 * r))) (s.rdInt d (Reg.THM_TEMP_T (2 * r + 1)))

/-- A row of R443 comes into force with its cap: event 251 posts when it was not in force (0 none, 1 WARN, 2 HOT). -/
def State.heatRow (s : State) (d : Die) (r row cap : Nat) : State :=
  let x := s.region d r
  let s := (s.wr d (Reg.AVS_FREQ_TCAP r) cap).setRegion d r { x with heat := row, coolSince := none }
  if x.heat = row then s else s.post 251

/-- The thermal cap at a conversion (R443). -/
def State.thermalCap (s : State) (d : Die) (r : Nat) : State :=
  let t := s.regionTemp d r
  let x := s.region d r
  let hot := if r = 0 then Reg.THM_STAT_HOT_A else Reg.THM_STAT_HOT_B
  let warn := if r = 0 then Reg.THM_STAT_WARN_A else Reg.THM_STAT_WARN_B
  if (256 * s.rd d Reg.THM_CFG_T_HOT : Nat) ≤ t then (s.raise d hot).heatRow d r 2 0
  else if (256 * s.rd d Reg.THM_CFG_T_WARN : Nat) ≤ t then (s.raise d warn).heatRow d r 1 (s.rd d Reg.THM_CFG_FCAP_WARN)
  else if t < (256 * s.rd d Reg.THM_CFG_T_WARN : Nat) - (1280 : Int) ∧ x.heat ≠ 0 then
    s.setRegion d r { x with coolSince := some (x.coolSince.getD s.tb.ticks) }
  else s.setRegion d r { x with coolSince := none }

/-- SENSOR_CONVERSION (R442, R443). -/
def execSensorConversion (sensor : Sensor) (t : BitVec 16) (s : State) : Result :=
  match sensor with
  | .die d i => .next ((s.wr d (Reg.THM_TEMP_T i) t.toNat).thermalCap d (i / 2))
  | .iod i =>
    .next (s.setIo (if i = 0 then Reg.IOD_TEMP_LO_T0 else if i = 1 then Reg.IOD_TEMP_LO_T1
      else if i = 2 then Reg.IOD_TEMP_HI_T2 else Reg.IOD_TEMP_HI_T3) t.toNat)

/-- THERMAL_CAP_LIFT (R443): the region has stayed 5 K below T_WARN for 10 ms. -/
def execThermalCapLift (d : Die) (r : Region) (s : State) : Result :=
  .next (if (s.region d r.toNat).coolSince.isSome then s.heatRow d r.toNat 0 8 else s)

/-! ## Placement (R444 to R447) -/

/-- An entry of the placement table (R444). -/
structure PlaceEntry where
  evt : Nat
  home : Nat
  used : Bool
  movable : Bool
  bulk : Bool
  desc : List Nat
  cost : Nat
  shed : Nat

/-- The bytes of entry `i` in a region A SRAM image read byte by byte. -/
def placeEntry (bs : List Byte) : PlaceEntry :=
  let fl := field bs 3 1
  { evt := field bs 0 2, home := field bs 2 1, used := bitOf fl 0, movable := bitOf fl 1, bulk := bitOf fl 2
    desc := [field bs 4 1, field bs 5 1, field bs 6 1, field bs 7 1], cost := field bs 8 4, shed := field bs 12 1 }

/-- First byte of the placement table (R444). -/
def placeBase : Nat := 0x200F4000

def State.place (s : State) (d : Die) (i : Nat) : PlaceEntry := placeEntry (s.ramBytes d.toNat (placeBase + 16 * i) 16)

/-- The cluster an entry is placed on now, none when it is shed. -/
def State.placedOn (s : State) (d : Die) (i : Nat) : Option Nat :=
  match tabGet 0 s.placed (128 * d.toNat + i) with
  | 0 => some (s.place d i).home
  | n + 1 => if n = 4 then none else some n

/-- The used entries placed on a cluster. -/
def State.entriesOn (s : State) (d : Die) (c : Nat) : List Nat :=
  (List.range 128).filter (fun i => (s.place d i).used && s.placedOn d i == some c)

/-- MHz of the core clock that serves logical cluster `c` (R439, R445). -/
def State.clusterMHz (s : State) (d : Die) (c : Nat) : Nat :=
  800 + 50 * s.rd d (Reg.AVS_FREQ_CUR (s.rd d Reg.PL_MAP_PHYS / 4 ^ c % 4 / 2))

/-- Whether a total COST fits a cluster's budget (R445), compared without rounding. -/
def State.costFits (s : State) (d : Die) (c cost : Nat) : Bool :=
  cost * 1000 * 100 ≤ 6 * s.io Reg.TB_PERIOD_CP * s.rd d Reg.PL_CFG_BUDGET * s.clusterMHz d c

/-- COST of the entries placed on a cluster. -/
def State.costOn (s : State) (d : Die) (c : Nat) : Nat := (s.entriesOn d c).foldl (fun m i => m + (s.place d i).cost) 0

/-- The spare cluster (R122). -/
def State.spare (s : State) (d : Die) : Nat := s.rd d Reg.CORE_CLUSTER_CFG_SPARE

/-- The load clusters of a die: all but the spare, and not one declared faulty with no substitute. -/
def State.loadClusters (s : State) (d : Die) : List Nat :=
  (List.range 4).filter (fun c => c ≠ s.spare d && !((s.adaptOf d).lostClusters.getLsbD c))

/-- A move (R447): the bulk bit of the new descriptor, the event route, then the placement map. -/
def State.moveEntry (s : State) (d : Die) (i c : Nat) : State :=
  let e := s.place d i
  let dsc := e.desc.getD c 0xFF
  let w := Reg.GND_BULK_DESC_BULK c (dsc / 32)
  let s := s.wr d w (withBit (s.rd d w) (dsc % 32) e.bulk)
  let s := if e.evt < 256 then (s.wr d (Reg.EVC_ROUTE_CLUSTER e.evt) c).wr d (Reg.EVC_ROUTE_DESC e.evt) dsc else s
  { s with placed := tabSet 0 s.placed (128 * d.toNat + i) (c + 1)
           movedAt := tabSet 0 s.movedAt (128 * d.toNat + i) (s.tb.ticks + 1) }

/-- The temperature of the physical cluster that holds a logical one. -/
def State.clusterTemp (s : State) (d : Die) (c : Nat) : Int :=
  s.rdInt d (Reg.THM_TEMP_T (s.rd d Reg.PL_MAP_PHYS / 4 ^ c % 4))

/-- The extreme of a list under a strict preference, the first among equals. -/
def firstBest {α : Type} (before : α → α → Bool) : List α → Option α
  | [] => none
  | x :: xs =>
    match firstBest before xs with
    | none => some x
    | some y => if before y x then some y else some x

/-- PLACEMENT_EVAL (R446, R447, R451). -/
def execPlacementEval (d : Die) (s : State) : Result :=
  if !s.bit d Reg.PL_CFG_EN || (s.adaptOf d).subst.isSome then .next s else
  let cs := s.loadClusters d
  match firstBest (fun a b => s.clusterTemp d b < s.clusterTemp d a) cs,
        firstBest (fun a b => s.clusterTemp d a < s.clusterTemp d b) cs with
  | some h, some c =>
    if (256 * s.rd d Reg.PL_CFG_DT : Nat) < s.clusterTemp d h - s.clusterTemp d c then
      let ok := (s.entriesOn d h).filter (fun i =>
        let e := s.place d i
        let m := tabGet 0 s.movedAt (128 * d.toNat + i)
        e.movable && e.desc.getD c 0xFF ≠ 0xFF && s.costFits d c (s.costOn d c + e.cost)
          && (m = 0 || m - 1 + s.rd d Reg.PL_CFG_DWELL * 500000000 ≤ s.tb.ticks))
      match firstBest (fun a b => (s.place d b).cost < (s.place d a).cost) ok with
      | some i => .next (s.moveEntry d i c)
      | none => .next s
    else .next s
  | _, _ => .next s

/-! ## The spare cluster and cluster faults (R448, R449, R469, R475) -/

/-- Field of RED_GRADE that shows a die's spares (R482). -/
def sparesField (d : Die) : Field := match d with | .d0 => Reg.RED_GRADE_SPARES0 | .d1 => Reg.RED_GRADE_SPARES1

/-- A spare is used: bit 0 cluster, 1 bank A, 2 bank B; logged with the unit's ID, which later boots read, and graded
(R473, R474). `item` is the replaced cluster, or region and bank. -/
def State.useSpare (s : State) (d : Die) (b item : Nat) : State :=
  let f := sparesField d
  let s := s.setIo f (withBit (s.io f) b true)
  let s := s.logEvent recSpare d.toNat (if b = 0 then 0x10 else 0x11) item (s.uid % 2 ^ 32)
  if !s.inService d then s
  else if s.io f = 7 then s.raiseGrade 2 causeSparesSpent else s.raiseGrade 1 causeSpareUsed

/-- SPARE_SELF_TEST (R448): a spare that fails is consumed without use. -/
def execSpareSelfTest (d : Die) (pass : Bool) (s : State) : Result :=
  .next (if pass || s.bit d Reg.PL_MAP_SPARE_USED then s else (s.raise d Reg.PL_MAP_SPARE_USED).post 252)

/-- HELD locks of a core become BROKEN (R145). -/
def State.setLock (s : State) (d : Die) (l : Nat) (x : LockSt) : State :=
  let hf := Reg.LOCK_HELD_MAP (l / 32)
  let bf := Reg.LOCK_BROKEN_MAP (l / 32)
  let s := { s with locks := tabSet .free s.locks (64 * d.toNat + l) x }
  (s.wr d hf (withBit (s.rd d hf) (l % 32) (match x with | .held _ => true | _ => false))).wr d bf
    (withBit (s.rd d bf) (l % 32) (x = .broken))

def State.lock (s : State) (d : Die) (l : Nat) : LockSt := tabGet .free s.locks (64 * d.toNat + l)

/-- The locks a core holds become BROKEN. -/
def State.breakLocks (s : State) (d : Die) (c : Nat) : State :=
  (List.range 64).foldl (fun s l => if s.lock d l = .held c then s.setLock d l .broken else s) s

/-- The request held for die `d` lifts once neither a substitution nor a move of a CLE program is under way there (R469,
R475). -/
def State.liftRequest (s : State) (d : Die) : State :=
  if (s.adaptOf d).subst.isSome || (s.adaptOf d).moveCle.isSome then s else s.holdRequest false

/-- CAUSE of a core reset by cluster or die fault handling (R147). -/
def causeReset : Nat := 0x13

/-- A core held in reset by fault handling: its locks broken, and its record written with cause 0x13; mepc and mtval have
no stated value there, and are free (R145, R147, log entry 37). -/
def State.holdCore (s : State) (d : Die) (core : Nat) : State :=
  let x := s.core d core
  let s := (s.wr d (Reg.CORE_FAULT_REC0_CAUSE core) causeReset).wr d (Reg.CORE_FAULT_REC3_TASK core) x.task
  let s := (s.wr d (Reg.CORE_FAULT_REC1_EPC core) (Config.free s.freeCtr)).wr d (Reg.CORE_FAULT_REC2_TVAL core)
    (Config.free (s.freeCtr + 1))
  (((s.draw 2).breakLocks d core).dropStores d core).setCore d core { s.freshCore d core with mode := .halted }

/-- A table in which the keys from `lo` on, `len` of them, hold what those from `src` on hold in another. -/
def takeRange {α : Type} (lo len src : Nat) (t u : Tab α) : Tab α :=
  t.filter (fun p => p.1 < lo)
    ++ (u.filter (fun p => src ≤ p.1 && p.1 < src + len)).map (fun p => (lo + (p.1 - src), p.2))
    ++ t.filter (fun p => lo + len ≤ p.1)

/-- Memory of cluster `c`: its SRAM and its CLE's program and state memory, as address and size (R121, R123). -/
def clusterMem (c : Nat) : List (Nat × Nat) := [(0x10000000 + 0x40000 * c, 0x40000), (0x30000000 + 0x10000 * c, 0x10000)]

/-- Register words of CLE `c`: the engine's and its loops'. -/
def cleWords (c : Nat) : List (Nat × Nat) := [(0x50009000 + 0x100 * c, 0x100), (0x5000A000 + 0x800 * c, 0x800)]

/-- Register words of cluster `c`: its Bobbin's, its cores' fault records, its bulk descriptors', its CLE's. -/
def clusterWords (c : Nat) : List (Nat × Nat) :=
  [(0x50004000 + 0x200 * c, 0x200), (0x50002000 + 0x100 * c, 0x100), (0x50006000 + 0x30 * c, 0x30),
    (0x50008010 + 0x10 * c, 0x10)] ++ cleWords c

/-- Memory and register ranges of a die taken over from another state, range by range: `to` from `src`. -/
def State.takeRanges (s x : State) (d : Die) (mem regs : List ((Nat × Nat) × Nat)) : State :=
  let key := fun a => (d.toNat * 2 ^ 32 + a) * 32
  let s := mem.foldl (fun s r => { s with
    ram := takeRange (ramKey d.toNat r.1.1) r.1.2 (ramKey d.toNat r.2) s.ram x.ram }) s
  regs.foldl (fun s r => { s with
    regs := takeRange (key r.1.1) (32 * r.1.2) (key r.2) s.regs x.regs
    shadow := takeRange (key r.1.1) (32 * r.1.2) (key r.2) s.shadow x.shadow }) s

/-- Ranges of one number with the starts of the same ranges of another. -/
def pairRanges (f : Nat → List (Nat × Nat)) (c c' : Nat) : List ((Nat × Nat) × Nat) :=
  (f c').zip ((f c).map (·.1))

/-- From the remap on, every address and register index of cluster `c` refers to the spare (R449), the
records of its cores too (log entry 42). -/
def State.remapCluster (s : State) (d : Die) (c : Nat) : State :=
  let t := s.takeRanges s d (pairRanges clusterMem (s.spare d) c) (pairRanges clusterWords (s.spare d) c)
  { t with cles := tabSet {} t.cles (4 * d.toNat + c) {} }

/-- Substitution starts (R449): the cores of `c` held in reset, its CLE stopped, its routes paused, the entries of its
lists lost, its locks broken, and the spare, which has had no faults, in its place. -/
def State.substitute (s : State) (d : Die) (c : Nat) : State :=
  let b := s.bob d c
  let s := s.setBob d c { ready := [], delay := [], held := b.held.filter (fun h => match h with | .event _ _ => true | _ => false) }
  let s := (List.range 3).foldl (fun s i => s.holdCore d (3 * c + i)) s
  let s : State := { s with faultTicks := tabSet [] (tabSet [] s.faultTicks (8 * d.toNat + 2 * c) []) (8 * d.toNat + 2 * c + 1) [] }
  let s := if s.rd d (Reg.CLE_STAT_STATE c) = 0 then s else s.dropOut d c
  let s := (s.remapCluster d c).wr d (Reg.CLE_STAT_STATE c) 0
  let p := s.rd d Reg.PL_MAP_PHYS
  let clk := s.gndClock d
  let s := s.wr d Reg.PL_MAP_PHYS (p - p / 4 ^ c % 4 * 4 ^ c + s.spare d * 4 ^ c)
  let s := (clusterTargets c).foldl (fun s t => s.gndRebase d t (clk t)) s
  let s := (s.wr d Reg.PL_MAP_SPARE_USED 1).wr d Reg.PL_MAP_SUBST 1
  let s := s.setAdapt d { s.adaptOf d with subst := some c, substReady := false, replaced := some c }
  (s.post 252).useSpare d 0 c

/-- A load CLE that runs no program (R475). -/
def State.idleCle (s : State) (d : Die) (lostC : Nat) : Option Nat :=
  (s.loadClusters d).find? (fun c => c ≠ lostC && !s.bit d (Reg.CLE_CFG_EN c))

/-- An entry above SHED_CLASS is shed: its route disabled and the map marked (R475). -/
def State.shedEntry (s : State) (d : Die) (i : Nat) : State :=
  let e := s.place d i
  let s := if e.evt < 256 then s.wr d (Reg.EVC_ROUTE_EN e.evt) 0 else s
  ({ s with placed := tabSet 0 s.placed (128 * d.toNat + i) 5 }).logEvent recShed d.toNat 0 i 0

/-- One unshed entry of the lost cluster placed on a remaining cluster that it fits, the first in number; none where no
cluster takes it (R475). -/
def State.refit (s : State) (d : Die) (i : Nat) : Option State :=
  let e := s.place d i
  ((s.loadClusters d).find? (fun c => e.desc.getD c 0xFF ≠ 0xFF && s.costFits d c (s.costOn d c + e.cost))).map
    (s.moveEntry d i)

/-- A cluster lost with no substitute: its cores held, its CLE stopped, its lists lost; the events it held are posted
again once their routes have moved (R475, log entry 43). -/
def State.dropCluster (s : State) (d : Die) (c : Nat) : State × List Nat :=
  let evs := (s.bob d c).held.filterMap (fun h => match h with | .event e _ => some e | _ => none)
  let s := (List.range 3).foldl (fun s i => s.holdCore d (3 * c + i)) (s.setBob d c {})
  ({ s.wr d (Reg.CLE_STAT_STATE c) 2 with
     latched := s.latched.filter (fun l => !evs.contains (l % 256) || l / 256 ≠ d.toNat) }, evs)

/-- Every used entry above SHED_CLASS is shed (R475). -/
def State.shedAll (s : State) (d : Die) : State :=
  (List.range 128).foldl (fun s i =>
    if (s.place d i).used && s.io Reg.RED_CFG_SHED_CLASS < (s.place d i).shed then s.shedEntry d i else s) s

/-- The entries of a lost cluster placed on the others; none where one fits nowhere (R475). -/
def State.refitAll (s : State) (d : Die) (c : Nat) : Option State :=
  (s.entriesOn d c).foldl (fun (o : Option State) i => o.bind (fun s => s.refit d i)) (some s)

/-- The work of a lost cluster finds a place on the others, a load CLE with no program among them where its CLE runs one (R475). -/
def State.placeFits (s : State) (d : Die) (c : Nat) : Bool :=
  let a := s.adaptOf d
  let s := s.setAdapt d { a with lostClusters := setBit a.lostClusters c true }
  ((s.shedAll d).refitAll d c).isSome && (!s.bit d (Reg.CLE_CFG_EN c) || (s.idleCle d c).isSome)

/-- What stands as a declaration of cluster `c` of the worker begins a takeover (R481). -/
def State.declaration (s : State) (d : Die) (c : Nat) : Declared :=
  ⟨c, s.placeFits d c, s.red.logq, s.rd d.other Reg.LOG_LOST_COUNT, s.rd d.other Reg.LOG_STAT_SAT, s.red.newFrom,
    s.io (Reg.RED_DIE_FAULT d.toNat), s.io (Reg.RED_DIE_CAUSE d.toNat)⟩

/-- Placement of a lost cluster's work (R475): G3 where all of it finds a place, else G4 with cause FIT. The request is
held until the moved CLE program has been re-applied, or lifts at once where the lost CLE ran none. -/
def State.placeLost (s : State) (d : Die) (c : Nat) : State :=
  let a := s.adaptOf d
  let fits := s.placeFits d c
  let s := (s.setAdapt d { a with lostClusters := setBit a.lostClusters c true }).holdRequest true
  let runs := s.bit d (Reg.CLE_CFG_EN c)
  let s := if fits then s.raiseGrade 3 causeClusterLost else s.raiseGrade 4 causeFit
  let p := s.dropCluster d c
  let s := p.1.shedAll d
  match s.refitAll d c with
  | none => s
  | some s =>
    let s := p.2.foldl (fun s e => s.postEventDie d e) s
    if !runs then s.liftRequest d
    else
      match s.idleCle d c with
      | some c' => s.setAdapt d { s.adaptOf d with moveCle := some (c, c') }
      | none => s

/-- The placement that waits for the boundary (R475, R481). -/
def State.placeNow (s : State) (d : Die) : State :=
  match s.red.placeDue with
  | some (w, c) =>
    if w ≠ d then s
    else
      let s : State := { s with red := { s.red with placeDue := none } }
      if s.isWorker d then s.placeLost d c else s
  | none => s

/-- A cluster is declared faulty (R128, R147, R246): takeover, substitution, placement, or a die fault (R469). A fault of
the unused spare consumes it (R448). -/
def State.declareCluster (s : State) (d : Die) (c : Nat) : State :=
  let unused := !s.bit d Reg.PL_MAP_SPARE_USED && (s.adaptOf d).subst.isNone
  if c = s.spare d then
    if unused then (s.raise d Reg.PL_MAP_SPARE_USED).post 252 else s
  else if (s.adaptOf d).lostClusters.getLsbD c then s
  else if !s.isWorker d then
    if unused then s.substitute d c else s.dieFault d causeCluster
  else if s.dieState d.other = 1 ∧ (s.adaptOf d.other).lostClusters = 0 ∧ (s.adaptOf d.other).subst.isNone then
    if unused then
      let x := (s.substitute d c).declaration d c
      let s := (s.substitute d c).startTakeover d
      { s with red := { s.red with takeoverSync := true, declared := some x } }
    else
      let x := s.declaration d c
      let s := s.dieFault d causeCluster
      { s with red := { s.red with declared := some x } }
  else if unused then (s.holdRequest true).substitute d c
  else s.placeLost d c

end Sys2Proof.Machine
end

