-- ==== Sys2Proof/Machine/CleCode.lean ====
section
/-! DEFINITION. CLE instructions: format, legality, the cost model of a run, and the checks of a program that need no
state (R213, R225 to R230). -/

namespace Sys2Proof.Machine

/-- The operations of R226. -/
inductive CleOp where
  | nop | clr | ldi | mac | add | addi | sti | pre | wb | fbk | mov | get | put | out | stop
deriving DecidableEq, Repr

/-- OP of an operation. -/
def CleOp.code : CleOp → Nat
  | .nop => 0x00 | .clr => 0x01 | .ldi => 0x02 | .mac => 0x03 | .add => 0x04 | .addi => 0x05 | .sti => 0x06
  | .pre => 0x07 | .wb => 0x08 | .fbk => 0x09 | .mov => 0x0A | .get => 0x0B | .put => 0x0C | .out => 0x0D
  | .stop => 0x3F

/-- The operation of an OP value; every other value is illegal (R226). -/
def CleOp.ofCode (n : Nat) : Option CleOp :=
  if n = 0x00 then some .nop else if n = 0x01 then some .clr else if n = 0x02 then some .ldi
  else if n = 0x03 then some .mac else if n = 0x04 then some .add else if n = 0x05 then some .addi
  else if n = 0x06 then some .sti else if n = 0x07 then some .pre else if n = 0x08 then some .wb
  else if n = 0x09 then some .fbk else if n = 0x0A then some .mov else if n = 0x0B then some .get
  else if n = 0x0C then some .put else if n = 0x0D then some .out else if n = 0x3F then some .stop else none

/-- A CLE instruction's fields (R225), the reserved ones apart. -/
structure CleInstr where
  op : CleOp
  cond : Nat
  cloop : Nat
  lane : Nat
  rnd : Nat
  a : Nat
  b : Nat
  n : Nat
  loop : Nat
  lp : Bool
deriving DecidableEq, Repr

/-- A field of an instruction word: `w` bits from bit `lo`. -/
def bitsAt (x lo w : Nat) : Nat := x / 2 ^ lo % 2 ^ w

/-- The instruction a 64-bit word holds; none where its OP is illegal or its reserved field is not 0. -/
def cleDecode (x : Nat) : Option CleInstr :=
  if bitsAt x 0 4 ≠ 0 then none
  else (CleOp.ofCode (bitsAt x 58 6)).map (fun op =>
    { op := op, cond := bitsAt x 55 3, cloop := bitsAt x 50 5, lane := bitsAt x 47 3, rnd := bitsAt x 45 2
      a := bitsAt x 32 13, b := bitsAt x 19 13, n := bitsAt x 10 9, loop := bitsAt x 5 5, lp := bitOf x 4 })

/-- The word of an instruction (R225). -/
def cleEncode (i : CleInstr) : Nat :=
  i.op.code * 2 ^ 58 + i.cond * 2 ^ 55 + i.cloop * 2 ^ 50 + i.lane * 2 ^ 47 + i.rnd * 2 ^ 45 + i.a * 2 ^ 32
    + i.b * 2 ^ 19 + i.n * 2 ^ 10 + i.loop * 2 ^ 5 + b2n i.lp * 2 ^ 4

/-- Every field fits its bits. -/
def CleInstr.fits (i : CleInstr) : Bool :=
  i.cond < 8 && i.cloop < 32 && i.lane < 8 && i.rnd < 4 && i.a < 8192 && i.b < 8192 && i.n < 512 && i.loop < 32

/-- The operations whose N counts. -/
def CleOp.usesN : CleOp → Bool
  | .mac | .add | .mov | .get | .put | .out => true
  | _ => false

/-- The operations on a lane. -/
def CleOp.onLane : CleOp → Bool
  | .clr | .ldi | .mac | .add | .addi | .sti | .pre | .wb => true
  | _ => false

/-- State words an instruction reads, as first word and count; `fbk` gives the words a loop's feedback is taken from, `out` the OUT
word of a loop, which a WB with LP = 1 reads as out_prev (R236). -/
def CleInstr.reads (fbk : Nat → List (Nat × Nat)) (out : Nat → Nat) (i : CleInstr) : List (Nat × Nat) :=
  match i.op with
  | .mac => [(i.a, i.n), (i.b, i.n)]
  | .add | .out => [(i.a, i.n)]
  | .ldi | .addi => [(i.a, 3)]
  | .sti => [(i.a, 6)]
  | .pre => [(i.a + 3, 3), (i.b, 1)]
  | .fbk => fbk i.loop
  | .mov => [(i.a, i.n)]
  | .get => [(i.b, 1)]
  | .put => [(i.a, i.n), (i.b, 1)]
  | .wb => if i.lp then [(out i.loop, 1)] else []
  | .nop | .clr | .stop => []

/-- State words an instruction writes; `out` gives the OUT word of a loop, which a WB with LP = 1 writes (R236). -/
def CleInstr.writes (out : Nat → Nat) (i : CleInstr) : List (Nat × Nat) :=
  match i.op with
  | .sti | .pre => [(i.a, 3), (i.a + 5, 1)]
  | .wb => [(if i.lp then out i.loop else i.a, 1)]
  | .fbk => [(i.a, 1)]
  | .mov => [(i.b, i.n)]
  | .get => [(i.a, i.n)]
  | .nop | .clr | .ldi | .mac | .add | .addi | .put | .out | .stop => []

/-- The instruction is legal: COND, RND, N, and every word range in state memory and in the output block (R213, R226,
R227, R230). -/
def CleInstr.legal (i : CleInstr) : Bool :=
  i.cond < 7 && !(i.op = .wb && i.rnd = 3) && (!i.op.usesN || (1 ≤ i.n && i.n ≤ 256))
    && (i.reads (fun _ => []) (fun _ => i.a) ++ i.writes (fun _ => i.a)).all (fun r => r.1 + r.2 ≤ 8192)
    && !(i.op = .out && 256 < i.b + i.n)

/-! ## Cost of a run (R229) -/

/-- Cycles that a lane operation keeps its lane, and the cycles until its result may be used. -/
def laneCost (i : CleInstr) : Nat × Nat :=
  match i.op with
  | .clr => (1, 1)
  | .ldi | .addi | .wb => (3, 1)
  | .mac | .add => (i.n, 4)
  | .sti => (5, 1)
  | .pre => (6, 1)
  | _ => (0, 0)

/-- The operations that read their lane's accumulator. -/
def CleOp.readsAcc : CleOp → Bool
  | .mac | .add | .addi | .sti | .pre | .wb => true
  | _ => false

/-- The operations that write their lane's accumulator; STI and WB give state words only (R229). -/
def CleOp.writesAcc : CleOp → Bool
  | .clr | .ldi | .mac | .add | .addi | .pre => true
  | _ => false

/-- First cycle from `c` on in which every word of the ranges may be read. -/
def Sched.wordsReady (x : Sched) (rs : List (Nat × Nat)) (c : Nat) : Nat :=
  x.words.foldl (fun m w => if rs.any (fun r => r.1 < w.1 + w.2.1 && w.1 < r.1 + r.2) then max m w.2.2 else m) c

/-- Cycle in which END finds every unit free. -/
def Sched.finish (x : Sched) : Nat :=
  x.lane.foldl (fun m p => max m p.2) (max x.issue (max x.move x.transfer))

/-- One instruction issues (R229); an END that its COND skips waits as long as one that ends the run (R227). -/
def Sched.issueInstr (x : Sched) (fbk : Nat → List (Nat × Nat)) (out : Nat → Nat) (i : CleInstr) : Sched :=
  let c := x.wordsReady (i.reads fbk out) x.issue
  let done := fun f => (i.writes out).map (fun r => (r.1, r.2, f + 1)) ++ x.words
  if i.op.onLane then
    let c := max c (tabGet 0 x.lane i.lane)
    let c := if i.op.readsAcc then max c (tabGet 0 x.acc i.lane) else c
    let f := c + (laneCost i).1
    { x with issue := c + 1, lane := tabSet 0 x.lane i.lane f, words := done f
             acc := if i.op.writesAcc then tabSet 0 x.acc i.lane (f + (laneCost i).2) else x.acc }
  else match i.op with
    | .fbk | .mov =>
      let c := max c x.move
      let f := c + (if i.op = .fbk then 2 else i.n + 1)
      { x with issue := c + 1, move := f, words := done f }
    | .get | .put | .out =>
      let c := max c x.transfer
      let f := c + 60 * ceilDiv i.n 16 + i.n
      { x with issue := c + 1, transfer := f, words := done f }
    | .stop => { x with issue := max (c + 1) x.finish }
    | _ => { x with issue := c + 1 }

/-! ## Checks of a program (R230) -/

/-- Run time in ns: 17 ns plus the cycles (R230). -/
def cleRunTime (fbk : Nat → List (Nat × Nat)) (out : Nat → Nat) (p : List (Nat × CleInstr)) : Nat :=
  17 + (p.foldl (fun x i => x.issueInstr fbk out i.2) ({} : Sched)).finish

/-- Whether COND lets an instruction execute in a situation of its loop: mode and FIRST (R227). -/
def condHolds (cond mode : Nat) (first : Bool) : Bool :=
  if cond = 0 then true
  else if cond = 1 then mode = 0
  else if cond = 2 then mode = 1
  else if cond = 3 then mode = 0 && !first
  else if cond = 4 then mode = 1 && !first
  else if cond = 5 then mode = 0 && first
  else cond = 6 && mode = 1 && first

/-- What a lane's accumulator holds so far. -/
structure LaneCheck where
  /-- Descriptor of the LDI that opened its accumulation. -/
  opened : Option Nat := none
  /-- The accumulation began with an LDI, a state standing first in it. -/
  first : Bool := false
  /-- Terms have been added since its CLR or LDI. -/
  terms : Bool := false
  /-- An integrator state stands last in the accumulator, which no term may follow until a CLR or LDI. -/
  closedBy : Bool := false
  /-- The run has ended. -/
  ended : Bool := false
  ok : Bool := true

/-- One instruction in the order check of a lane: an accumulation that an LDI opened is an integrator's, which only an STI of its
descriptor closes, since a state enters an output accumulation last; WB and STI leave what the accumulator holds (R217, R230). -/
def laneCheck (x : LaneCheck) (i : CleInstr) : LaneCheck :=
  if x.ended then x else
  match i.op with
  | .clr => { x with opened := none, first := false, terms := false, closedBy := false }
  | .ldi => { x with opened := some i.a, first := true, terms := false, closedBy := false }
  | .mac | .add => { x with ok := x.ok && !x.closedBy, terms := true }
  | .addi => { x with ok := x.ok && !x.closedBy, terms := true, closedBy := true }
  | .pre => { x with ok := x.ok && !x.closedBy && x.opened.isNone, closedBy := true }
  | .sti => { x with opened := none, closedBy := true, ok := x.ok && x.opened = some i.a }
  | .wb => { x with opened := none, closedBy := x.closedBy || x.opened.isSome, ok := x.ok && !(x.first && x.terms) }
  | .stop => { x with ended := true }
  | _ => x

/-- The situations of a list of loops: each in mode 0 or 1, FIRST or not, independently. -/
def situations : List Nat → List (List (Nat × Nat × Bool))
  | [] => [[]]
  | l :: ls => (situations ls).flatMap (fun r =>
      [(l, 0, false) :: r, (l, 0, true) :: r, (l, 1, false) :: r, (l, 1, true) :: r])

/-- The instruction executes in a situation. -/
def runsIn (sit : List (Nat × Nat × Bool)) (i : CleInstr) : Bool :=
  i.cond = 0 || sit.any (fun x => x.1 = i.cloop && condHolds i.cond x.2.1 x.2.2)

/-- A list without repeats. -/
def dedup : List Nat → List Nat
  | [] => []
  | x :: xs => if xs.contains x then dedup xs else x :: dedup xs

/-- A lane's accumulations keep R217 and R230 in every situation of the loops its instructions name. -/
def laneOrderOk (is : List CleInstr) : Bool :=
  (situations (dedup ((is.filter (·.cond ≠ 0)).map (·.cloop)))).all (fun sit =>
    ((is.filter (runsIn sit)).foldl laneCheck {}).ok)

/-- Every lane keeps the order of accumulation. -/
def cleOrderOk (p : List (Nat × CleInstr)) : Bool :=
  (List.range 8).all (fun l => laneOrderOk ((p.map (·.2)).filter (fun i => (i.op.onLane && i.lane = l) || i.op = .stop)))

end Sys2Proof.Machine
end

