-- ==== Sys2Proof/Machine/CleOps.lean ====
section
/-! DEFINITION. Shared operations of the control-law engines: memories, accumulators, writeback, integrators, loops,
misses and faults (R199 to R251). -/

namespace Sys2Proof.Machine

/-- STATE of CLE_STAT (R248). -/
def cleIdle : Nat := 0
def cleRun : Nat := 1
def cleStopped : Nat := 2

/-- STATE of LOOP_STAT (R249). -/
def loopNormal : Nat := 0
def loopSubst : Nat := 1
def loopHandover : Nat := 2
def loopHold : Nat := 3
def loopRampDown : Nat := 4
def loopTripped : Nat := 5

/-- Codes of actions and endings (R238). -/
def actHold : Nat := 0
def actSubst : Nat := 1
def actRamp : Nat := 2
def actTrip : Nat := 3

/-! ## Memories (R221) -/

/-- Byte address of instruction `p` of CLE `c`. -/
def pmAddr (c p : Nat) : Nat := 0x30000000 + 0x10000 * c + 8 * p

/-- Byte address of state word `w` of CLE `c`. -/
def smAddr (c w : Nat) : Nat := 0x30008000 + 0x10000 * c + 4 * (w % 8192)

/-- An instruction word of program memory. -/
def State.pm (s : State) (d : Die) (c p : Nat) : Nat :=
  s.ram32 d.toNat (pmAddr c p) + 2 ^ 32 * s.ram32 d.toNat (pmAddr c p + 4)

/-- A word of state memory. -/
def State.sm (s : State) (d : Die) (c w : Nat) : Nat := s.ram32 d.toNat (smAddr c w)

/-- A word of state memory as a signal (R200). -/
def State.smInt (s : State) (d : Die) (c w : Nat) : Int := signed 32 (s.sm d c w)

/-- A word written to state memory by the internal port. -/
def State.setSm (s : State) (d : Die) (c w v : Nat) : State :=
  let x := s.cle d c
  let words := if x.portAt = s.tb.ticks then x.port else []
  (s.setCle d c { x with portAt := s.tb.ticks, port := w % 8192 :: words }).setRam32 d.toNat (smAddr c w) v

/-- Words written from a first word up. -/
def State.setSmWords (s : State) (d : Die) (c : Nat) : Nat → List Nat → State
  | _, [] => s
  | w, v :: vs => State.setSmWords (s.setSm d c w v) d c (w + 1) vs

/-- The words a loop's feedback is taken from (R233). -/
def State.fbkWords (s : State) (d : Die) (c n : Nat) : List (Nat × Nat) :=
  [(s.rd d (Reg.LOOP_CFG_MEAS c n), 1), (s.rd d (Reg.LOOP_WORDS_EST c n), 1)]

/-! ## Accumulators (R208 to R211) -/

/-- The bounds of the 80-bit formats (R199). -/
def accMin : Int := -(2 ^ 79)
def accMax : Int := 2 ^ 79 - 1

/-- An accumulator with ACC_OVF. -/
structure Acc where
  v : Int
  ovf : Bool
deriving DecidableEq, Repr

/-- One addition, clamped (R211). -/
def Acc.plus (a : Acc) (t : Int) : Acc :=
  let z := a.v + t
  if z < accMin then ⟨accMin, true⟩ else if accMax < z then ⟨accMax, true⟩ else ⟨z, a.ovf⟩

/-- A signal as a direct term (R209). -/
def directTerm (x : Int) : Int := x * 2 ^ 31

/-- The shift of a coefficient word (R204). -/
def coefShift (w : Nat) : Int := signed 6 w

/-- The mantissa of a coefficient word. -/
def coefMantissa (w : Nat) : Int := signed 24 (w / 2 ^ 8)

/-- SHIFT lies in −24 to +15 (R205). -/
def coefOk (w : Nat) : Bool := -24 ≤ coefShift w && coefShift w ≤ 15

/-- The aligned product floor(x × M × 2^(8 + s)) (R208). -/
def alignedProduct (x : Int) (w : Nat) : Int :=
  let e := 8 + coefShift w
  if 0 ≤ e then x * coefMantissa w * 2 ^ e.toNat else x * coefMantissa w / 2 ^ (-e).toNat

/-- The accumulator of a lane. -/
def State.accOf (s : State) (d : Die) (c l : Nat) : Acc :=
  ⟨tabGet 0 (s.cle d c).acc l, (s.cle d c).ovf.getLsbD l⟩

/-- An accumulator written. -/
def State.setAcc (s : State) (d : Die) (c l : Nat) (a : Acc) : State :=
  let x := s.cle d c
  s.setCle d c { x with acc := tabSet 0 x.acc l a.v, ovf := setBit x.ovf l a.ovf }

/-! ## Writeback (R213, R214) -/

/-- The rounded quotient before the clamp. -/
def wbRound (a : Int) (rnd : Nat) : Int :=
  if rnd = 0 then conv a 31
  else if rnd = 2 then (if 0 ≤ a then (a + 2 ^ 30) / 2 ^ 31 else -((-a + 2 ^ 30) / 2 ^ 31))
  else a / 2 ^ 31

/-- Writeback of an accumulator value, and SAT. -/
def wb (a : Int) (rnd : Nat) : Int × Bool :=
  let q := wbRound a rnd
  if 2 ^ 31 - 1 < q then (2 ^ 31 - 1, true) else if q < -(2 ^ 31 - 1) then (-(2 ^ 31 - 1), true) else (q, false)

/-! ## Integrators (R215 to R218, R231) -/

/-- The state of the integrator at `a`: 80 bits in three words. -/
def State.intState (s : State) (d : Die) (c a : Nat) : Int :=
  signed 80 (s.sm d c a + 2 ^ 32 * s.sm d c (a + 1) + 2 ^ 64 * (s.sm d c (a + 2) % 2 ^ 16))

/-- The limit clamp, and whether it changed the value: LO first, then HI (R216). -/
def limitClamp (z lo hi : Int) : Int × Bool :=
  let r := min (max z (lo * 2 ^ 31)) (hi * 2 ^ 31)
  (r, decide (r ≠ z))

/-- The state stored, with INT_CLAMP where the clamp acted. -/
def State.storeInt (s : State) (d : Die) (c a : Nat) (z : Int × Bool) : State :=
  let n := unsigned 96 z.1
  let s := s.setSmWords d c a [n % 2 ^ 32, n / 2 ^ 32 % 2 ^ 32, n / 2 ^ 64]
  if z.2 then s.setSm d c (a + 5) (withBit (s.sm d c (a + 5)) 31 true) else s

/-! ## Loops -/

/-- A loop takes part (R233). -/
def State.loopEn (s : State) (d : Die) (c n : Nat) : Bool := s.bit d (Reg.LOOP_CFG_EN c n)

/-- The enabled loops of a CLE. -/
def State.loops (s : State) (d : Die) (c : Nat) : List Nat := (List.range 32).filter (s.loopEn d c)

def State.loopState (s : State) (d : Die) (c n : Nat) : Nat := s.rd d (Reg.LOOP_STAT_STATE c n)
def State.setLoopState (s : State) (d : Die) (c n st : Nat) : State := s.wr d (Reg.LOOP_STAT_STATE c n) st

/-- The OUT word of a loop. -/
def State.outWord (s : State) (d : Die) (c n : Nat) : Nat := s.rd d (Reg.LOOP_WORDS_OUT c n)

/-- The loop's feedback source is usable, as the snapshot shows it (R239). -/
def State.usable (s : State) (d : Die) (c n : Nat) : Bool :=
  let i := s.rd d (Reg.LOOP_SRC_INDEX c n)
  match s.rd d (Reg.LOOP_SRC_KIND c n) with
  | 0 => true
  | 1 => i < 144 && bitOf (s.io (Reg.MEAS_SNAP1_FLAGS i)) 0
      && !(s.bit d (Reg.LOOP_SRC_FRZ_EN c n) && bitOf (s.io (Reg.MEAS_SNAP1_FLAGS i)) 6)
  | 2 => s.io (Reg.SV_SNAP_STAT_VALID (i % 32)) = 1
  | _ => false

/-- abs(x[REF] − x[MEAS]) ≤ LIMIT (R239, R241). -/
def State.errorOk (s : State) (d : Die) (c n : Nat) : Bool :=
  absN (s.smInt d c (s.rd d (Reg.LOOP_CFG_REF c n)) - s.smInt d c (s.rd d (Reg.LOOP_CFG_MEAS c n)))
    ≤ s.rd d (Reg.LOOP_LIM_LIMIT c n)

/-- What waits for the next run of a loop. -/
def State.pendOf (s : State) (d : Die) (c n : Nat) : Option LoopPend := tabGet none (s.cle d c).pend n
def State.setPend (s : State) (d : Die) (c n : Nat) (p : Option LoopPend) : State :=
  let x := s.cle d c
  s.setCle d c { x with pend := tabSet none x.pend n p }

/-- Something waits for the next run, unless a happening of the same or a higher rank does already (R242). A TRIP has
rank 2. -/
def State.pendLoop (s : State) (d : Die) (c n : Nat) (p : LoopPend) : State :=
  let r := if p.code = actTrip then min p.rank 2 else p.rank
  match s.pendOf d c n with
  | some q => if q.rank ≤ r then s else s.setPend d c n (some { p with rank := r })
  | none => s.setPend d c n (some { p with rank := r })

/-- ACTION as it acts: from SUBST, or with T_HOLD 0, SUBST is the ENDING; at an ACC_OVF it is HOLD (R238). -/
def State.actionOf (s : State) (d : Die) (c n : Nat) (ovf : Bool) : Nat × Bool :=
  let a := s.rd d (Reg.LOOP_ACT_ACTION c n)
  if a ≠ actSubst then (a, false)
  else if ovf then (actHold, false)
  else if s.loopState d c n = loopSubst ∨ s.rd d (Reg.LOOP_TIME_T_HOLD c n) = 0 then
    (s.rd d (Reg.LOOP_ACT_ENDING c n), true)
  else (actSubst, false)

/-- The CLE's trip request re-formed from its loops in TRIPPED, or about to be by a TRIP that applies (R238, R318). -/
def State.formRequest (s : State) (d : Die) (c : Nat) : State :=
  let ls := (s.loops d c).filter (fun n => s.loopState d c n = loopTripped
    || (match s.pendOf d c n with | some p => decide (p.code = actTrip) | none => false))
  let m := ls.foldl (fun m n => Nat.lor m (s.rd d (Reg.LOOP_ACT_TRIP_MASK c n))) 0
  { s with cleReq := tabSet 0 s.cleReq (4 * d.toNat + c) (if ls = [] then 0 else 2 ^ 16 + m) }.tripScan

/-- An action or ending takes effect (R238). -/
def State.actLoop (s : State) (d : Die) (c n code : Nat) (ending : Bool) : State :=
  let s := if ending then s.post 247 else s
  if code = actSubst then (s.setLoopState d c n loopSubst).wr d (Reg.LOOP_CNT_SUB_CNT c n) 1
  else if code = actRamp then
    ((s.wr d (Reg.LOOP_YFROM_Y c n) (s.sm d c (s.outWord d c n))).wr d (Reg.LOOP_STAT_RAMP_J c n) 0).setLoopState d c n
      loopRampDown
  else if code = actTrip then (s.setLoopState d c n loopTripped).formRequest d c
  else s.setLoopState d c n loopHold

/-- A sticky flag of a loop sets and event 247 posts. -/
def State.loopFlag (s : State) (d : Die) (f : Field) : State := (s.raise d f).post 247

/-! ## Misses (R243 to R245) -/

/-- OUT of every enabled loop rewritten from LOOP_YAPP (R243). -/
def State.rewriteOut (s : State) (d : Die) (c : Nat) : State :=
  (s.loops d c).foldl (fun s n => s.setSm d c (s.outWord d c n) (s.rd d (Reg.LOOP_YAPP_Y c n))) s

/-- MISS_RUN would reach MISS_LIMIT with one more miss (R245). -/
def State.missReaches (s : State) (d : Die) (c : Nat) : Bool :=
  s.rd d (Reg.CLE_STAT_MISS_RUN c) + 1 = s.rd d (Reg.CLE_CFG_MISS_LIMIT c)

/-- MISS_LIMIT stops a loop until a release (R245). -/
def State.holdLoop (s : State) (d : Die) (c n : Nat) : State :=
  s.setCle d c { s.cle d c with missEnd := setBit (s.cle d c).missEnd n true }

/-- LOOP_STAT shows the active modes (R251). -/
def State.showModes (s : State) (d : Die) (c : Nat) : State :=
  (List.range 32).foldl (fun s n => s.wr d (Reg.LOOP_STAT_MODE c n) (s.rd d (Reg.LOOP_CTL_MODE c n))) s

/-- A missed period (R243): flag, counters, event 246, and at MISS_LIMIT rank 1 of R242 for every enabled loop (R245). -/
def State.missRun (s : State) (d : Die) (c : Nat) : State :=
  let lim := s.missReaches d c
  let s := (s.raise d (Reg.CLE_STAT_MISS c)).count d (Reg.CLE_MISS_CNT_COUNT c) (Reg.CLE_MISS_SAT_SAT c) 1
  let s := if s.rd d (Reg.CLE_STAT_MISS_RUN c) < 0xFF then
      s.wr d (Reg.CLE_STAT_MISS_RUN c) (s.rd d (Reg.CLE_STAT_MISS_RUN c) + 1) else s
  let s := (s.post 246).rewriteOut d c
  if lim then
    let s := s.raise d (Reg.CLE_STAT_MISS_LIM c)
    if (s.cle d c).sup then
      ((s.loops d c).foldl (fun s n =>
        let s := ((s.raise d (Reg.LOOP_STAT_MISS_END c n)).setPend d c n none).holdLoop d c n
        s.setLoopState d c n (if s.rd d (Reg.LOOP_ACT_ENDING c n) = actTrip then loopTripped else loopHold)) s).formRequest d c
    else s
  else s

/-- A commit in time: MISS_RUN zero, OUT words copied into LOOP_YAPP (R243). -/
def State.committedRun (s : State) (d : Die) (c : Nat) : State :=
  (s.loops d c).foldl (fun s n => s.wr d (Reg.LOOP_YAPP_Y c n) (s.sm d c (s.outWord d c n)))
    (s.wr d (Reg.CLE_STAT_MISS_RUN c) 0)

/-! ## Faults (R246) -/

def causeIllegal : Nat := 0x01
def causeCoef : Nat := 0x02
def causeCleEcc : Nat := 0x03
def causeTransfer : Nat := 0x04

/-- One more fault of a cluster; the third within a second declares it faulty (R147, R246). -/
def State.clusterFault (s : State) (d : Die) (c kind : Nat) : State :=
  let key := 8 * d.toNat + 2 * c + kind
  let ts := s.tb.ticks :: (tabGet [] s.faultTicks key).filter (fun t => s.tb.ticks < t + 500000000)
  let s := { s with faultTicks := tabSet [] s.faultTicks key ts }
  if 3 ≤ ts.length then s.declareCluster d c else s

/-- A CLE fault: the run abandoned, the record written, OUT words rewritten; the miss acts at the next boundary. -/
def State.cleFaulted (s : State) (d : Die) (c cause : Nat) : State :=
  let x := s.cle d c
  let s := s.setCle d c { x with missDue := true }
  let s := (s.wr d (Reg.CLE_STAT_STATE c) cleStopped).post 245
  let s := (s.stick d (Reg.CLE_FAULT_REC_COUNT c)).wr d (Reg.CLE_FAULT_REC_PC c) x.pc
  let s := (s.wr d (Reg.CLE_FAULT_REC_CAUSE c) cause).wr d (Reg.CLE_FAULT_K_K c) x.k
  (((s.raise d (Reg.CLE_STAT_FAULT c)).rewriteOut d c).dropOut d c).clusterFault d c 1

/-! ## One instruction of a run -/

/-- The CLE issues instructions: it runs, and no self-check stalls it (R465). -/
def State.cleIssues (s : State) (d : Die) (c : Nat) : Bool :=
  s.rd d (Reg.CLE_STAT_STATE c) = cleRun && !s.red.checking && s.red.placeDue ≠ some (d, c)

/-- An instruction executes in this run: COND tests its loop as it stood at the start of the run (R227). -/
def State.executes (s : State) (d : Die) (c : Nat) (i : CleInstr) : Bool :=
  condHolds i.cond (b2n ((s.cle d c).mode.getLsbD i.cloop)) ((s.cle d c).first.getLsbD i.cloop)

/-- The instruction at the program counter has had its turn: it has taken its issue cycle and its unit, executed or not (R227,
R229). -/
def State.cleIssued (s : State) (d : Die) (c : Nat) (i : CleInstr) : State :=
  let x := s.cle d c
  s.setCle d c { x with pc := x.pc + 1, sched := x.sched.issueInstr (s.fbkWords d c) (s.outWord d c) i }

/-- The instruction at the program counter, if legal. -/
def State.cleFetch (s : State) (d : Die) (c : Nat) : Option CleInstr :=
  if (s.cle d c).pc < 4096 then (cleDecode (s.pm d c (s.cle d c).pc)).filter (·.legal) else none

/-- One instruction of operation `op` in its turn: an illegal one and an uncorrectable word fault (R246), a skipped one
changes no state (R227), and any other acts by `f`, whose failure is a fault of a cause, in the state it leaves. A command whose operation is not the one at
the program counter finds nothing to do. -/
def State.cleStep (s : State) (d : Die) (c : Nat) (op : CleOp) (ecc : Ecc)
    (f : CleInstr → State → Except (Nat × State) State) : State :=
  if !s.cleIssues d c then s else
  match s.cleFetch d c with
  | none => s.cleFaulted d c causeIllegal
  | some i =>
    if i.op ≠ op then s
    else if ecc = .uncorrectable then (s.eccUncorrectable d (pmAddr c (s.cle d c).pc)).cleFaulted d c causeCleEcc
    else
      let s := if ecc = .corrected then s.eccCorrected d (pmAddr c (s.cle d c).pc) else s
      match if s.executes d c i then f i s else .ok s with
      | .error (cause, s) => s.cleFaulted d c cause
      | .ok t => t.cleIssued d c i

end Sys2Proof.Machine
end

