-- ==== Sys2Proof/Machine/Gates.lean ====
section
/-! DEFINITION. The commands of gate generation: edges, carriers, chain tracking, adaptive dead time, redundancy of the
channel units, and disabling (R283 to R312). -/

namespace Sys2Proof.Machine

/-! ## Edges -/

/-- `a` goes before `b` among the edges of one output: earlier, or at one tick the falling edge (R288). -/
def edgeBefore (a b : Edge) : Bool := a.tick < b.tick || (a.tick = b.tick && !a.level && b.level)

/-- The next edge of an output. -/
def nextEdge (upper : Bool) : List Edge → Option Edge
  | [] => none
  | e :: es =>
    if e.upper = upper then
      match nextEdge upper es with
      | none => some e
      | some f => if edgeBefore f e then some f else some e
    else nextEdge upper es

/-- The edges left after falling edge `e` has happened: rising edges of its output placed before it and still pending
are dropped (R288). The flag says whether one was. -/
def cutRising (e : Edge) : List Edge → List Edge × Bool
  | [] => ([], false)
  | f :: fs =>
    if f = e then (fs, false)
    else
      let r := cutRising e fs
      if f.upper = e.upper && f.level then (r.1, true) else (f :: r.1, r.2)

/-- An output bit of a copy takes the level of an edge. -/
def GenCopy.setOut (c : GenCopy) (upper v : Bool) : GenCopy := if upper then { c with outU := v } else { c with outL := v }

/-- An edge happens in a copy (R288). -/
def GenCopy.take (e : Edge) (c : GenCopy) : GenCopy :=
  { c with edges := if e.level then c.edges.erase e else (cutRising e c.edges).1 }.setOut e.upper e.level

/-- The voters take the copies as they stand, in the tick in which one is struck, fenced or reloaded (R304, R305); the trip fabric's
pins are its own. -/
def State.revote (s : State) (n : Nat) : State :=
  if s.forceBlock n || s.testState || s.chAsserted n then s
  else (s.setGate n true (s.voted n true)).setGate n false (s.voted n false)

/-- One edge happens (R285, R288, R305, R307). -/
def State.doEdge (s : State) (n : Nat) (e : Edge) : State :=
  let s := s.runTo e.tick
  let g := s.genCh n
  let s := s.setGenCh n (g.each (GenCopy.take e))
  if e.level then
    if s.forceBlock n || s.testState then s else s.setGate n e.upper (s.voted n e.upper)
  else
    let s := if (cutRising e g.maj.edges).2 then s.raiseIo (Reg.GEN_STAT_PULSE_CUT n) else s
    if s.gate n e.upper then
      (if s.testState then s else s.setGate n e.upper (s.voted n e.upper)).openWatch n e.tick
    else s

/-- The output's next edge, those of the command changes still to come among them. -/
def State.edgeDue (s : State) (n : Nat) (upper : Bool) : Option Edge :=
  nextEdge upper ((s.genCh n).chg.foldl (fun s c => s.placeCmd n c.cmd 0 c.at_ c.cyc) s |>.genCh n).maj.edges

/-- GATE_EDGE (R285): the output's next edge, at its computed tick. -/
def execGateEdge (n : Fin 128) (upper : Bool) (s : State) : Result :=
  match s.edgeDue n upper with
  | none => .next s
  | some e => .next ((s.settleTo n e.tick).doEdge n e)

/-! ## Carrier mode (R294 to R296) -/

/-- Units of the time value in one tick of 2 ns. -/
def tickUnit : Nat := 2 * 2 ^ 32

/-- Instant of cycle `j` with phase `ph` under the PTP source. -/
def State.cycleInstant (s : State) (j ph : Nat) : Nat := (j * s.io Reg.GEN_CAR_CFG_P + ph) * tickUnit

/-- The start of cycle `j` lies at or before the time that a step has set: the cycle is passed over (R67, R297). -/
def State.passedOver (s : State) (j ph : Nat) : Bool :=
  match s.tb.stepTo with
  | some t => s.cycleInstant j ph ≤ t
  | none => false

/-- The next cycle number of a phase after the time value, given the last one started. -/
def State.nextCycle (s : State) (ph : Nat) (last : Option Nat) : Nat :=
  let t := s.tb.time
  let per := s.io Reg.GEN_CAR_CFG_P * tickUnit
  if t < ph * tickUnit then 0 else
  let j := (t - ph * tickUnit) / per
  if s.passedOver j ph then j + 1 else
  let here := decide (t < s.cycleInstant j ph + s.addend)
  match last with
  | some c => if c + 1 = j ∨ c = j then c + 1 else if here then j else j + 1
  | none => if here then j else j + 1

/-- The half-width and polarity a reload forms, and whether PW_CLAMP sets (R295); in the tick of a boundary the duty word is that
active before it (R293). -/
def State.halfWidth (s : State) (n : Nat) : Nat × Bool × Bool :=
  let d := if s.tb.bTick = s.tb.ticks then (s.genCh n).dutyWas else s.dutyWord n
  let p := s.io Reg.GEN_CAR_CFG_P
  let neg := s.io (Reg.GEN_CH_CFG_FB n) = 1 && d < 0
  let a := if neg then min (-d) (2 ^ 31 - 1) else max d 0
  let x := (conv (a * p * 8) 31).toNat
  let m := 16 * s.io Reg.GEN_MINPW_MIN_PW
  if x < m then (0, neg, decide (x ≠ 0))
  else if 8 * p - x < m then (8 * p, neg, true)
  else (x, neg, false)

/-- INSERTED with a polarity (R283). -/
def insertedCmd (pol : Bool) : Nat := if pol then 3 else 2

/-- The channel takes carrier commands: mode 2, its group not asserted, not muted or disabled, its unit sound. -/
def State.carrierLive (s : State) (n : Nat) : Bool :=
  let g := s.genCh n
  s.io (Reg.GEN_CH_CFG_MODE n) = 2 && !s.chAsserted n && !g.mute && !g.disabled && !g.faulty

/-- PW_CLAMP sets where the reload clamped. -/
def State.noteClamp (s : State) (n : Nat) (b : Bool) : State := if b then s.raiseIo (Reg.GEN_STAT_PW_CLAMP n) else s

/-- Changes of the present cycle, each by its instant after the cycle start in sixteenths and its command: they wait for
their instants, and those of the present tick take place (R296), in a boundary tick with the RISE_DLY of the boundary (R292). -/
def State.addChanges (s : State) (n : Nat) (cs : List (Nat × Nat)) : State :=
  let g := s.genCh n
  (s.setGenCh n { g with chg := g.chg ++ cs.map (fun c => ⟨16 * g.cycStart + c.1, c.2, g.maj.cyc⟩) }).settleTo n
    (if s.tickAt s.tb.nextB = s.tb.ticks then s.tb.ticks - 1 else s.tb.ticks)

/-- The number and start tick of the channel's next cycle: by the time value, or after the first device epoch since the
one it started with last, the newest for its first cycle (R294). -/
def State.cycleStart (s : State) (n : Nat) : Option (Nat × Nat) :=
  let ph := s.io (Reg.GEN_CAR_PH_PHASE n)
  let g := s.genCh n
  if s.io Reg.GEN_CAR_CFG_SRC = 0 then
    let j := s.nextCycle ph (if g.cycRun then some g.maj.cyc else none)
    some (j, s.tickAt (s.cycleInstant j ph))
  else
    let new := if g.cycRun then s.sync.epochs.takeWhile (fun e => e.1 ≠ g.maj.cyc) else s.sync.epochs.take 1
    new.getLast?.map (fun e => (e.1, e.2 + ph))

/-- A cycle starts in tick `t`: what the last one had left is not reached, and x_a is reloaded (R295, R300). -/
def State.beginCycle (s : State) (n j t : Nat) : State :=
  let s := (s.runTo t).settleTo n (t - 1)
  let r := s.halfWidth n
  (s.noteClamp n r.2.2).setGenCh n
    { (s.genCh n).each (fun c => { c with cyc := j, xa := r.1, pola := r.2.1 }) with cycStart := t, cycRun := true, chg := [] }

/-- CARRIER_CYCLE_START (R294 to R296): the cycle's number and start tick, the reload of x_a, and the changes up to the
middle of the cycle. Before the first device epoch nothing starts. -/
def execCarrierCycleStart (n : Fin 128) (s : State) : Result :=
  if s.io (Reg.GEN_CH_CFG_MODE n) ≠ 2 then .next s else
  match s.cycleStart n with
  | none => .next s
  | some (j, t) =>
    let s := s.beginCycle n j t
    if !s.carrierLive n then .next s else
    let g := (s.genCh n).maj
    let p := s.io Reg.GEN_CAR_CFG_P
    .next (s.addChanges n (if g.xa = 8 * p then [(0, insertedCmd g.pola)]
      else if g.xa = 0 then [(0, 1)] else [(0, 1), (8 * p - g.xa, insertedCmd g.pola)]))

/-- CARRIER_MID_RELOAD (R295, R296): the reload of x_b at floor(P / 2) and the changes from the middle on. -/
def execCarrierMidReload (n : Fin 128) (s : State) : Result :=
  let g := s.genCh n
  if s.io (Reg.GEN_CH_CFG_MODE n) ≠ 2 ∨ !g.cycRun then .next s else
  let p := s.io Reg.GEN_CAR_CFG_P
  let s := s.runTo (g.cycStart + p / 2)
  let r := s.halfWidth n
  let s := s.noteClamp n r.2.2
  if !s.carrierLive n then .next s else
  .next (s.addChanges n (if r.1 = 0 then [(8 * p, 1)]
    else if r.1 = 8 * p then [(8 * p, insertedCmd r.2.1)] else [(8 * p, insertedCmd r.2.1), (8 * p + r.1, 1)]))

/-! ## The carrier chain (R298 to R300) -/

/-- SYNC_OUT is driven low until gate release and in the shutdown (R32, R41); in the test state the boundary register
drives it. -/
def State.setSyncOut (s : State) (b : Bool) : State :=
  if s.testState then s else { s with pins := { s.pins with syncOut := b && s.pins.live && !s.power.shutdown } }

/-- Device epochs under SYNC_IN run from the first boundary (R300). -/
def State.anchorEpochs (s : State) : State :=
  if s.io Reg.GEN_CAR_CFG_SRC = 0 || s.sync.anchored then s
  else { s with sync := { s.sync with anchored := true, next := some s.tb.ticks } }

/-- A MASTER's pulse on SYNC_OUT lasts 8 ticks (R298). -/
def State.masterPulse (s : State) : State :=
  if s.io Reg.GEN_CAR_CFG_SYNC_OUT = 1 then
    { s.setSyncOut true with sync := { s.sync with pulseEnd := some (s.tb.ticks + 8) } }
  else s

/-- DEVICE_EPOCH (R294, R298, R300): the device's cycle with phase 0 starts; a MASTER drives SYNC_OUT high. -/
def execDeviceEpoch (s : State) : Result :=
  let p := s.io Reg.GEN_CAR_CFG_P
  if s.io Reg.GEN_CAR_CFG_SRC = 0 then
    let j := s.nextCycle 0 (if s.sync.started then some s.sync.epoch else none)
    let s := s.runTo (s.tickAt (s.cycleInstant j 0))
    .next ({ s.setIo Reg.GEN_CYCLE_J j with sync := { s.sync with started := true, epoch := j } }).masterPulse
  else
    let e := s.sync.next.getD (s.sync.epoch + p)
    let s := s.runTo e
    .next ({ s.setIo Reg.GEN_CYCLE_J (s.io Reg.GEN_CYCLE_J + 1) with
      sync := { s.sync with started := true, epoch := e, next := s.sync.early, early := none
                            epochs := (((s.io Reg.GEN_CYCLE_J + 1) % 2 ^ 32, e) :: s.sync.epochs).take 4 } }).masterPulse

/-- SYNC_OUT_PULSE_END (R298): 8 ticks after the epoch a MASTER drives SYNC_OUT low; a FORWARD device follows SYNC_IN. -/
def execSyncOutPulseEnd (s : State) : Result :=
  let s := match s.sync.pulseEnd with
    | some t => s.runTo t
    | none => s
  let s := s.setSyncOut false
  .next { s with sync := { s.sync with pulseEnd := none }
                 pins := { s.pins with syncIn := s.pins.syncIn && s.io Reg.GEN_CAR_CFG_SYNC_OUT ≠ 2 } }

/-- The epoch that an accepted edge at tick `t` sets (R300). -/
def State.syncEpoch (s : State) (t : Nat) : Nat := t + s.io Reg.GEN_CAR_CFG_P - s.io Reg.GEN_SYNC_COMP

/-- The accepted edge at tick `t` sets the next epoch and clears the misses (R300). -/
def State.acceptSync (s : State) (t : Nat) : State :=
  { s.setIo Reg.GEN_SYNC_STAT_MISS 0 with sync := { s.sync with next := some (s.syncEpoch t), early := none } }

/-- The edge at tick `t` lies in the window of the epoch `e` (R300). -/
def State.inWindow (s : State) (t e : Nat) : Bool :=
  absN ((t : Int) - ((e + s.io Reg.GEN_SYNC_COMP : Nat) : Int)) ≤ s.io Reg.GEN_SYNC_WIN

/-- The edge at tick `t` lies in the window of the next epoch, which is known and has not begun (R300). -/
def State.inNextWindow (s : State) (t : Nat) : Bool :=
  match s.sync.next with
  | some e => s.inWindow t e
  | none => false

/-- SYNC_IN_EDGE (R298 to R300): a FORWARD device buffers it; from gate release on it acquires and tracks the chain. -/
def execSyncInEdge (ticks : Nat) (s : State) : Result :=
  let t := s.tb.ticks + ticks
  let s := s.runTo t
  let s := { s with pins := { s.pins with syncIn := true } }
  let s := if s.io Reg.GEN_CAR_CFG_SYNC_OUT = 2 then s.setSyncOut true else s
  if s.io Reg.GEN_CAR_CFG_SRC = 0 || !s.tb.released then .next s
  else if s.io Reg.GEN_SYNC_STAT_TRACK = 0 then
    .next (((s.acceptSync t).setIo Reg.GEN_SYNC_STAT_TRACK 1).post 181)
  else if s.inWindow t s.sync.epoch then .next (s.acceptSync t)
  else if s.inNextWindow t then
    .next { s.setIo Reg.GEN_SYNC_STAT_MISS 0 with sync := { s.sync with early := some (s.syncEpoch t) } }
  else .next (s.raiseIo Reg.GEN_SYNC_STAT_SLIP)

/-- SYNC_WINDOW_CLOSE (R300): a window with no accepted edge counts a miss; at MISS_LIMIT tracking is lost. -/
def execSyncWindowClose (s : State) : Result :=
  if s.io Reg.GEN_CAR_CFG_SRC = 0 ∨ s.io Reg.GEN_SYNC_STAT_TRACK = 0 ∨ s.sync.next.isSome then .next s
  else
    let s := s.runTo (s.sync.epoch + s.io Reg.GEN_SYNC_COMP + s.io Reg.GEN_SYNC_WIN)
    let m := s.io Reg.GEN_SYNC_STAT_MISS + 1
    let s := { s.setIo Reg.GEN_SYNC_STAT_MISS m with
      sync := { s.sync with next := some (s.sync.epoch + s.io Reg.GEN_CAR_CFG_P) } }
    if s.io Reg.GEN_SYNC_MISS_LIMIT ≤ m then
      .next (((s.setIo Reg.GEN_SYNC_STAT_TRACK 0).raiseIo Reg.GEN_SYNC_STAT_LOST).post 181)
    else .next s

/-! ## Adaptive dead time (R301, R302) -/

/-- An echo mark with start tick `t` closes the watch that was open at `t`, the present one or one that has lapsed since (R301). -/
def State.echoSeen (s : State) (n t : Nat) : State :=
  let g := s.genCh n
  let win := s.io Reg.GEN_ADAPT_ECHO_WIN
  let now := match g.watch with
    | some tf => if tf ≤ t ∧ t ≤ tf + win then some tf else none
    | none => none
  match now, g.lapsed.find? (fun w => decide (w.1 ≤ t ∧ t < w.2 ∧ t ≤ w.1 + win)) with
  | some tf, _ =>
    (s.setIo (Reg.GEN_ECHO_E_LAST n) (min (t - tf) 0xFFF)).setGenCh n
      { g with watch := none, emax := some (max (g.emax.getD 0) (t - tf)) }
  | none, some w =>
    (s.setIo (Reg.GEN_ECHO_E_LAST n) (min (t - w.1) 0xFFF)).setGenCh n
      { g with lapsed := g.lapsed.erase w, emax := some (max (g.emax.getD 0) (t - w.1)) }
  | none, none => s

/-- ECHO_WATCH_TIMEOUT (R301): the watch is still open at tf + ECHO_WIN + 1. -/
def execEchoWatchTimeout (n : Fin 128) (s : State) : Result :=
  match (s.genCh n).watch with
  | none => .next s
  | some tf =>
    let t := tf + s.io Reg.GEN_ADAPT_ECHO_WIN + 1
    let s := s.runTo t
    .next (s.setGenCh n { s.genCh n with watch := none, lapsed := (tf, t) :: (s.genCh n).lapsed })

/-- The window update of one channel (R301, R302). -/
def State.deadTime (s : State) (n : Nat) : State :=
  if s.io (Reg.GEN_CH_CFG_ADAPT n) ≠ 1 then s else
  let g := s.genCh n
  let lo := 16 * s.io (Reg.GEN_DT_BND_RISE_LO n)
  let hi := 16 * s.io (Reg.GEN_DT_BND_RISE_HI n)
  let rise := s.io (Reg.GEN_RISE_ACT_RISE n)
  let miss := !g.lapsed.isEmpty
  let target := if miss then hi
    else match g.emax with
      | some e => s.io (Reg.GEN_FALL_FALL n) + 16 * (e + s.io Reg.GEN_ADAPT_MARGIN)
      | none => rise
  let r := if rise ≤ target then target else max target (rise - s.io Reg.GEN_ADAPT_STEP)
  let r := min (max r lo) hi
  let s := s.setIo (Reg.GEN_ECHO_E_MAX n) (min (g.emax.getD 0) 0xFFF)
  let s := s.setGenCh n { g with emax := none, lapsed := [] }
  let s := s.setRise n r
  if miss then
    let s := s.raisePost (Reg.GEN_STAT_NO_ECHO n) n
    if rise ≠ hi ∧ r = hi then s.post n else s
  else s

/-! ## Redundancy of the channel unit (R305) -/

/-- The channel unit is faulty: both outputs low, flags, event, dash source and grade G1 (R305, R474). -/
def State.faultUnit (s : State) (n : Nat) : State :=
  let g := s.genCh n
  if g.faulty then s else
  let s := (s.setGenCh n { g.each GenCopy.off with faulty := true, chg := [], bypassAt := none }).setIo (Reg.GEN_CMD_ACT n) 0
  let s := if s.testState then s else (s.setGate n true false).setGate n false false
  let s := (s.raisePost (Reg.GEN_STAT_CH_FAULT n) n).raiseIo (Reg.MEAS_FLAG_DASH n)
  (s.setChanSrc n true).raiseGrade 1 causeChUnit

/-- Periods in a row with a difference, of one copy. -/
def runOf (r : Nat × Nat × Nat) (c : Nat) : Nat := if c = 0 then r.1 else if c = 1 then r.2.1 else r.2.2

def setRun (r : Nat × Nat × Nat) (c v : Nat) : Nat × Nat × Nat :=
  if c = 0 then (v, r.2) else if c = 1 then (r.1, v, r.2.2) else (r.1, r.2.1, v)

/-- An upset strikes a copy: its output bits stand at the other level until its next edge or its reload (log entry 144). -/
def GenCopy.upset (c : GenCopy) : GenCopy := { c with outU := !c.outU, outL := !c.outL }

/-- One copy changed. -/
def GenCh.mapCopy (g : GenCh) (i : Nat) (f : GenCopy → GenCopy) : GenCh :=
  if i = 0 then { g with c0 := f g.c0 } else if i = 1 then { g with c1 := f g.c1 } else { g with c2 := f g.c2 }

/-- TMR_MISMATCH (R305): a copy differs from the others; with it fenced while another is struck, the remaining two differ. -/
def execTmrMismatch (n : Fin 128) (copy : Fin 3) (s : State) : Result :=
  let g := s.genCh n
  let fence := s.io (Reg.GEN_STAT_FENCE n)
  if g.faulty ∨ bitOf fence copy then .next s
  else if fence ≠ 0 then .next (s.faultUnit n)
  else
    let s := s.raisePost (Reg.GEN_STAT_TMR_ERR n) n
    if g.diff.getLsbD copy then .next s
    else
      let k := runOf g.runs copy + 1
      let s := s.setGenCh n { g.mapCopy copy GenCopy.upset with
        diff := setBit g.diff copy true, runs := setRun g.runs copy k }
      if k < 3 then .next (s.revote n)
      else
        let s := s.setIo (Reg.GEN_STAT_FENCE n) (withBit fence copy true)
        .next (if g.diff = 0 then s.revote n else s.faultUnit n)

/-- Boundary: differing copies are reloaded; a period without a difference restarts a copy's count (R305). -/
def State.tmrBoundary (s : State) (n : Nat) : State :=
  let g := s.genCh n
  let keep := fun c => if g.diff.getLsbD c then runOf g.runs c else 0
  let s := s.setGenCh n { g.each (fun _ => g.maj) with diff := 0, runs := (keep 0, keep 1, keep 2) }
  if g.diff = 0 then s else s.revote n

/-! ## Disabling (R308) -/

/-- One bit of a GEN_DIS write; the boundary of its tick takes the bit before (R293). -/
def State.disBit (s : State) (d : Die) (n : Nat) (on : Bool) : State :=
  let f := Reg.GEN_DIS_DIS (n / 32)
  if on && !s.isHub && s.bit d Reg.BAL_CFG_EN && s.inUse n then
    if bitOf (s.io f) (n % 32) then s else s.raisePost (Reg.GEN_STAT_DIS_REFUSED n) n
  else
    let g := s.genCh n
    let was := match g.disWas with
      | some (t, b) => if t = s.tb.ticks then b else bitOf (s.io f) (n % 32)
      | none => bitOf (s.io f) (n % 32)
    (s.setIo f (withBit (s.io f) (n % 32) on)).setGenCh n { g with disWas := some (s.tb.ticks, was) }

/-- GEN_DIS (R308): a write to GEN_DIS[w], which acts at the next boundary; in a balancing Cell a 1 is refused for a
channel in use. -/
def execGenDis (d : Die) (w : Fin 4) (v : Word) (s : State) : Result :=
  .next (if s.mayWrite d then
    (List.range 32).foldl (fun s j => s.disBit d (32 * w + j) (v.getLsbD j)) s else s)

/-- GATE_PAD_POWER_ON (R32): VDD33_CH has risen through 1.0 V, and the pads drive every gate pin low. -/
def execGatePadPowerOn (s : State) : Result :=
  .next { s with pins := { s.pins with padPower := true, gu := 0, gl := 0 } }

end Sys2Proof.Machine
end

