-- ==== Sys2Proof/Machine/MeasOps.lean ====
section
/-! DEFINITION. Shared operations of the measurement chain: events, decimation, calibration, integrating units and the
snapshot (R166 to R196). -/

namespace Sys2Proof.Machine

def State.ch (s : State) (i : Nat) : MeasCh := tabGet {} s.meas i
def State.setCh (s : State) (i : Nat) (x : MeasCh) : State := { s with meas := tabSet {} s.meas i x }
def State.injOf (s : State) (u : Nat) : InjSt := tabGet {} s.inj u
def State.setInj (s : State) (u : Nat) (x : InjSt) : State := { s with inj := tabSet {} s.inj u x }

/-- Channel `i` is remote (R166). -/
def isRemote (i : Nat) : Bool := i < 128

/-- RX_STATE (R175). -/
def rxHunt : Nat := 0
def rxCheck : Nat := 1
def rxLocked : Nat := 2
def rxDash : Nat := 3

/-! ## Flags and events (R195) -/

/-- The event of a channel: n for a remote one, 243 with its bit in MEAS_LOCAL_EVT for a local one. -/
def State.measEvent (s : State) (i : Nat) : State :=
  if isRemote i then s.post i
  else (s.setIo Reg.MEAS_LOCAL_EVT_CH (withBit (s.io Reg.MEAS_LOCAL_EVT_CH) (i - 128) true)).post 243

/-- A detector's flag: the event is posted when it goes from 0 to 1. -/
def State.measFlag (s : State) (f : Field) (i : Nat) : State :=
  if s.ioBit f then s else (s.raiseIo f).measEvent i

/-- VALID, with its event at every change. -/
def State.setValid (s : State) (i : Nat) (v : Bool) : State :=
  if s.ioBit (Reg.MEAS_FLAG_VALID i) = v then s else (s.setIo (Reg.MEAS_FLAG_VALID i) (b2n v)).measEvent i

/-! ## Fast path (R191) -/

/-- The over- or under-voltage source of a channel; a local one raises its event and trips nothing. -/
def State.fpSet (s : State) (i : Nat) (ov on : Bool) : State :=
  let x := s.ch i
  if (if ov then x.fpOvOn else x.fpUvOn) = on then s else
  let s := s.setCh i (if ov then { x with fpOvOn := on } else { x with fpUvOn := on })
  let s := if on then s.raiseIo (if ov then Reg.MEAS_FLAG_FP_OV i else Reg.MEAS_FLAG_FP_UV i) else s
  if isRemote i then s.setChanSrc ((if ov then 0x080 else 0x100) + i) on
  else if on then s.measEvent i else s

/-- Both sources held inactive; the filter goes on. -/
def State.fpOff (s : State) (i : Nat) : State :=
  let s := s.setCh i { s.ch i with fpOv := 0, fpUv := 0 }
  (s.fpSet i true false).fpSet i false false

/-- Triangle coefficients of the sinc2 filter of ratio 8. -/
def sinc2Coef (j : Nat) : Int := if j < 8 then j + 1 else 15 - j

/-- A bit as +1 or −1 (R167). -/
def bitVal (b : Bool) : Int := if b then 1 else -1

/-- A weighted sum of bits, newest first, from coefficient `j` on, up to `n` bits. -/
def bitSum (h : Nat → Int) : List Bool → Nat → Nat → Int
  | [], _, _ => 0
  | b :: bs, j, n => if j < n then h j * bitVal b + bitSum h bs (j + 1) n else 0

/-! ## Decimation (R181 to R183) -/

/-- (x + 1)(x + 2) / 2 for x ≥ 0, else 0. -/
def tri (x : Int) : Int := if x < 0 then 0 else (x + 1) * (x + 2) / 2

/-- Coefficient j of (1 + z^-1 + … + z^-(R-1))^3. -/
def sinc3Coef (r j : Nat) : Int := tri j - 3 * tri (j - r) + 3 * tri (j - 2 * r)

/-- The bounds of results (R181). -/
def yMax : Int := 2 ^ 23 - 1

/-- A value clamped to the result's range, and whether the clamp acted. -/
def clampY (z : Int) : Int × Bool := (clamp (-yMax) yMax z, decide (z < -yMax ∨ yMax < z))

/-- X from the raw sum (R181). -/
def normX (m : Nat) (z : Int) : Int := if m < 8 then z * 2 ^ (23 - 3 * m) else (z + 1) / 2

/-- A decimator restarts (R182). -/
def MeasCh.restart (x : MeasCh) : MeasCh := { x with hist := [], fresh := 0, outN := 0, xs := [] }

/-- The compensated value of the last 32 outputs (R183). -/
def State.fir (s : State) (i : Nat) (xs : List (Int × Bool)) : Int :=
  let set := s.io (Reg.MEAS_CFG_FIR_SET i)
  let c := fun k => s.ioInt (Reg.MEAS_FIR_C set (if k < 16 then k else 31 - k))
  conv ((List.range 32).foldl (fun m k => m + c k * (xs.getD k (0, false)).1) 0) 23

/-! ## Calibration (R184) -/

/-- The mean of the four I/O-die sensors; the spec rounds it nowhere, so a free value chooses between the two
neighbours. -/
def State.sensorMean (s : State) : Int :=
  let z := s.ioInt Reg.IOD_TEMP_LO_T0 + s.ioInt Reg.IOD_TEMP_LO_T1 + s.ioInt Reg.IOD_TEMP_HI_T2 + s.ioInt Reg.IOD_TEMP_HI_T3
  if z % 4 = 0 then z / 4 else z / 4 + ((Config.free s.freeCtr % 2 : Nat) : Int)

/-- The temperature of a channel: its auxiliary temperature, or the sensors (R184). -/
def State.measTemp (s : State) (i : Nat) : Int :=
  if s.io (Reg.MEAS_CFG_TSRC i) = 1 ∧ isRemote i ∧ s.ioBit (Reg.MEAS_AUX_VALID i) then s.ioInt (Reg.MEAS_AUX_X i) / 2 ^ 8
  else s.sensorMean

/-- Y from X (R184). Before the first boundary the temperature is the sensors' mean of the moment (log entry 165). -/
def State.calibrate (s : State) (i : Nat) (x : Int) : Int × Bool :=
  let gain := s.ioInt (Reg.MEAS_GAIN_GAIN i)
  let ofs0 := s.ioInt (Reg.MEAS_OFS_OFS i)
  let g0 := if isRemote i then gain else conv (gain * s.ioInt (Reg.MEAS_SCAL0_CORR (i - 128))) 30
  let ofs := if isRemote i then ofs0 else ofs0 + s.ioInt (Reg.MEAS_SCAL1_Z (i - 128))
  let dt := ((s.ch i).temp.getD s.sensorMean) - s.ioInt (Reg.MEAS_TC_TREF i)
  let g1 := g0 + s.ioInt (Reg.MEAS_TC_TC i) * dt / 2 ^ 6
  let g2 := g1 + g1 * s.ioInt (Reg.MEAS_TRIM_TRIM i) / 2 ^ 21
  clampY (conv (g2 * (x - ofs)) 30)

/-! ## Integrating units (R192 to R194) -/

/-- STATE of an integrating unit. -/
def injIdle : Nat := 0
def injRunning : Nat := 1
def injQueued : Nat := 2
def injHeld : Nat := 3

/-- Bits of a nominal cycle (R193). -/
def nNom (fnom : Nat) : Nat := [1200000, 800000, 400000, 333333].getD fnom 0

/-- A unit converts on channel `i` now. -/
def State.injOn (s : State) (u i : Nat) : Bool :=
  s.ioBit (Reg.MEAS_INJ_CFG_EN u) && s.io (Reg.MEAS_INJ_CFG_CH u) = i
    && (s.io (Reg.MEAS_INJ_STAT_STATE u) = injRunning || s.io (Reg.MEAS_INJ_STAT_STATE u) = injQueued)

/-- One bit of the stream reaches a unit: counted in its window, or kept for the next one. -/
def InjSt.bit (x : InjSt) (valid : Bool) (b : Bool × Bool) : InjSt :=
  if x.left = 0 then { x with extra := x.extra ++ [b] }
  else { x with left := x.left - 1, ones := x.ones + b2n b.1, subst := x.subst || b.2, valid := x.valid && valid }

/-- Bits of channel `i`, oldest first, reach every unit that converts on it. -/
def State.injBits (s : State) (i : Nat) (bs : List (Bool × Bool)) : State :=
  (List.range 8).foldl (fun s u =>
    if s.injOn u i then s.setInj u (bs.foldl (fun x b => x.bit (s.ioBit (Reg.MEAS_FLAG_VALID i)) b) (s.injOf u)) else s) s

/-- A window starts (R193): its length, and the bits that already came after the last window. -/
def State.injStart (s : State) (u : Nat) (extra : List (Bool × Bool)) : State :=
  let i := s.io (Reg.MEAS_INJ_CFG_CH u)
  let nom := nNom (s.io (Reg.MEAS_INJ_CFG_FNOM u))
  let m : Option Nat := if s.io (Reg.MEAS_INJ_CFG_SRC u) = 1 then none
    else match (s.ch (s.io (Reg.MEAS_INJ_CFG_SRC_CH u))).cycle with
      | some z => if (z - nom).natAbs ≤ 20000 then some z.toNat else none
      | none => none
  let n := m.getD nom
  let v := s.ioBit (Reg.MEAS_FLAG_VALID i)
  let x : InjSt := { n := n, left := n, measured := m.isSome || s.io (Reg.MEAS_INJ_CFG_SRC u) = 1, valid := v
                     seq := (s.injOf u).seq }
  (s.setIo (Reg.MEAS_INJ_STAT_STATE u) injRunning).setInj u (extra.foldl (fun x b => x.bit v b) x)

/-- A dropped trigger (R192). -/
def State.injDrop (s : State) (u : Nat) : State := (s.raiseIo (Reg.MEAS_INJ_STAT_OVERRUN u)).post 244

/-- A trigger of unit `u` (R192). -/
def State.injTrigger (s : State) (u : Nat) : State :=
  if !s.ioBit (Reg.MEAS_INJ_CFG_EN u) then s else
  let x := s.ch (s.io (Reg.MEAS_INJ_CFG_CH u))
  let st := s.io (Reg.MEAS_INJ_STAT_STATE u)
  if st = injIdle then
    if x.cal = 2 ∨ x.ow = 2 then s.setIo (Reg.MEAS_INJ_STAT_STATE u) injHeld else s.injStart u []
  else if st = injRunning then s.setIo (Reg.MEAS_INJ_STAT_STATE u) injQueued
  else if st = injQueued then s.injDrop u
  else s.raiseIo (Reg.MEAS_INJ_STAT_OVERRUN u)

/-- A unit runs a conversion on channel `i`. -/
def State.injBusy (s : State) (i : Nat) : Bool := (List.range 8).any (fun u => s.injOn u i)

/-- Units held on channel `i` run once neither a calibration nor a test runs there (R192). -/
def State.injResume (s : State) (i : Nat) : State :=
  if (s.ch i).cal = 2 ∨ (s.ch i).ow = 2 then s else
  (List.range 8).foldl (fun s u =>
    if s.ioBit (Reg.MEAS_INJ_CFG_EN u) && s.io (Reg.MEAS_INJ_CFG_CH u) = i
        && s.io (Reg.MEAS_INJ_STAT_STATE u) = injHeld then s.injStart u [] else s) s

/-! ## Self-calibration and open-wire tests (R170, R185 to R187) -/

/-- The calibration of a local channel starts. -/
def State.calStart (s : State) (i : Nat) : State :=
  (s.setCh i { s.ch i with cal := 2 }).fpOff i

/-- A request for self-calibration (R185, R187). -/
def State.calRequest (s : State) (i : Nat) : State :=
  if !s.ioBit (Reg.MEAS_CFG_EN i) || isRemote i || (s.ch i).cal ≠ 0 then s
  else if s.injBusy i then s.setCh i { s.ch i with cal := 1 } else s.calStart i

/-- An open-wire test starts: the last X before it is kept. -/
def State.owStart (s : State) (i : Nat) : State :=
  let x := s.ch i
  s.setCh i { x with ow := 2, owBefore := x.xLast, owOuts := [] }

/-- What waits for the end of a conversion on channel `i` starts; the flag says whether something did. -/
def State.startWaiting (s : State) (i : Nat) : State × Bool :=
  let c := decide ((s.ch i).cal = 1)
  let o := decide ((s.ch i).ow = 1)
  let s := if c then s.calStart i else s
  ((if o then s.owStart i else s), c || o)

/-! ## Publication (R184, R193, R195) -/

/-- Zero crossings of an output `y`, formed with the bit before the fresh ones; the output before it came, or was held, `r`
bits earlier, and over a restart of the decimator too (log entry 164). Every bit of the stream counts, those under held outputs too
(R193). -/
def MeasCh.crossing (x : MeasCh) (r : Nat) (y : Int) : MeasCh :=
  let last : Int := ((x.pos - x.fresh : Nat) : Int) - r
  let x' := { x with prevY := some y, armed := x.armed || decide (y < -(2 ^ 17)) }
  match x.prevY with
  | some p =>
    if x.armed && p < 0 && 0 ≤ y then
      let num := -p * r
      let den := y - p
      let q := num / den
      let f := num - q * den
      let at_ := last + q + (if den < 2 * f ∨ (den = 2 * f ∧ (last + q) % 2 = 1) then 1 else 0)
      { x' with armed := decide (y < -(2 ^ 17)), cycle := x.cross.map (fun c => at_ - c), cross := some at_ }
    else x'
  | none => x'

/-- The channel's outputs are held with the CAL flag (R170, R186). -/
def MeasCh.calHeld (x : MeasCh) : Bool := x.cal = 2 || x.ow = 2 || 0 < x.hold

/-- VDDA18 is below its threshold: no local output is VALID (R182). -/
def State.railLow (s : State) : Bool := bitOf (s.io Reg.IOD_RAIL_STAT_UV_NOW) 5

/-- An output is published: Y, its flags and VALID. -/
def State.publish (s : State) (i : Nat) (x : Int) (sat subst ovl valid : Bool) : State :=
  let y := s.calibrate i x
  let c := (s.ch i).crossing (2 ^ s.io (Reg.MEAS_CFG_RATIO i)) y.1
  let s := s.setCh i { c with yTick := s.tb.ticks, ySat := sat || y.2, ySubst := subst, yOvl := ovl, seen := true, taken := false }
  let s := s.setIoInt (Reg.MEAS_VAL_Y i) y.1
  let s := if sat || y.2 then s.raiseIo (Reg.MEAS_FLAG_SAT i) else s
  s.setValid i valid

/-- Bits of a stream, oldest first, pushed into a channel's history and its run of equal bits. Replaced bits leave the run
as it is (R176). -/
def MeasCh.push (x : MeasCh) (b : Bool × Bool) : MeasCh :=
  { x with hist := (b :: x.hist).take 1100, fresh := x.fresh + 1, pos := x.pos + 1
           run := if b.2 then x.run else if x.run.1 = b.1 then (b.1, x.run.2 + 1) else (b.1, 1) }

/-- Bits reach the decimator and the integrating units of a channel. -/
def State.feed (s : State) (i : Nat) (bs : List (Bool × Bool)) : State :=
  (s.setCh i (bs.foldl MeasCh.push (s.ch i))).injBits i bs

/-- One output of the decimator, where R bits have come since the last (R181 to R183, R195). SUBST looks at the newest X's window alone
(log entry 163). An output lost behind the modulator counts, and reaches neither the compensator nor the channel (R60). -/
def State.decimate (s : State) (i : Nat) (full : Bool) : State :=
  let x := s.ch i
  let m := s.io (Reg.MEAS_CFG_RATIO i)
  let r := 2 ^ m
  if x.fresh < r then s else
  if full then (s.setCh i { x with fresh := x.fresh - r, outN := min 3 (x.outN + 1) }).post 255 else
  let w := (x.hist.drop (x.fresh - r)).take (3 * r - 2)
  let raw := clampY (normX m (bitSum (sinc3Coef r) (w.map (·.1)) 0 (3 * r - 2)))
  let n := min 3 (x.outN + 1)
  let settled := decide (3 ≤ n)
  let ovl := x.ovl || decide (64 ≤ x.run.2)
  let ovlRun := if ovl then min 16 (x.ovlRun + 1) else 0
  let mode := s.io (Reg.MEAS_CFG_OW i)
  let opened := if mode = 1 && !isRemote i then (ovlRun = 16) else x.opened
  let xs := ((raw.1, settled) :: x.xs).take 32
  let firOn := s.ioBit (Reg.MEAS_CFG_FIR_EN i)
  let z := if firOn then clampY (s.fir i xs) else (raw.1, false)
  let ok := if firOn then decide (xs.length = 32) && xs.all (·.2) else settled
  let held := x.cal = 2 || x.ow = 2 || 1 < x.hold || opened
  let s := s.setCh i { x with fresh := x.fresh - r, outN := n, xs := xs, xLast := raw.1, ovl := false, ovlRun := ovlRun, opened := opened
                              hold := x.hold - 1, owOuts := if x.ow = 2 then raw.1 :: x.owOuts else x.owOuts }
  let s := if opened && !x.opened then (s.measFlag (Reg.MEAS_FLAG_OPEN i) i).setValid i false else s
  if held then s
  else s.publish i z.1 (raw.2 || z.2) (w.any (·.2)) ovl
    (ok && (isRemote i || !s.railLow) && (!isRemote i || s.io (Reg.MEAS_FLAG_RX_STATE i) = rxLocked))

/-- Every local channel is not VALID and its decimator restarts (R182, R40). -/
def State.localRestart (s : State) : State :=
  (List.range 16).foldl (fun s m =>
    if s.ioBit (Reg.MEAS_CFG_EN (128 + m)) then
      (s.setCh (128 + m) (s.ch (128 + m)).restart).setValid (128 + m) false
    else s) s

/-! ## The boundary (R184, R188, R190, R196) -/

/-- The freeze detector of a channel at a boundary, on snapshot value `y` (R196). -/
def State.freeze (s : State) (i : Nat) (y : Int) (ok : Bool) : State :=
  let x := s.ch i
  let n := s.io (Reg.MEAS_FREEZE_FREEZE_COUNT i)
  if n = 0 then s.setCh i { x with frozen := false }
  else if !ok then s
  else
    let start := s.setCh i { x with frz := some (y, y, 0), frozen := false }
    match x.frz with
    | none => start
    | some (hi, lo, cnt) =>
      if (s.io (Reg.MEAS_FREEZE_FREEZE_BAND i) : Int) ≤ max hi y - min lo y then start
      else
        let c := min (cnt + 1) n
        let t := s.setCh i { x with frz := some (max hi y, min lo y, c), frozen := x.frozen || decide (c = n) }
        if c = n && !x.frozen then t.measFlag (Reg.MEAS_FLAG_FROZEN i) i else t

/-- AT_LIMIT says whether the active TRIM stands at a bound (R188, log entry 161). -/
def State.showLimit (s : State) (i : Nat) : State :=
  let tr := s.ioInt (Reg.MEAS_TRIM_TRIM i)
  s.setIo (Reg.MEAS_TRIM_AT_LIMIT i) (b2n (tr = 10485 ∨ tr = -10485))

/-- Channel `i` at boundary `k`: its snapshot, the freeze detector, the temperature for the outputs to come, and a
calibration after 10 K (R184, R185, R188, R190, R196). Before the first output AGE and STALE are 0 (log entry 162). -/
def State.measBoundary (s : State) (i : Nat) : State :=
  let s := s.showLimit i
  if !s.ioBit (Reg.MEAS_CFG_EN i) then s else
  let x := s.ch i
  let y := s.ioInt (Reg.MEAS_VAL_Y i)
  let valid := s.ioBit (Reg.MEAS_FLAG_VALID i)
  let stale := x.seen && x.taken
  let s := (s.setCh i { x with taken := true }).freeze i y (valid && !stale)
  let fl := b2n stale * 128 + b2n (s.ch i).frozen * 64 + b2n x.opened * 32 + b2n x.yOvl * 16 + b2n x.ySat * 8
    + b2n x.ySubst * 4 + b2n x.calHeld * 2 + b2n valid
  let s := (s.setIoInt (Reg.MEAS_SNAP0_Y i) y).setIo (Reg.MEAS_SNAP1_FLAGS i) fl
  let s := s.setIo (Reg.MEAS_SNAP1_AGE i) (if x.seen then min 0xFFFF (s.tb.ticks - x.yTick) else 0)
  let s := if isRemote i then s.setIo (Reg.MEAS_SNAP1_GU_STATUS i) (s.io (Reg.MEAS_FLAG_GU_STATUS i)) else s
  let t := s.measTemp i
  let x := s.ch i
  let s := s.setCh i { x with temp := some t }
  match x.calTemp with
  | some c => if 2560 < (t - c).natAbs then s.calRequest i else s
  | none => s

/-- The snapshot of period `k` (R190). -/
def State.snapshot (s : State) (k : Nat) : State :=
  (((List.range 144).foldl State.measBoundary s).setIo Reg.MEAS_SNAP_K_K k).draw 1

end Sys2Proof.Machine
end

