-- ==== Sys2Proof/Machine/BalOps.lean ====
section
/-! DEFINITION. Shared operations of the ladder engines and the health task: eligibility, keys, selection, hysteresis,
merge-select, held Cells, and the records of capacitor health (R252 to R282). -/

namespace Sys2Proof.Machine

def State.balCh' (s : State) (d : Die) (n : Nat) : BalCh := tabGet {} s.balCh (128 * d.toNat + n)
def State.setBalCh (s : State) (d : Die) (n : Nat) (x : BalCh) : State :=
  { s with balCh := tabSet {} s.balCh (128 * d.toNat + n) x }
def State.cellBal (s : State) (d : Die) : BalCell := tabGet {} s.balCell d.toNat
def State.setCellBal (s : State) (d : Die) (x : BalCell) : State := { s with balCell := tabSet {} s.balCell d.toNat x }
def State.arm (s : State) (d : Die) (a : Nat) : HubArm := tabGet {} s.hubArm (8 * d.toNat + a)
def State.setArm (s : State) (d : Die) (a : Nat) (x : HubArm) : State :=
  { s with hubArm := tabSet {} s.hubArm (8 * d.toNat + a) x }
def State.hubMember (s : State) (d : Die) (node : Nat) : Option HubMem := tabGet none s.hubMem (0x1000 * d.toNat + node)
def State.setHubMember (s : State) (d : Die) (node : Nat) (x : Option HubMem) : State :=
  { s with hubMem := tabSet none s.hubMem (0x1000 * d.toNat + node) x }

/-- The ladder engine of die `d` works: in use, and its die in service. -/
def State.balOn (s : State) (d : Die) : Bool := s.bit d Reg.BAL_CFG_EN && s.inService d

/-- Channels in use, ascending (R16). -/
def State.channels (s : State) : List Nat := (List.range 128).filter s.inUse

/-- A flag of the ladder engine sets and event 248 is posted (R282, R148). -/
def State.balFlag (s : State) (d : Die) (f : Field) : State := (s.raise d f).post 248

/-- The command codes of R283. -/
def cmdOff : Nat := 0
def cmdNot : Nat := 1
def cmdIns (pol : Bool) : Nat := 2 + b2n pol

/-- A command inserts the sub-module. -/
def inserted (c : Nat) : Bool := 2 ≤ c

/-! ## Eligibility (R254, R255) -/

/-- The automatic causes of channel `n` that hold at this boundary, in rising code. -/
def State.autoCauses (s : State) (n : Nat) : List Nat :=
  let fl := s.io (Reg.MEAS_SNAP1_FLAGS n)
  let gu := s.io (Reg.MEAS_SNAP1_GU_STATUS n)
  (if !bitOf fl 0 || bitOf fl 7 then [1] else []) ++ (if gu = 1 then [2] else []) ++ (if gu = 2 then [3] else [])
    ++ (if gu = 3 then [4] else []) ++ (if s.chAsserted n then [5] else [])

/-- The counts of a cause's free boundaries: 64 to go while it holds, one less at each boundary free of it. -/
def leftNext (holds : List Nat) (left : Tab Nat) : Tab Nat :=
  [1, 2, 3, 4, 5].foldl (fun t c => tabSet 0 t c (if c ∈ holds then 64 else tabGet 0 left c - 1)) left

/-- The highest automatic cause not yet cleared, 0 where none. -/
def autoCode (left : Tab Nat) : Nat :=
  [1, 2, 3, 4, 5].foldl (fun m c => if 0 < tabGet 0 left c then c else m) 0

/-- The decision of boundary k for channel `n`: causes, a reinstatement request, which a cause that arises at this boundary
refuses, and the code (R254, R255, R274). An automatic cause that held at the boundary before has all its 64 to go. -/
def State.judge (s : State) (d : Die) (n : Nat) : State :=
  let x := s.balCh' d n
  let gu := s.io (Reg.MEAS_SNAP1_GU_STATUS n)
  let dash := s.ioBit (Reg.MEAS_FLAG_DASH n)
  let fault : Bool := gu = 4 || dash
  let byp : Bool := gu = 5
  let holds := s.autoCauses n
  let arises := holds.any (fun c => tabGet 0 x.left c ≠ 64)
  let ok : Bool := (gu = 0 || gu = 6) && !dash && !(fault || byp || arises)
  let left := leftNext holds x.left
  let y : BalCh := { x with left := left, fault := fault || (x.fault && !(x.reinst && ok)),
                            bypassed := byp || (x.bypassed && !(x.reinst && ok)), reinst := false }
  let s := s.setBalCh d n y
  let s := if x.reinst && !ok then s.balFlag d Reg.BAL_STAT_REINST_REFUSED else s
  s.wr d (Reg.BAL_CH_EXCL n) (if y.bypassed then 7 else if y.fault then 6 else autoCode left)

/-- The command of a channel excluded with a code (R254, R314). -/
def State.exclCmd (s : State) (n code : Nat) : Nat :=
  if code = 1 ∨ code = 3 ∨ code = 4 then cmdNot
  else if code = 5 then s.io (Reg.TRIP_CH_CFG_ACTION n)
  else cmdOff

/-! ## Keys and the ladder (R256 to R259) -/

/-- The key of an eligible channel (R256). -/
def State.balKey (s : State) (d : Die) (n : Nat) : Nat :=
  let v := s.ioInt (Reg.MEAS_SNAP0_Y n)
  let z := (v - s.rdInt d Reg.BAL_KEY_BASE) / 2 ^ s.rd d Reg.BAL_KEY_SHIFT
  let k0 := (clamp 0 0xFFFE z).toNat
  let k0 := if s.bit d Reg.BAL_STAT_SIGMA then 0xFFFE - k0 else k0
  let ins := s.bit d (Reg.BAL_CH_INS n)
  let k0 := if ins then k0 - s.rd d (Reg.BAL_CH_H n) else k0
  if s.bit d (Reg.BAL_CH_PIN n) then (if ins then 0 else 0xFFFE) else k0

/-- An entry of a ladder goes behind every entry of its key or a lower one. -/
def ladderInsert (e : Nat × Nat) : List (Nat × Nat) → List (Nat × Nat)
  | [] => [e]
  | x :: xs => if e.1 < x.1 then e :: x :: xs else x :: ladderInsert e xs

/-- Channels with an EXCL of 0. -/
def State.eligible (s : State) (d : Die) : List Nat := s.channels.filter (fun n => s.rd d (Reg.BAL_CH_EXCL n) = 0)

/-- The ladder of the present period: eligible keys ascending, equal keys in channel order (R258). -/
def State.sortLadder (s : State) (d : Die) : List (Nat × Nat) :=
  (s.eligible d).foldl (fun l n => ladderInsert (s.balKey d n, n) l) []

/-- Sum of the snapshot values of some channels. -/
def State.sumY (s : State) (ns : List Nat) : Int := ns.foldl (fun z n => z + s.ioInt (Reg.MEAS_SNAP0_Y n)) 0

/-- The ladder frame's payload (R259). -/
def State.ladderPayload (s : State) (d : Die) (lad : List (Nat × Nat)) : List Byte :=
  let insd := s.channels.filter (fun n => inserted (s.io (Reg.GEN_CMD_ACT n)))
  let pol := insd.any (fun n => s.io (Reg.GEN_CMD_ACT n) = 3)
  let keys := lad.map (·.1)
  bytesOf 4 (s.io Reg.TB_PERIOD_NUM_K) ++ bytesOf 1 lad.length ++ bytesOf 1 insd.length
    ++ bytesOf 1 (b2n (s.cellBal d).held + 2 * b2n pol) ++ bytesOf 1 0
    ++ bytesOf 4 (unsigned 32 (s.sumY (s.eligible d)))
    ++ bytesOf 4 (unsigned 32 (s.sumY (insd.filter (fun n => bitOf (s.io (Reg.MEAS_SNAP1_FLAGS n)) 0))))
    ++ (keys ++ List.replicate (128 - keys.length) 0xFFFF).flatMap (bytesOf 2)

/-- A TC frame joins the queue of its link: the worker's leaves, the passive's is only compared (R374, R455). -/
def State.queueTc (s : State) (d : Die) (l : Nat) (f : OutFrame) : State :=
  let x := s.link l
  if s.mayWrite d then s.setLink l { x with tcQ := x.tcQ ++ [f] }
  else if s.lost d || s.isWorker d then s
  else s.setLink l { x with tcP := x.tcP ++ [f] }

/-- What `s` came to, `t`, where its TC frames cross the FIFO into the I/O die: found full by an internal fault, it loses them, and event
255 is posted (R60). -/
def tcFifo (full : Bool) (s t : State) : State :=
  if full && s.links != t.links then { t with links := s.links }.post 255 else t

/-! ## Selection (R266, R267, R271) -/

/-- The commands of a ladder against a threshold key and tie budget (R266). -/
def selectCmds (k : Nat) (pol : Bool) : List (Nat × Nat) → Nat → List (Nat × Nat)
  | [], _ => []
  | (key, n) :: es, tie =>
    if key < k then (n, cmdIns pol) :: selectCmds k pol es tie
    else if key = k ∧ 0 < tie then (n, cmdIns pol) :: selectCmds k pol es (tie - 1)
    else (n, cmdNot) :: selectCmds k pol es tie

/-- The commands of a period: selected channels, then excluded ones. -/
def State.cellCmds (s : State) (d : Die) (k : Nat) (pol : Bool) (tie : Nat) : List (Nat × Nat) :=
  selectCmds k pol (s.cellBal d).ladder tie
    ++ (s.channels.filter (fun n => s.rd d (Reg.BAL_CH_EXCL n) ≠ 0)).map
        (fun n => (n, s.exclCmd n (s.rd d (Reg.BAL_CH_EXCL n))))

/-- The Cell of die `d` takes a threshold frame that has passed the frame check (R257, R266, R267, R271, R274). -/
def State.cellThreshold (s : State) (d : Die) (p : ThresholdPayload) : State :=
  let x := s.cellBal d
  let k := p.k.toNat
  let fl := p.flags.toNat
  let hold := bitOf fl 2
  if !s.balOn d || s.isHub || !s.tb.released || x.applied then s
  else if p.period.toNat ≠ s.io Reg.TB_PERIOD_NUM_K then s
  else if s.tb.bTick + s.rd d Reg.BAL_TSEL_T_SEL ≤ s.tb.ticks then s
  else if !hold && (x.ladder.filter (fun e => e.1 = k)).length < p.tie.toNat then s.raise d Reg.BAL_STAT_THR_BAD
  else
    let s := s.setCellBal d { x with applied := true, imean := some (signed 32 p.imean.toNat) }
    let s := (s.wr d Reg.BAL_STAT_SIGMA (b2n (bitOf fl 0))).wr d Reg.BAL_STAT_POL (b2n (bitOf fl 1))
    let s := s.wr d Reg.BAL_STAT_MISS_RUN 0
    let s := ((s.wr d Reg.BAL_THR_K k).wr d Reg.BAL_THR_TIE p.tie.toNat).wr d Reg.BAL_THR_FLAGS fl
    if hold then s.raise d Reg.BAL_STAT_HOLD_RX
    else
      let s := (s.cellCmds d k (bitOf fl 1) p.tie.toNat).foldl (fun s e => s.writeShIo d (Reg.GEN_CMD_CMD e.1) e.2) s
      s.commitIo d setCmd

/-! ## Hysteresis (R268 to R270) -/

/-- A command as R268 compares it: insertion and polarity. -/
def balSide (c : Nat) : Nat := if inserted c then c else 0

/-- The end of a window for channel `n` (R270). -/
def State.windowEnd (s : State) (d : Die) (n : Nat) : State :=
  let c := s.rd d (Reg.BAL_CH_CHANGES n)
  let h := s.rd d (Reg.BAL_CH_H n)
  let ceil := s.rd d Reg.BAL_HYST1_CEIL
  let step := s.rd d Reg.BAL_HYST1_STEP
  let s := if ceil ≤ c then
      (if h < s.rd d Reg.BAL_HYST0_H_MAX then s.wr d (Reg.BAL_CH_H n) (min (h + step) (s.rd d Reg.BAL_HYST0_H_MAX))
       else s.balFlag d Reg.BAL_STAT_HYST_LIM)
    else if c < ceil / 2 then s.wr d (Reg.BAL_CH_H n) (max (h - step) (s.rd d Reg.BAL_HYST0_H_MIN))
    else s
  (s.wr d (Reg.BAL_CH_CHANGES n) 0).wr d (Reg.BAL_CH_PIN n) 0

/-- The change count, pin and INS of channel `n` at a boundary whose command is in force (R268, R269, R274). -/
def State.countChange (s : State) (d : Die) (n : Nat) : State :=
  let act := s.io (Reg.GEN_CMD_ACT n)
  let x := s.balCh' d n
  let s := (s.wr d (Reg.BAL_CH_INS n) (b2n (inserted act))).setBalCh d n { x with cmd := act }
  if balSide x.cmd = balSide act then s
  else
    let s := if s.bit d (Reg.BAL_CH_PIN n) then s.balFlag d Reg.BAL_STAT_CEIL_FORCED else s
    let s := s.stick d (Reg.BAL_CH_CHANGES n)
    if s.rd d Reg.BAL_HYST1_CEIL ≤ s.rd d (Reg.BAL_CH_CHANGES n) then s.wr d (Reg.BAL_CH_PIN n) 1 else s

/-! ## Health records (R276 to R279) -/

/-- Address of channel `n`'s health record in region B SRAM. -/
def healthAddr (n : Nat) : Nat := 0x201FF800 + 16 * n

/-- A field of a health record. -/
def State.hlt (s : State) (d : Die) (n off len : Nat) : Nat := natOf (s.ramBytes d.toNat (healthAddr n + off) len)

/-- A field of a health record written. -/
def State.setHlt (s : State) (d : Die) (n off len v : Nat) : State :=
  s.setRamBytes d.toNat (healthAddr n + off) (bytesOf len v)

/-- A bit of a health record's FLAGS set or cleared. -/
def State.hltFlag (s : State) (d : Die) (n b : Nat) (on : Bool) : State :=
  s.setHlt d n 0xE 1 (withBit (s.hlt d n 0xE 1) b on)

/-- A capacitance or ESR sample enters the filter of R276: `off` is the estimate's place, `cnt` its sample count's. -/
def State.hltSample (s : State) (d : Die) (n off cnt : Nat) (z : Int) : State :=
  let nc := s.hlt d n cnt 2
  let c := signed 32 (s.hlt d n off 4)
  if nc = 0 then (s.setHlt d n off 4 (unsigned 32 z)).setHlt d n cnt 2 1
  else if 16 ≤ nc ∧ (2 * z < c ∨ 2 * c < z) then s.setHlt d n 0xC 2 (min 0xFFFF (s.hlt d n 0xC 2 + 1))
  else
    let c' := c + (z - c).tdiv (2 ^ s.rd d Reg.BAL_HLT_CFG_ALPHA)
    (s.setHlt d n off 4 (unsigned 32 c')).setHlt d n cnt 2 (min 0xFFFF (nc + 1))

/-- The capacitance sample of an interval that ended with value `y` (R276). -/
def State.capSample (s : State) (d : Die) (n : Nat) (ys : Int) (len : Nat) (sum y : Int) (ok : Bool) : State :=
  let dy := y - ys
  if ok && decide (len ≤ 4096) && decide (s.rd d Reg.BAL_HLT_CFG_DV_MIN ≤ dy.natAbs) && decide (dy ≠ 0) then
    s.hltSample d n 0x0 0x8 ((sum * s.rd d Reg.BAL_HLT_KC_KC).tdiv (dy * 2 ^ 16))
  else s

/-- The decimator group delay of channel `n` exceeds half the period, in ns (R181, R277). -/
def State.slowDecimator (s : State) (n : Nat) : Bool :=
  decide (2 * s.io Reg.TB_PERIOD_CP < 2 * (25 * (3 * 2 ^ s.io (Reg.MEAS_CFG_RATIO n) - 3)))

/-- ESR_s in µΩ of R277 with FS_I / FS_cap as KC gives it: q / C_n truncated, then its difference from ΔV divided by i and
truncated. `dy` is Y(s + 1) − Y(s), `c` the estimate C_n in nF and `cp` the period in ns (log entry 27). -/
def esrOf (dy im kc cp c : Int) : Int := (cp * 10 ^ 6 * (dy * 2 ^ 16 - (kc * im).tdiv c)).tdiv (kc * im)

/-- The ESR sample of a channel that became inserted two boundaries ago, where Y was `y0` and a boundary later `y1`; its value is
free where a divisor is 0 (log entry 27). -/
def State.esrSample (s : State) (d : Die) (n : Nat) (im y0 y1 : Int) : State :=
  if s.slowDecimator n then s.hltFlag d n 3 true
  else if s.rd d Reg.BAL_HLT_IMIN_I_MIN ≤ im.natAbs then
    let kc := s.rd d Reg.BAL_HLT_KC_KC
    let c := signed 32 (s.hlt d n 0x0 4)
    if kc = 0 ∨ im = 0 ∨ c = 0 then (s.draw 1).hltSample d n 0x4 0xA (signed 32 (Config.free s.freeCtr))
    else s.hltSample d n 0x4 0xA (esrOf (y1 - y0) im kc (2 * s.io Reg.TB_PERIOD_CP) c)
  else s

/-- One period of channel `n` for the health task, two periods after it: `im` is the IMEAN that stands for it. -/
def State.healthStep (s : State) (d : Die) (n : Nat) (im : Option Int) : State :=
  let x := s.balCh' d n
  match x.hist with
  | [o, p, q] =>
    let ins := inserted p.2.2
    let was := inserted q.2.2
    let s := match ins, was, x.span with
      | false, true, some (ys, ok, len, sum) => s.capSample d n ys len sum p.1 (ok && p.2.1)
      | _, _, _ => s
    let span : Option (Int × Bool × Nat × Int) :=
      if !ins then none
      else
        let b := if was then x.span else some (p.1, p.2.1, 0, 0)
        b.map (fun z => (z.1, z.2.1 && im.isSome, z.2.2.1 + 1,
          z.2.2.2 + (if p.2.2 = 3 then - im.getD 0 else im.getD 0)))
    let s := match ins, was, im with
      | true, false, some i => s.esrSample d n i p.1 o.1
      | _, _, _ => s
    s.setBalCh d n { s.balCh' d n with span := span }
  | _ => s

/-- The health task runs: in a Cell whose engine is in use, until the package sheds its class (R475). -/
def State.healthOn (s : State) (d : Die) : Bool :=
  s.balOn d && !s.isHub && decide (s.io Reg.RED_GRADE_GRADE < 3)

/-- Channel `n` at a boundary for the health task: the period before the last is evaluated, then the boundary's values
join the history. -/
def State.healthBoundary (s : State) (d : Die) (im : Option Int) (n : Nat) : State :=
  let s := s.healthStep d n im
  let x := s.balCh' d n
  let fl := s.io (Reg.MEAS_SNAP1_FLAGS n)
  let e := (s.ioInt (Reg.MEAS_SNAP0_Y n), bitOf fl 0 && !bitOf fl 2, s.io (Reg.GEN_CMD_ACT n))
  let s := s.setBalCh d n { x with hist := (e :: x.hist).take 3 }
  if s.io (Reg.MEAS_SNAP1_GU_STATUS n) = 6 then s.hltFlag d n 2 true else s

/-! ## The Cell at a boundary -/

/-- Boundary `k` of a Cell's ladder engine: windows, changes, eligibility and health (R254, R268, R270, R276). -/
def State.cellBoundary (s : State) (d : Die) (k : Nat) : State :=
  if !s.balOn d || s.isHub then s else
  let x := s.cellBal d
  let win : Bool := k % 2 ^ s.rd d Reg.BAL_HYST1_WIN_LOG2 = 0
  let s := if win && s.tb.released then s.channels.foldl (fun s n => s.windowEnd d n) s else s
  let s := s.channels.foldl (fun s n => s.countChange d n) s
  let s := s.channels.foldl (fun s n => s.judge d n) s
  let s := if s.healthOn d then s.channels.foldl (fun s n => s.healthBoundary d x.imean n) s else s
  s.setCellBal d { x with ladder := [], built := false, applied := false, held := x.heldNext, heldNext := false,
                          imean := none }

/-- Gate release: every h is H_MIN, every count 0, sigma 0; a Hub's err, s and i_prev start afresh (R257, R261, R264,
R270). -/
def State.balRelease (s : State) (d : Die) : State :=
  let s := (List.range 128).foldl (fun s n =>
    ((s.wr d (Reg.BAL_CH_H n) (s.rd d Reg.BAL_HYST0_H_MIN)).wr d (Reg.BAL_CH_CHANGES n) 0).wr d (Reg.BAL_CH_PIN n) 0) s
  let s := s.wr d Reg.BAL_STAT_SIGMA 0
  (List.range 6).foldl (fun s a => (s.setArm d a {}).wr d (Reg.BAL_ARM_Q_ERR a) 0) s

/-! ## The Hub: quantiser and merge-select (R260 to R265, R272, R273) -/

/-- Entries of a sorted ladder not above `x`, below `x`, and equal to `x`. -/
def countLe (l : List Nat) (x : Nat) : Nat := (l.filter (fun y => decide (y ≤ x))).length
def countLt (l : List Nat) (x : Nat) : Nat := (l.filter (fun y => decide (y < x))).length
def countEq (l : List Nat) (x : Nat) : Nat := (l.filter (fun y => decide (y = x))).length

/-- The binary search of R263 over `fuel` halvings: the least key at or below which `m` entries lie. -/
def selectKey (ls : List (List Nat)) (m : Nat) : (fuel lo hi : Nat) → Nat
  | 0, lo, _ => lo
  | f + 1, lo, hi =>
    if lo < hi then
      let mid := (lo + hi) / 2
      if m ≤ (ls.map (fun l => countLe l mid)).sum then selectKey ls m f lo mid else selectKey ls m f (mid + 1) hi
    else lo

/-- Tie budgets in slot order (R263). -/
def tieBudgets (k : Nat) : List (List Nat) → Nat → List Nat
  | [], _ => []
  | l :: ls, r => min (countEq l k) r :: tieBudgets k ls (r - min (countEq l k) r)

/-- Threshold key and tie budgets of `m` selected entries over ladders in slot order (R263). -/
def mergeSelect (ls : List (List Nat)) (m : Nat) : Nat × List Nat :=
  if m = 0 then (0, ls.map (fun _ => 0))
  else
    let k := selectKey ls m 17 0 0xFFFE
    (k, tieBudgets k ls (m - (ls.map (fun l => countLt l k)).sum))

/-- The quantiser of R261: insertion count, clamp and err. -/
def quantise (v ratio e sum err hc nMin nMax : Int) (fb : Bool) : Int × Bool × Int :=
  let src : Bool := e = 0 || sum ≤ 0
  let nq := if src then 0 else v * ratio * e / (sum * 2 ^ 8)
  let acc := nq + err
  let n0 := (acc + 2 ^ 15) / 2 ^ 16
  let n := min (max n0 nMin) nMax
  let n := min (max n (if fb then hc - e else hc)) (hc + e)
  let c : Bool := n ≠ n0 || src
  (n, c, if c then 0 else acc - n * 2 ^ 16)

/-- Members of arm `a` for period `k`, ascending node IDs (R253, R273). -/
def State.armMembers (s : State) (d : Die) (a k : Nat) : List (Nat × HubMem) :=
  (s.hubMem.filterMap (fun e => match e.2 with
    | some m => if e.1 / 0x1000 = d.toNat ∧ m.arm = a ∧ (m.gone = none ∨ m.gone = some k) ∧ (m.from_ = k ∨ later k m.from_)
        then some (e.1 % 0x1000, m) else none
    | none => none))

/-- The link that leads to a node (R362). -/
def State.routeTo (s : State) (node : Nat) : Option Nat :=
  ((List.range 32).find? (fun j => s.io (Reg.NOL_ROUTE_VALID j) = 1 && s.io (Reg.NOL_ROUTE_NODE j) = node)).map
    (fun j => s.io (Reg.NOL_ROUTE_LINK j))

/-- THRESHOLD payload (R264). -/
def thresholdPayload (k key tie flags : Nat) (imean : Int) : List Byte :=
  bytesOf 4 k ++ bytesOf 2 key ++ bytesOf 1 tie ++ bytesOf 1 flags ++ bytesOf 4 (unsigned 32 imean)

/-- A threshold frame queued to its slot. -/
def State.sendThreshold (s : State) (d : Die) (node : Nat) (payload : List Byte) : State :=
  match s.routeTo node with
  | none => s
  | some l => s.queueTc d l (s.ownFrame typeThreshold false node payload)

/-- A member leaves (R386): its entry, its place in both engines from the next Q_START, and event 200. -/
def State.removeMember (s : State) (j : Nat) : State :=
  if s.io (Reg.NOL_MEMBER0_VALID j) = 0 then s else
  let node := s.io (Reg.NOL_MEMBER0_NODE j)

  let s := (s.setHubMember .d0 node none).setHubMember .d1 node none
  let s := (((s.setIo (Reg.NOL_MEMBER0_VALID j) 0).setIo (Reg.NOL_MEMBER0_ARM j) 0).setIo (Reg.NOL_MEMBER0_CH j) 0).setIo
    (Reg.NOL_MEMBER0_NODE j) 0
  let s := (s.setIo (Reg.NOL_MEMBER1_UID j) 0).setIo (Reg.NOL_MEMBER2_UID j) 0
  let s := s.setIo Reg.NOL_MEMB_STAT_MEMBERS (s.io Reg.NOL_MEMB_STAT_MEMBERS - 1)
  { s with nol := { s.nol with memberFrom := tabErase s.nol.memberFrom j, healthPer := tabErase s.nol.healthPer j } }.post 200

/-- The member entry of a node. -/
def State.memberOf (s : State) (node : Nat) : Option Nat :=
  (List.range 32).find? (fun j => s.io (Reg.NOL_MEMBER0_VALID j) = 1 && s.io (Reg.NOL_MEMBER0_NODE j) = node)

/-- What an engine keeps of a member after period `k`: nothing of one that left in that period. -/
def HubMem.unlessGone (m : HubMem) (k : Nat) : Option HubMem := if m.gone = some k then none else some m

/-- A member that has left by LADDER_MISS in period `k`, in the other die's engine: gone where that engine has taken its counts of the
period, else until it has (R272). -/
def HubMem.leaves (m : HubMem) (k : Nat) : Option HubMem :=
  if m.expect.any (fun x => x.1 = (k + 1) % 2 ^ 32) then none else some { m with gone := some k }

/-- A merged Cell gets its threshold, and what the Hub keeps of it (R264, R272). -/
def State.mergedCell (s : State) (d : Die) (a k key imu sigma pol : Nat) (im : Int)
    (e : (Nat × HubMem) × List Nat × Nat) : State :=
  let c : Int := (countLt e.2.1 key + e.2.2 : Nat)
  let c := if pol = 1 then -c else c
  let keep := s.rd d (Reg.BAL_ARM_QS_LMISS_LIMIT a) + 1
  let m := e.1.2
  let m := { m with hc := c, hcAt := s.tb.ticks, held := false, miss := 0, expect := ((imu, c) :: m.expect).take keep }
  let m := { m with lads := m.lads.filter (fun x => later x.period k) }
  (s.setHubMember d e.1.1 (m.unlessGone k)).sendThreshold d e.1.1
    (thresholdPayload k key e.2.2 (sigma + 2 * pol) im)

/-- A Cell whose ladder is missing is held, and gets a HOLD frame (R264, R272). -/
def State.heldCell (s : State) (d : Die) (a k imu sigma pol : Nat) (im : Int) (e : Nat × HubMem) : State :=
  let lim := s.rd d (Reg.BAL_ARM_QS_LMISS_LIMIT a)
  let m := e.2
  let late : Bool := lim ≤ m.miss + 1
  let m := { m with hcAt := s.tb.ticks, held := true, miss := m.miss + 1, expect := ((imu, m.hc) :: m.expect).take (lim + 1) }
  let m := { m with lads := m.lads.filter (fun x => later x.period k) }
  let s := s.setHubMember d e.1 (m.unlessGone k)
  let s := (s.sendThreshold d e.1 (thresholdPayload k 0 0 (sigma + 2 * pol + 4) im)).raise d (Reg.BAL_ARM_STAT_HOLD_SENT a)
  if late then
    let s := s.raise d (Reg.BAL_ARM_STAT_LADDER_MISS a)
    if s.mayWrite d then
      match s.memberOf e.1 with
      | some j =>
        let keep := s.hubMember d.other e.1
        let t := s.removeMember j
        t.setHubMember d.other e.1 (keep.bind (fun m => m.leaves k))
      | none => s
    else s
  else s

/-- A ladder reaches the Hub's engine of die `d` (R259, R260, R272, R384). -/
def State.hubLadder (s : State) (d : Die) (node : Nat) (p : LadderPayload) : State :=
  match (if s.balOn d then s.hubMember d node else none) with
  | none => s
  | some m =>
    let k := p.period.toNat
    let keys := p.keys.map BitVec.toNat
    let e := p.e.toNat
    let live := keys.take e
    let bad : Bool := 128 < e || (keys.drop e).any (fun x => x ≠ 0xFFFF) || live.any (fun x => x = 0xFFFF)
      || (live.zip live.tail).any (fun x => decide (x.2 < x.1)) || 4 ≤ p.flags.toNat || 128 < p.ins.toNat
      || p.reserved ≠ 0
    if later m.from_ k then s
    else if bad then s.raise d (Reg.BAL_ARM_STAT_LADDER_BAD m.arm)
    else
      let c : Int := p.ins.toNat
      let c := if bitOf p.flags.toNat 1 then -c else c
      let slip : Bool := m.held && m.expect.any (fun x => x.1 = k && x.2 ≠ c)
      let s := if slip then s.balFlag d (Reg.BAL_ARM_STAT_COUNT_SLIP m.arm) else s
      let m := if slip then { m with hc := c, hcAt := s.tb.ticks, expect := m.expect.map (fun x => if x.1 = k then (k, c) else x) } else m
      let cur := s.io Reg.TB_PERIOD_NUM_K
      let late : Bool := later cur k
        || (k = cur && decide (s.tb.bTick + s.rd d (Reg.BAL_ARM_QS_Q_START m.arm) ≤ s.tb.ticks))
      let m := if late then m
        else { m with lads := ⟨k, live, signed 32 p.sumAll.toNat⟩ :: m.lads.filter (fun x => x.period ≠ k) }
      s.setHubMember d node (some m)

end Sys2Proof.Machine
end

