-- ==== Sys2Proof/Machine/Bal.lean ====
section
/-! DEFINITION. The commands of balancing and capacitor health (R252 to R282). -/

namespace Sys2Proof.Machine

/-- LADDER_BUILD (R258): T_SORT ticks after the boundary a Cell's engine sorts its keys and places the ladder frame in
the slot buffer of its UP link; after its controlled stop has begun its ladders are missing (R23). -/
def execLadderBuild (d : Die) (full : Bool) (s : State) : Result :=
  if !s.balOn d || s.isHub || (s.cellBal d).built || s.red.stopAt.isSome
      || !s.inPeriod (s.rd d Reg.BAL_TSORT_T_SORT) then .next s
  else
    let s := s.runTo (s.tb.bTick + s.rd d Reg.BAL_TSORT_T_SORT)
    let lad := s.sortLadder d
    let s := (s.setCellBal d { s.cellBal d with ladder := lad, built := true }).wr d Reg.BAL_STAT_E lad.length
    match s.linksOf dirUp with
    | l :: _ => .next (tcFifo full s <| s.queueTc d l (s.ownFrame typeLadder false (s.sys Reg.SYS_NODE_PARENT) (s.ladderPayload d lad)))
    | [] => .next s

/-- A write of 1 to BAL_CH.REINSTATE stands for the next boundary (R255). -/
def State.reinstateWrite (s : State) (d : Die) (n : Nat) : State := s.setBalCh d n { s.balCh' d n with reinst := true }

/-- BAL_REINSTATE (R255). -/
def execBalReinstate (d : Die) (n : Fin 128) (s : State) : Result := .next (s.reinstateWrite d n)

/-- LEVEL_QUANTISER (R261 to R265, R272, R273): at Q_START the Hub's engine forms the arm's counts, merges the ladders that
came in time, and queues a threshold frame to every member. -/
def execLevelQuantiser (d : Die) (a : Fin 6) (full : Bool) (s : State) : Result :=
  if !s.balOn d || !s.isHub || s.rd d (Reg.BAL_ARM_CFG_EN a) = 0 || !s.inPeriod (s.rd d (Reg.BAL_ARM_QS_Q_START a)) then
    .next s
  else
    let s := s.runTo (s.tb.bTick + s.rd d (Reg.BAL_ARM_QS_Q_START a))
    let k := s.io Reg.TB_PERIOD_NUM_K
    let mems := s.armMembers d a k
    let merged := mems.filter (fun e => e.2.lads.any (fun x => x.period = k))
    let held := mems.filter (fun e => !e.2.lads.any (fun x => x.period = k))
    let lads := merged.map (fun e => (e.2.lads.find? (fun x => x.period = k)).getD ⟨k, [], 0⟩)
    let e : Nat := (lads.map (fun x => x.keys.length)).sum
    let c := s.rd d (Reg.BAL_ARM_SRC_CLE a)
    let v := s.smInt d c (s.rd d (Reg.BAL_ARM_SRC_V_WORD a))
    let i := s.smInt d c (s.rd d (Reg.BAL_ARM_SRC_I_WORD a))
    let x := s.arm d a
    let hc := (held.map (fun e => e.2.hc)).sum
    let q := quantise v (s.rd d (Reg.BAL_ARM_RATIO_RATIO a)) e (lads.map (·.sumAll)).sum x.err hc
      (s.rdInt d (Reg.BAL_ARM_CFG_N_MIN a)) (s.rd d (Reg.BAL_ARM_CFG_N_MAX a)) (s.bit d (Reg.BAL_ARM_CFG_FB a))
    let m := q.1 - hc
    let pol : Bool := decide (m < 0)
    let sel := mergeSelect (lads.map (·.keys)) m.natAbs
    let band : Int := s.rd d (Reg.BAL_ARM_SIGN_SIGN_BAND a)
    let sg : Bool := if band < i then false else if i < -band then true else x.s
    let im := (x.iPrev.getD i + i) / 2
    let s := s.setArm d a ⟨s.tb.ticks, q.2.2, sg, some i⟩
    let s := if q.2.1 then s.balFlag d (Reg.BAL_ARM_STAT_Q_CLAMP a) else s
    let s := (s.wrInt d (Reg.BAL_ARM_Q_N a) q.1).wrInt d (Reg.BAL_ARM_Q_ERR a) q.2.2
    let s := (s.wr d (Reg.BAL_ARM_STAT_E_TOT a) e).wr d (Reg.BAL_ARM_STAT_CELLS a) merged.length
    let s := (s.wr d (Reg.BAL_ARM_K_K a) sel.1).wr d (Reg.BAL_ARM_K_M a) m.natAbs
    let sigma := b2n (sg != pol)
    let imu := (k + 1) % 2 ^ 32
    let t := (merged.zip ((lads.map (·.keys)).zip sel.2)).foldl
      (fun s e => s.mergedCell d a k sel.1 imu sigma (b2n pol) im e) s
    .next (tcFifo full s (held.foldl (fun s e => s.heldCell d a k imu sigma (b2n pol) im e) t))

/-- THRESHOLD_DEADLINE (R271): at T_SEL with no valid frame applied the Cell misses; at MISS_LIMIT misses in a row it
requests the trip of TRIP_MASK. -/
def execThresholdDeadline (d : Die) (s : State) : Result :=
  if !s.balOn d || s.isHub || !s.tb.released then .next s
  else
    let s := s.runTo (s.tb.bTick + s.rd d Reg.BAL_TSEL_T_SEL)
    if (s.cellBal d).applied then .next s
    else
      let s := (s.setCellBal d { s.cellBal d with heldNext := true }).balFlag d Reg.BAL_STAT_MISS
      let run := s.rd d Reg.BAL_STAT_MISS_RUN
      let s := s.stick d Reg.BAL_STAT_MISS_RUN
      if run < s.rd d Reg.BAL_CFG_MISS_LIMIT ∧ s.rd d Reg.BAL_CFG_MISS_LIMIT ≤ s.rd d Reg.BAL_STAT_MISS_RUN then
        let s := s.raise d Reg.BAL_STAT_MISS_LIM
        let m := BitVec.ofNat 16 (s.rd d Reg.BAL_CFG_TRIP_MASK)
        .next (if s.mayWrite d then { s with trip := { s.trip with fw := s.trip.fw ||| m } }.tripScan else s)
      else .next s

/-- Insertion into an ascending list of integers. -/
def intInsert (z : Int) : List Int → List Int
  | [] => [z]
  | x :: xs => if z < x then z :: x :: xs else x :: intInsert z xs

/-- The element floor((n - 1) / 2) of the sorted values (R278). -/
def median (zs : List Int) : Int := (zs.foldl (fun l z => intInsert z l) []).getD ((zs.length - 1) / 2) 0

/-- One channel's evaluation of one quantity: runs, flag and event (R278). -/
def State.judgeHealth (s : State) (d : Die) (n : Nat) (esr past : Bool) : State :=
  let runs := s.hlt d n 0xF 1
  let lo := runs % 16
  let hi := runs / 16
  let r := if past then min 15 ((if esr then hi else lo) + 1) else 0
  let s := s.setHlt d n 0xF 1 (if esr then lo + 16 * r else r + 16 * hi)
  let x := s.balCh' d n
  let calm := if past then 0 else min 3 ((if esr then x.calmR else x.calmC) + 1)
  let s := s.setBalCh d n (if esr then { x with calmR := calm } else { x with calmC := calm })
  let on := bitOf (s.hlt d n 0xE 1) (b2n esr)
  if !on && decide (3 ≤ r) then (s.hltFlag d n (b2n esr) true).balFlag d Reg.BAL_STAT_HEALTH
  else if on && decide (3 ≤ calm) then s.hltFlag d n (b2n esr) false
  else s

/-- The evaluation of one quantity over its population (R278). -/
def State.evalHealth (s : State) (d : Die) (esr : Bool) : State :=
  let off := if esr then 0x4 else 0x0
  let pop := s.channels.filter (fun n => decide (16 ≤ s.hlt d n (if esr then 0xA else 0x8) 2))
  if pop.length < 16 then s.raise d Reg.BAL_STAT_POP_SMALL
  else
    let xs := pop.map (fun n => signed 32 (s.hlt d n off 4))
    let med := median xs
    let mad := max (median (xs.map (fun x => ((x - med).natAbs : Int)))) (med / 256)
    let kk := s.rdInt d Reg.BAL_HLT_CFG_K_MAD
    (pop.zip xs).foldl (fun s e =>
      s.judgeHealth d e.1 esr (if esr then decide (kk * mad < 16 * (e.2 - med)) else decide (16 * (e.2 - med) < -(kk * mad)))) s

/-- HEALTH payload of some flagged channels (R367). -/
def State.healthPayload (s : State) (d : Die) (ns : List Nat) : List Byte :=
  bytesOf 1 (s.io Reg.RED_GRADE_GRADE) ++ bytesOf 1 ns.length ++ bytesOf 2 0
    ++ ns.flatMap (fun n => bytesOf 1 n ++ bytesOf 3 0 ++ s.ramBytes d.toNat (healthAddr n) 16)

/-- Flagged channels cut into frames of 24 entries; one frame, empty, where nothing is flagged. -/
def healthFrames (ns : List Nat) : (fuel : Nat) → List (List Nat)
  | 0 => [ns.take 24]
  | f + 1 => if ns.length ≤ 24 then [ns] else ns.take 24 :: healthFrames (ns.drop 24) f

/-- HEALTH_EVALUATION (R278, R367): both quantities are judged, and the worker's Cell queues its HEALTH frames. -/
def execHealthEvaluation (d : Die) (s : State) : Result :=
  if !s.healthOn d then .next s
  else
    let s := (s.evalHealth d false).evalHealth d true
    let flagged := s.channels.filter (fun n => s.hlt d n 0xE 1 % 4 ≠ 0)
    match s.mayWrite d, s.linksOf dirUp with
    | true, l :: _ =>
      let fs := (healthFrames flagged 5).map
        (fun ns => s.ownFrame typeHealth false (s.sys Reg.SYS_NODE_PARENT) (s.healthPayload d ns))
      .next (s.setLink l { s.link l with healthQ := (s.link l).healthQ ++ fs })
    | _, _ => .next s

end Sys2Proof.Machine
end

