-- ==== Sys2Proof/Machine/FlashOps.lean ====
section
/-! DEFINITION. What the device keeps in flash: records in rings, the power-fail journal and the slot states, the event
log, and the checks of an image (R76, R99, R102 to R106, R113 to R115, R479). -/

namespace Sys2Proof.Machine

/-- What `s` came to, `t`, where its writes cross the FIFO into the flash: found full by an internal fault, it loses them, and event 255
is posted (R60). -/
def flashFifo (full : Bool) (s t : State) : State :=
  if full && s.flash != t.flash then { t with flash := s.flash }.post 255 else t

/-! ## Rings of records -/

/-- The numbers of the places, `width` bytes each, of an area that hold a byte that is not erased, rising. -/
def placesOf (base size width : Nat) (cells : List Host.Cell) : List Nat :=
  cells.foldr (fun c acc =>
    if base ≤ c.1 ∧ c.1 < base + size then
      (let i := (c.1 - base) / width
       if acc.head? = some i then acc else i :: acc)
    else acc) []

/-- The bytes of place `i` of an area. -/
def State.placeBytes (s : State) (base width i : Nat) : List Byte := s.flashBytes (base + width * i) width

/-- The last word of a record is the CRC-32C of the bytes before it (R81). -/
def crcOk (bs : List Byte) : Bool := field bs (bs.length - 4) 4 = crc32c (bs.take (bs.length - 4))

/-- The places of an area whose record has a valid CRC, with its bytes. -/
def State.validPlaces (s : State) (base size width : Nat) : List (Nat × List Byte) :=
  ((placesOf base size width s.flash).map (fun i => (i, s.placeBytes base width i))).filter (fun p => crcOk p.2)

/-- The record whose word at `off` is latest by serial comparison (R68, R88). -/
def latest (off : Nat) : List (Nat × List Byte) → Option (Nat × List Byte)
  | [] => none
  | x :: xs =>
    match latest off xs with
    | none => some x
    | some y => if later (field x.2 off 4) (field y.2 off 4) then some x else some y

/-- The place after the latest record of a ring of `n` places, and one more than its counter; a ring with no valid record
starts at place 0 with 1 (log entry 31). -/
def nextPlace (off n : Nat) (l : Option (Nat × List Byte)) : Nat × Nat :=
  match l with
  | none => (0, 1)
  | some (i, bs) => ((i + 1) % n, (field bs off 4 + 1) % 2 ^ 32)

/-- Bytes of one erase sector. -/
def sectorBytes : Nat := 4096

/-- The first free place of a ring from place `i` up: one that is erased, or the first of a sector, which is erased before it
is written (R99). A place that a record with a failed CRC fills is passed over. -/
def State.freePlace (s : State) (base width n : Nat) : (fuel i : Nat) → Nat
  | 0, i => i
  | k + 1, i =>
    if width * i % sectorBytes = 0 || (s.placeBytes base width i).all (· = 0xFF) then i
    else State.freePlace s base width n k ((i + 1) % n)

/-- The next free place of a ring and the counter its record takes. -/
def State.nextFree (s : State) (base width off n : Nat) (l : Option (Nat × List Byte)) : Nat × Nat :=
  let p := nextPlace off n l
  (s.freePlace base width n (sectorBytes / width) p.1, p.2)

/-- A record written into a ring: where it opens a sector that still holds records, the sector is erased first (R99). -/
def State.writeRing (s : State) (base width i : Nat) (bs : List Byte) : State :=
  let s := if width * i % sectorBytes = 0 then s.eraseFlash (base + width * i) sectorBytes else s
  s.setFlashBytes (base + width * i) bs

/-! ## The power-fail journal (R113) and slot states (R106) -/

def journalBase : Nat := 0x80000

def jSlotState : Nat := 1
def jRewriteBegin : Nat := 2
def jSectorDone : Nat := 3
def jRewriteEnd : Nat := 4

/-- The valid entries of the journal, by place. -/
def State.journal (s : State) : List (Nat × List Byte) := s.validPlaces journalBase 0x10000 32

/-- A journal entry written; `data` is 20 bytes. -/
def State.journalAdd (s : State) (type arg : Nat) (data : List Byte) : State :=
  let p := s.nextFree journalBase 32 0 2048 (latest 0 s.journal)
  s.writeRing journalBase 32 p.1 (withCrc (bytesOf 4 p.2 ++ bytesOf 2 type ++ bytesOf 2 arg ++ data))

/-- The latest journal entry of a type that satisfies `ok`. -/
def State.journalLast (s : State) (type : Nat) (ok : List Byte → Bool) : Option (Nat × List Byte) :=
  latest 0 (s.journal.filter (fun p => field p.2 4 2 = type && ok p.2))

/-- State, attempt count and VERSION of a firmware slot: its latest SLOT_STATE entry; EMPTY where there is none (R106,
R113). -/
def State.slotEntry (s : State) (n : Nat) : Nat × Nat × Nat :=
  match s.journalLast jSlotState (fun bs => field bs 6 2 = n) with
  | none => (0, 0, 0)
  | some (_, bs) => (field bs 8 1, field bs 9 1, field bs 12 4)

def slotEmpty : Nat := 0
def slotStaged : Nat := 1
def slotTrial : Nat := 2
def slotActive : Nat := 3
def slotStandby : Nat := 4
def slotRetired : Nat := 5

/-- A field held by both control dies. -/
def State.wrBoth (s : State) (f : Field) (v : Nat) : State := (s.wr .d0 f v).wr .d1 f v

/-- The state, attempt count and VERSION of a slot written to the journal, which FW_SLOT_STAT then shows (R106, R119). -/
def State.setSlot (s : State) (n st att ver : Nat) : State :=
  let s := s.journalAdd jSlotState n (bytesOf 1 st ++ bytesOf 1 att ++ bytesOf 2 0 ++ bytesOf 4 ver ++ bytesOf 12 0)
  (s.wrBoth (Reg.FW_SLOT_STAT_STATE n) st).wrBoth (Reg.FW_SLOT_STAT_ATTEMPTS n) att

/-- The state of a slot changed, its attempt count and VERSION kept. -/
def State.setSlotState (s : State) (n st : Nat) : State :=
  let e := s.slotEntry n
  s.setSlot n st e.2.1 e.2.2

/-! ## Images (R102 to R105) -/

/-- First flash byte of the area of an image: the slots for KIND 0x01, one place for the others (R102). -/
def imageBase (kind slot : Nat) : Nat :=
  if kind = 1 then 0x200000 + 0x400000 * slot else if kind = 2 then 0 else 0x40000

/-- Bytes of the area of an image of a kind. -/
def imageArea (kind : Nat) : Nat := if kind = 1 then 4194304 else 262144

/-- Bytes of a signature block (R85). -/
def sigBytes : Nat := 3080

/-- All bytes are zero. -/
def allZero (bs : List Byte) : Bool := bs.all (· = 0)

/-- The 32 bytes of SEC_KEY_DIGEST of a slot (R101). -/
def State.keyDigest (s : State) (k : Nat) : List Byte :=
  (List.range 8).flatMap (fun w => bytesOf 4 (s.rd .d0 (Reg.SEC_KEY_DIGEST_D k w)))

/-- Steps 1 and 2 of R85 on a signature block: slot present and not revoked, format, zero bytes, and digest. -/
def State.sigKeyOk (s : State) (blk : List Byte) : Bool :=
  let k := field blk 0 1
  k ≤ 3 && bitOf (s.rd .d0 Reg.SEC_FUSE_CFG_KEY_PRESENT) k && !bitOf (s.rd .d0 Reg.SEC_FUSE_CFG_KEY_REVOKED) k
    && field blk 1 1 = 1 && field blk 2 2 = 0 && allZero (slice blk 0x705 3)
    && Config.shake256 (slice blk 4 1793) = s.keyDigest k

/-- Step 3 of R85: the signature verifies over the message. -/
def sigVerifies (blk msg : List Byte) : Bool := Config.falconVerify (slice blk 4 1793) msg (slice blk 0x708 1280)

/-- The control die whose SYS_CHIP_ID the boot reads: die 0, or die 1 where die 0 is ABSENT. -/
def State.idDie (s : State) : Die := if s.dieState .d0 = 7 then .d1 else .d0

/-- The checks of R105 on an image whose bytes `rd` reads, with first failure's code; 0xFE where all pass. A set
reserved bit of FLAGS, and a non-zero byte 0x18 to 0x21 of an image of KIND 0x02 or 0x03, give HEADER, judged by the kind of
the area (log entry 134). -/
def State.imageCheck (s : State) (rd : Nat → Nat → List Byte) (kind : Nat) (readError : Bool) : Nat :=
  if readError || !s.boot.flashOk then 0x01 else
  let h := rd 0 64
  let len := field h 0x10 4
  let signed := bitOf (field h 9 1) 0
  if field h 0 4 ≠ 0x4D495746 then 0x02
  else if field h 4 2 ≠ 1 ∨ field h 6 2 ≠ 64 ∨ len - 4 ≤ field h 0x14 4 ∨ 4 ≤ field h 9 1
      ∨ !allZero (slice h 0x22 6) ∨ !allZero (slice h 0x30 16) ∨ (kind ≠ 1 ∧ !allZero (slice h 0x18 10)) then 0x03
  else if field h 8 1 ≠ kind then 0x04
  else if field h 0x0A 2 ≠ s.rd s.idDie Reg.SYS_CHIP_ID_TYPE then 0x05
  else if len < 72 ∨ imageArea kind - (if signed then sigBytes else 0) < len ∨ len % 4 ≠ 0 then 0x06
  else
    let body := rd 0 len
    if !crcOk body then 0x07
    else if s.bit .d0 Reg.SEC_FUSE_CFG_FW_SIGN && !signed then 0x08
    else if s.bit .d0 Reg.SEC_FUSE_CFG_FW_SIGN && !s.sigKeyOk (rd len sigBytes) then 0x09
    else if s.bit .d0 Reg.SEC_FUSE_CFG_FW_SIGN && !sigVerifies (rd len sigBytes) body then 0x0A
    else if field h 0x28 8 ≠ 0 ∧ field h 0x28 8 ≠ s.uid then 0x0B
    else if s.bit s.idDie Reg.SYS_CHIP_ID_ES && !bitOf (field h 9 1) 1 then 0x0C
    else 0xFE

/-- TOTAL_LEN of an image, its signature block included where it carries one. -/
def imageBytes (h : List Byte) : Nat := field h 0x10 4 + (if bitOf (field h 9 1) 0 then sigBytes else 0)

/-- Bytes of flash from an offset, as `imageCheck` reads them. -/
def State.flashRd (s : State) (base : Nat) (o n : Nat) : List Byte := s.flashBytes (base + o) n

/-- Length and digest of the image at a flash offset (R78). -/
def State.imageInfo (s : State) (base : Nat) : ImageInfo :=
  let len := field (s.flashBytes base 64) 0x10 4
  ⟨len, Config.shake256 (s.flashBytes base len)⟩

/-! ## The settings store (R110) -/

/-- The settings store's halves (R110): where a half stands, whether it is valid, and whether firmware with header `h` can
read it. -/
def settingsBase (n : Nat) : Nat := 0xA0000 + 0x30000 * n

def State.halfValid (s : State) (n : Nat) : Bool :=
  let b := settingsBase n
  let len := field (s.flashBytes b 16) 0x0C 4
  field (s.flashBytes b 16) 0 4 = 0x474E5453 && 20 ≤ len && len ≤ 196608 && crcOk (s.flashBytes b len)

def State.halfMaj (s : State) (n : Nat) : Nat := field (s.flashBytes (settingsBase n) 16) 0x0A 2

def State.halfReads (s : State) (h : List Byte) (n : Nat) : Bool :=
  s.halfValid n && field h 0x20 2 ≤ s.halfMaj n && s.halfMaj n ≤ field h 0x1E 2

/-- The newest of the halves that satisfy `ok`, by the serial comparison of R88. -/
def State.newestHalf (s : State) (ok : Nat → Bool) : Option Nat :=
  let seq := fun n => field (s.flashBytes (settingsBase n) 16) 4 4
  if ok 0 && ok 1 then (if later (seq 1) (seq 0) then some 1 else some 0)
  else if ok 0 then some 0 else if ok 1 then some 1 else none

/-- The half a write goes into: not the newest valid one, and, while the slot is TRIAL, not the newest valid one of a major
version below the firmware's own (R110). -/
def State.settingsTarget (s : State) (h : List Byte) (trial : Bool) : Option Nat :=
  let kept := if trial then s.newestHalf (fun n => s.halfValid n && s.halfMaj n < field h 0x1E 2) else none
  [0, 1].find? (fun n => s.newestHalf s.halfValid ≠ some n && kept ≠ some n)

/-- The header of the firmware image that runs. -/
def State.runHeader (s : State) : List Byte := s.flashBytes (imageBase 1 (s.rd .d0 Reg.BOOT_STAT_FW_SLOT)) 64

/-- The half that the firmware's next write goes into (R110). -/
def State.aimSettings (s : State) : State :=
  let trial : Bool := (s.slotEntry (s.rd .d0 Reg.BOOT_STAT_FW_SLOT)).1 = slotTrial
  { s with boot := { s.boot with settingsTo := s.settingsTarget s.runHeader trial } }

/-- The worker's firmware writes its settings: the bytes of a half, up to the end of its CRC, go into the half that R110 gives
it, which is erased first, MAGIC last. Where it gives none, nothing is written. -/
def State.writeSettings (s : State) (d : Die) (bs : List Byte) : State :=
  match (if bs = [] || decide (0x30000 < bs.length) || !s.mayWrite d || !s.boot.fwRuns || !s.boot.flashOk then none else s.aimSettings.boot.settingsTo) with
  | none => s
  | some n =>
    let b := settingsBase n
    (((s.eraseFlash b 0x30000).setFlashBytes (b + 4) (bs.drop 4)).setFlashBytes b (bs.take 4)).aimSettings

/-! ## Rewriting a privileged image (R114, R115) -/

/-- One sector of a rewrite: erased, programmed from the staging slot up to the image's end, and journalled; it reads
back as written (log entry 174). -/
def State.rewriteSector (s : State) (r : Rewrite) (i : Nat) : State :=
  let dst := imageBase r.kind 0 + sectorBytes * i
  let n := min sectorBytes (r.len - sectorBytes * i)
  let s := (s.eraseFlash dst sectorBytes).setFlashBytes dst (s.flashBytes (imageBase 1 r.slot + sectorBytes * i) n)
  s.journalAdd jSectorDone i (bytesOf 20 0)

/-- The end of a rewrite: REWRITE_END, and the staging slot erased and EMPTY (R114). -/
def State.rewriteEnd (s : State) (r : Rewrite) : State :=
  let s := s.journalAdd jRewriteEnd 0 (bytesOf 20 0)
  { (s.eraseFlash (imageBase 1 r.slot) (imageArea 1)).setSlot r.slot slotEmpty 0 0 with rewrite := none }

/-- The sectors of a rewrite in order: 1 to 63, then 0. -/
def rewriteOrder : List Nat := (List.range 63).map (· + 1) ++ [0]

/-! ## The event and trip log (R479, R480) -/

def logBase : Nat := 0xA00000

/-- The sectors of the log with a valid header, each with the bytes of its header. The serial stands at 0x14, the place
of the last argument word of the layout (log entry 32). -/
def State.logSectors (s : State) : List (Nat × List Byte) :=
  ((placesOf logBase (s.boot.flashSize - logBase) sectorBytes s.flash).map
    (fun i => (i, s.flashBytes (logBase + sectorBytes * i) 32))).filter (fun p => crcOk p.2 && field p.2 9 1 = 0x1F)

/-- The header of a log sector. -/
def logHeader (serial : Nat) : List Byte :=
  withCrc (bytesOf 9 0 ++ bytesOf 1 0x1F ++ bytesOf 10 0 ++ bytesOf 4 serial ++ bytesOf 4 0)

/-- The first erased slot of a log sector, from slot 1 on; none where it is full. -/
def State.logSlot (s : State) (sector : Nat) : Option Nat :=
  (List.range 127).findSome? (fun i =>
    if (s.flashBytes (logBase + sectorBytes * sector + 32 * (i + 1)) 32).all (· = 0xFF) then some (i + 1) else none)

/-- A record written into the log: into the first erased slot of the latest sector, or into the next sector behind a new
header. The sector after the latest is erased once the latest is half full (R479). -/
def State.logWrite (s : State) (bs : List Byte) : State :=
  let n := (s.boot.flashSize - logBase) / sectorBytes
  let put := fun (s : State) (sector i : Nat) =>
    let s := s.setFlashBytes (logBase + sectorBytes * sector + 32 * i) bs
    if i = 64 then s.eraseFlash (logBase + sectorBytes * ((sector + 1) % n)) sectorBytes else s
  match latest 0x14 s.logSectors with
  | none => put ((s.eraseFlash logBase sectorBytes).setFlashBytes logBase (logHeader 1)) 0 1
  | some (sector, h) =>
    match s.logSlot sector with
    | some i => put s sector i
    | none =>
      let next := (sector + 1) % n
      put (s.setFlashBytes (logBase + sectorBytes * next) (logHeader ((field h 0x14 4 + 1) % 2 ^ 32))) next 1

/-- The event records of the log, in no order: every slot of every valid sector whose CRC holds. -/
def State.logRecords (s : State) : List (List Byte) :=
  s.logSectors.flatMap (fun p =>
    ((placesOf (logBase + sectorBytes * p.1) sectorBytes 32 s.flash).map
      (fun i => s.flashBytes (logBase + sectorBytes * p.1 + 32 * i) 32)).filter
      (fun bs => crcOk bs && 0x10 ≤ field bs 9 1 && field bs 9 1 ≤ 0x18))

end Sys2Proof.Machine
end

