-- ==== Sys2Proof/Machine/WordOps.lean ====
section
/-! DEFINITION. Reading words of the address map: memories, register words and the timebase snapshot (R4, R73, R123,
R124). -/

namespace Sys2Proof.Machine

/-! ## Areas (R123) -/

/-- The areas an address may lie in. -/
inductive Area where
  /-- Cluster or region SRAM of the die, with the address in the common map. -/
  | sram (a : Nat)
  /-- CLE memory; `prog` in program memory. -/
  | cle (c : Nat) (prog : Bool)
  | iod
  | periph
  /-- The couching window, with the address in the other die's map (R460). -/
  | couch (a : Nat)
  | rom
  | otp
  | identity
  | flash
  | outside
deriving DecidableEq, Repr

/-- The other die's address that an address of the couching window reaches (R460). -/
def couchTarget (a : Nat) : Option Nat :=
  let o := a - 0x60000000
  if o < 0x100000 then some (0x10000000 + o)
  else if o < 0x300000 then some (0x20000000 + (o - 0x100000))
  else if o < 0x340000 then some (0x30000000 + (o - 0x300000))
  else none

/-- The area of an address as a unit of cluster `c` sees it. -/
def areaOf (c a : Nat) : Area :=
  if a < 0x40000 then .sram (0x10000000 + 0x40000 * c + a)
  else if 0x10000000 ≤ a ∧ a < 0x10100000 then .sram a
  else if 0x20000000 ≤ a ∧ a < 0x20200000 then .sram a
  else if 0x30000000 ≤ a ∧ a < 0x30040000 then .cle ((a - 0x30000000) / 0x10000) (a % 0x10000 < 0x8000)
  else if 0x40000000 ≤ a ∧ a < 0x41000000 then .iod
  else if 0x50000000 ≤ a ∧ a < 0x50010000 then .periph
  else if 0x60000000 ≤ a ∧ a < 0x61000000 then
    (match couchTarget a with | some x => .couch x | none => .outside)
  else if 0x70000000 ≤ a ∧ a < 0x70010000 then .rom
  else if 0x70010000 ≤ a ∧ a < 0x70020000 then .otp
  else if 0x70020000 ≤ a ∧ a < 0x70030000 then .identity
  else if 0x80000000 ≤ a ∧ a < 0x90000000 then .flash
  else .outside

/-! ## Register words -/

/-- GEN_CMD.ACT of some channel (R310). -/
def Field.isAct (f : Field) : Bool :=
  f.lo = 8 && 0x40400014 ≤ f.addr && f.addr < 0x40401000 && (f.addr - 0x40400014) % 0x20 = 0

/-- Flags that only JTAG can read in the state the device is in: those of the rails of an I/O-die shutdown (R48), and
XTAL_LOST after the stop, with the cores halted (R73). -/
def State.jtagOnly (s : State) (f : Field) : Bool :=
  (s.power.shutdown && f.addr = 0x40F00004 && 16 ≤ f.lo && f.lo ≤ 18) || (s.red.stopped && f = Reg.TB_STAT_XTAL_LOST)

/-- What a read of a field returns: 0 for WO, the shadow for SH, the value otherwise (R4). A flag for JTAG alone reads as a
free value over the bus (R48, R73, log entry 140). GEN_CMD.ACT follows the carrier's changes at their instants (R296), and
TB_ADDEND shows a new addend from the tick after its sample (R422). -/
def State.readField (s : State) (d : Die) (f : Field) : Nat :=
  if s.jtagOnly f then Config.free (s.freeCtr + f.lo) % 2 else
  if f = Reg.TB_ADDEND_HI_NS then s.addend / 2 ^ 32 else if f = Reg.TB_ADDEND_LO_FRAC then s.addend % 2 ^ 32 else
  match f.acc with
  | .wo => 0
  | .sh => s.rdSh d f
  | .rw | .ro | .w1c | .pk => if f.isAct then s.actNow ((f.addr - 0x40400014) / 0x20) else s.rd d f

/-- A register word, reserved bits 0 (R6). -/
def State.readFields (s : State) (d : Die) (fs : List Field) : Nat :=
  fs.foldl (fun m f => m + s.readField d f * 2 ^ f.lo) 0

/-- The readers of TB_TIME: cores 0 to 11 of each die, the debug port, and from 16 on the transfer units of its CLEs. -/
def snapKey (d : Die) (reader : Nat) : Nat := 32 * d.toNat + reader

/-- A word of the timebase snapshot of a reader (R73). -/
def State.timeWord (s : State) (d : Die) (reader a : Nat) : Option Nat :=
  let t := tabGet 0 s.tb.snap (snapKey d reader)
  if a = 0x40100008 then some (secOf t / 2 ^ 32)
  else if a = 0x4010000C then some (secOf t % 2 ^ 32)
  else if a = 0x40100010 then some (nsOf t)
  else if a = 0x40100014 then some (fracOf t)
  else none

/-- A read of TB_TIME_SEC_HI takes the snapshot of its reader (R73). -/
def State.takeSnap (s : State) (d : Die) (reader : Nat) : State :=
  { s with tb := { s.tb with snap := tabSet 0 s.tb.snap (snapKey d reader) s.tb.time } }

/-- What a read does to the state: the snapshot of R73, and nothing else. -/
def State.touch (s : State) (d : Die) (reader a : Nat) : State :=
  if a = 0x40100008 then s.takeSnap d reader else s

/-- A word of the peripheral space or the I/O die window: a register word, or the byte tables of R430 and R431. -/
def State.regWord (s : State) (d : Die) (reader a : Nat) : Nat :=
  match s.timeWord d reader a with
  | some v => v
  | none =>
    match Reg.fieldsAt a with
    | some fs => s.readFields d fs
    | none => s.ram32 2 a

/-- A word anywhere a load may reach; none where the access faults (R124). -/
def State.loadWord (s : State) (d : Die) (reader c a : Nat) : Option Nat :=
  match areaOf c a with
  | .sram x => some (s.ram32 d.toNat x)
  | .cle _ _ => some (s.ram32 d.toNat a)
  | .iod | .periph => some (s.regWord d reader a)
  | .couch x => if s.inService d.other || s.dieState d.other = 5 then some (s.ram32 d.other.toNat x) else none
  | .rom => some (natOf ((List.range 4).map (fun i => Config.bootRom (a - 0x70000000 + i))))
  | .otp => some (match Reg.fieldsAt a with | some fs => s.readFields d fs | none => 0)
  | .identity => some (natOf ((List.range 4).map (fun i => Config.identity (a - 0x70020000 + i))))
  | .flash => some (natOf (s.flashBytes (a - 0x80000000) 4))
  | .outside => none

end Sys2Proof.Machine
end

