-- ==== Sys2Proof/Machine/MaintOps.lean ====
section
/-! DEFINITION. The maintenance service and field update: the queue, the operations, deliveries, rewrites and the report
(R93, R109, R114, R116 to R118, R402 to R408). -/

namespace Sys2Proof.Machine

/-! ## Statuses (R405) -/

def mntOk : Nat := 0x00
def mntBusy : Nat := 0x01
def mntBadOp : Nat := 0x02
def mntBadAddr : Nat := 0x03
def mntRefused : Nat := 0x04
def mntSeq : Nat := 0x05
def mntCrc : Nat := 0x06
def mntTimeout : Nat := 0x07

/-- Bytes of a response: VER, OP, TAG, STATUS, a reserved byte, LEN and the body (R403). -/
def maintBytes (code tag status : Nat) (data : List Byte) : List Byte :=
  bytesOf 1 1 ++ bytesOf 1 code ++ bytesOf 2 tag ++ bytesOf 1 status ++ bytesOf 1 0 ++ bytesOf 2 data.length ++ data

/-- A response to the requester on the port of its request; in a PRP or HSR pair it goes out on both ports (R403). -/
def State.respond (s : State) (port mac : Nat) (bytes : List Byte) : State :=
  (s.pairSend (port / 2)).ethSendAll rankMaint (.maint port mac bytes) (s.pairPorts port)

/-- OP of an operation (R404). -/
def MaintOp.code : MaintOp → Nat
  | .bad => 0
  | .read _ _ _ => 0x01
  | .readSignal _ => 0x02
  | .identity _ _ => 0x03
  | .attest _ => 0x04
  | .begin _ _ => 0x05
  | .data _ _ => 0x06
  | .finish _ _ _ => 0x07
  | .stat => 0x08

def opAttest : Nat := 0x04

/-- OP of the request as it came: the row's, or the unknown one in its place (R405). -/
def opCodeOf (h : MaintHeader) (op : MaintOp) : Nat :=
  match h.badOp with
  | some b => b.toNat
  | none => op.code

/-- The operation as it is served: an unknown VER or OP, or a LEN that is wrong for OP, makes it BAD_OP (R405). -/
def servedAs (h : MaintHeader) (op : MaintOp) : MaintOp :=
  if h.ver = 1 ∧ h.lenOk ∧ h.badOp = none then op else .bad

/-- Requests the server holds: 4, and 1 for the recovery server, which keeps no queue (R402, R408). -/
def State.mntRoom (s : State) : Nat := if s.boot.server = .full then 4 else 1

/-- The maintenance path is served: the full server or the recovery server runs (R402). -/
def State.served (s : State) : Bool := s.boot.server ≠ .off

/-- A request the device takes: one sent to its port MAC while a server runs, or an IDENTITY request sent to the broadcast
address (R403). -/
def State.takesRequest (s : State) (h : MaintHeader) (code : Nat) : Bool := s.served && (!h.bcast || code = 0x03)

/-! ## The report (R117, R118) -/

/-- A digest as the report holds it: 32 bytes, zero where the boot formed none. -/
def ImageInfo.digest32 (x : ImageInfo) : List Byte := (x.digest ++ List.replicate 32 0).take 32

/-- Bytes 0x000 to 0x0C7 of the report (R117); with no slot running its slot is BOOT_STAT.FW_SLOT (log entry 177). -/
def State.reportBytes (s : State) (nonce : Nat) : List Byte :=
  let d := s.worker.getD .d0
  let slot := s.rd d Reg.BOOT_STAT_FW_SLOT
  bytesOf 4 0x54535441 ++ bytesOf 2 1 ++ bytesOf 2 200 ++ bytesOf 16 nonce ++ bytesOf 8 s.uid
    ++ bytesOf 4 (s.regWord d 12 0x50000000) ++ bytesOf 4 (s.regWord d 12 0x50000100)
    ++ bytesOf 4 (s.rd d Reg.BOOT_STAT_SEQ_SEQ) ++ bytesOf 4 (s.rd d (Reg.FW_VERSION_VERSION slot))
    ++ bytesOf 1 (s.io Reg.RED_GRADE_GRADE) ++ bytesOf 1 slot ++ bytesOf 2 0 ++ bytesOf 4 (s.io Reg.TB_PERIOD_NUM_K)
    ++ bytesOf 8 (secOf s.tb.time) ++ bytesOf 4 (nsOf s.tb.time) ++ bytesOf 4 0
    ++ s.boot.stage1.digest32 ++ s.boot.iodsup.digest32 ++ s.boot.fw.digest32 ++ s.boot.prick.digest32

/-! ## Arrival (R403, R408) -/

/-- The requests that wait, oldest first. -/
def State.setQueue (s : State) (q : List MaintReq) : State := { s with maint := { s.maint with queue := q } }

/-- An ATTEST that is at the head of the queue of the full server starts the signing of its report (R117, R118, R408). -/
def State.startSigning (s : State) : State :=
  match s.maint.queue, s.maint.signing with
  | ⟨port, mac, _, tag, .attest nonce⟩ :: _, none =>
    if s.boot.server = .full then
      { s with maint := { s.maint with signing := some (port, mac, tag, s.reportBytes nonce) } }
    else s
  | _, _ => s

/-- An ATTEST that arrives while a report is being signed (R118). -/
def State.signsAlready (s : State) (op : MaintOp) : Bool :=
  match op with
  | .attest _ => s.maint.signing.isSome
  | _ => false

/-- A request arrives: queued in order of arrival, or answered BUSY at once, with the queue full or, for ATTEST, with a report
being signed (R118, R402, R408). -/
def State.mntArrive (s : State) (h : MaintHeader) (op : MaintOp) : State :=
  let code := opCodeOf h op
  if !s.takesRequest h code then s
  else if decide (s.mntRoom ≤ s.maint.queue.length) || s.signsAlready (servedAs h op) then
    s.respond h.port h.mac.toNat (maintBytes code h.tag.toNat mntBusy [])
  else (s.setQueue (s.maint.queue ++ [⟨h.port, h.mac.toNat, code, h.tag.toNat, servedAs h op⟩])).startSigning

/-! ## READ, READ_SIGNAL and IDENTITY (R404, R406) -/

/-- The areas of R406: first address, size, and whether the area lies in flash. -/
def State.readAreas (s : State) : List (Nat × Nat × Bool) :=
  [(0x10000000, 0x100000, false), (0x20000000, 0x200000, false)]
    ++ (List.range 4).map (fun c => (0x30008000 + 0x10000 * c, 0x8000, false))
    ++ [(0x40000000, 0x1000000, false), (0x50000000, 0x10000, false), (0x70010000, 0x10000, false),
        (0x70020000, 0x10000, false), (0x80090000, 0x10000, true),
        (0x80000000 + logBase, s.boot.flashSize - logBase, true)]

/-- The area a range lies in whole, with whether it is flash; none where the range is no readable one (R406). -/
def State.readArea (s : State) (a n : Nat) : Option Bool :=
  if a % 4 = 0 ∧ 1 ≤ n ∧ n ≤ 256 then
    (s.readAreas.find? (fun p => p.1 ≤ a && a + 4 * n ≤ p.1 + p.2.1)).map (·.2.2)
  else none

/-- Words read one at a time by the debug port of a die, with its own time snapshot (R406, R73). -/
def State.readWords (s : State) (d : Die) (a : Nat) : Nat → State × List Byte
  | 0 => (s, [])
  | n + 1 =>
    let s := s.touch d 12 a
    let w := (s.loadWord d 12 0 a).getD 0
    let r := State.readWords s d (a + 4) n
    (r.1, bytesOf 4 w ++ r.2)

/-- The die a READ names: the worker, or the other die where it is in service (R404, R405). -/
def State.readDie (s : State) (passive : Bool) : Option Die :=
  let w := s.worker.getD .d0
  if !passive then some w else if s.inService w.other && s.worker.isSome then some w.other else none

/-- A binary32 number of value n × 2^e, rounded to nearest with ties to even; no overflow arises here (R404). -/
def f32 (neg : Bool) (n : Nat) (e : Int) : Nat :=
  if n = 0 then 0 else
  let q : Int := max ((Nat.log2 n : Int) - 23 + e) (-149)
  let m : Nat := if q ≤ e then n * 2 ^ (e - q).toNat else (conv n (q - e).toNat).toNat
  b2n neg * 2 ^ 31 + (q + 149).toNat * 2 ^ 23 + m

/-- WORD / 2^31 × FS as binary32, from the bits of both (R404). -/
def signalValue (word fs : Nat) : Nat :=
  let w := signed 32 word
  let e := fs / 2 ^ 23 % 256
  let m := fs % 2 ^ 23 + (if e = 0 then 0 else 2 ^ 23)
  f32 (decide (w < 0) != bitOf fs 31) (w.natAbs * m) (((if e = 0 then 1 else e) : Nat) - (150 : Int) - 31)

/-- READ_SIGNAL: WORD, UNIT and VALUE of a signal table entry; none where the entry is not used (R201, R404). -/
def State.signalBody (s : State) (j : Nat) : Option (List Byte) :=
  let d := s.worker.getD .d0
  let e := s.ramBytes d.toNat (0x200FC000 + 16 * j) 16
  if 1024 ≤ j ∨ !bitOf (field e 3 1) 0 then none else
  let loc := field e 0 2
  let w := s.ram32 d.toNat (0x30008000 + 0x10000 * (loc / 2 ^ 14) + 4 * (loc % 2 ^ 13))
  some (bytesOf 4 w ++ bytesOf 1 (field e 2 1) ++ bytesOf 3 0 ++ bytesOf 4 (signalValue w (field e 4 4)))

/-! ## Deliveries (R93, R109, R114, R116, R407) -/

def kindPricking : Nat := 0x10

/-- First flash byte of pricking copy A or B. -/
def copyBase (c : Nat) : Nat := 0x100000 + 0x40000 * c

/-- The firmware slot that is not running (log entry 33 for a boot in which none runs). -/
def State.idleSlot (s : State) : Nat := 1 - s.rd (s.worker.getD .d0) Reg.BOOT_STAT_FW_SLOT

/-- The running firmware slot's state; none where no slot runs. -/
def State.runState (s : State) : Option Nat :=
  if s.boot.fwRuns then some (s.slotEntry (s.rd (s.worker.getD .d0) Reg.BOOT_STAT_FW_SLOT)).1 else none

/-- The rules of the kind's area refuse a delivery (R93, R109, R114, R402). -/
def State.deliveryRefused (s : State) (kind : Nat) : Bool :=
  match s.boot.server with
  | .full =>
    if kind = kindPricking then false
    else if kind = 1 then s.runState = some slotTrial || s.rewrite.isSome
    else if kind = 2 ∨ kind = 3 then s.runState ≠ some slotActive || s.rewrite.isSome
    else true
  | .stage1 => kind ≠ 2
  | .iodsup => kind ≠ 3
  | .off | .flash | .differ => true

/-- Largest TOTAL of a kind: its area (R76, R102). -/
def deliveryArea (kind : Nat) : Nat := if kind = 1 then 4194304 else 262144

/-- Where a delivery goes: the copy not applied, the idle slot, or region SRAM for the recovery server. While no copy is
applied at this boot, copy B (log entry 139). -/
def State.deliveryBase (s : State) (kind : Nat) : Option Nat :=
  if kind = kindPricking then some (copyBase (1 - s.rd (s.worker.getD .d0) Reg.BOOT_STAT_COPY))
  else if s.boot.server = .full then some (imageBase 1 s.idleSlot)
  else none

/-- Where the recovery server holds an image (log entry 34). -/
def recoveryRam : Nat := 0x20000000

/-- A firmware slot erased and EMPTY, nothing known of its image. -/
def State.emptySlot (s : State) (n : Nat) : State :=
  ((s.setSlot n slotEmpty 0 0).wrBoth (Reg.FW_VERSION_VERSION n) 0).wrBoth (Reg.FW_SLOT_STAT_RESULT n) 0xFF

/-- MNT_DELIV.LAST, the last status of a delivery request (R429). -/
def State.noteLast (s : State) (st : Nat) : State := s.setIo Reg.MNT_DELIV_LAST st

/-- An accepted DELIVER_BEGIN: the area is erased and NEXT is 0 (R407). -/
def State.deliverStart (s : State) (kind total : Nat) : State :=
  let base := s.deliveryBase kind
  let s := match base with
    | none => s
    | some b =>
      if kind = kindPricking then s.eraseFlash b 262144
      else (s.eraseFlash b 4194304).emptySlot s.idleSlot
  let s := { s with maint := { s.maint with deliv := some ⟨kind, total, 0, base, []⟩ } }
  ((s.setIo Reg.MNT_DELIV_KIND kind).setIo Reg.MNT_DELIV_STATE 1).setIo Reg.MNT_NEXT_NEXT 0

/-- A delivery ends, done or failed: event 233, shown by MNT_DELIV (R407). -/
def State.deliverEnds (s : State) (ok : Bool) (st : Nat) : State :=
  let s := { s with maint := { s.maint with deliv := none } }
  ((s.setIo Reg.MNT_DELIV_STATE (if ok then 2 else 3)).noteLast st).post 233

/-- A failed delivery leaves a firmware slot EMPTY (R109). -/
def State.deliverFails (s : State) (x : Delivery) (st : Nat) : State :=
  let s := if x.base.isSome ∧ x.kind ≠ kindPricking then s.emptySlot s.idleSlot else s
  s.deliverEnds false st

/-- Bytes of a delivery written at an offset, the first four held back. -/
def State.deliverWrite (s : State) (x : Delivery) (off : Nat) (bs : List Byte) : State :=
  let x' := { x with next := off + bs.length, head := if off = 0 then bs.take 4 else x.head }
  let s := match x.base with
    | none => s.setRamBytes (s.worker.getD .d0).toNat (recoveryRam + off) bs
    | some b => if off = 0 then s.setFlashBytes (b + 4) (bs.drop 4) else s.setFlashBytes (b + off) bs
  { s with maint := { s.maint with deliv := some x' } }.setIo Reg.MNT_NEXT_NEXT (off + bs.length)

/-- The TOTAL bytes of a delivery as received. -/
def State.delivered (s : State) (x : Delivery) : List Byte :=
  match x.base with
  | none => s.ramBytes (s.worker.getD .d0).toNat recoveryRam x.total
  | some b => x.head ++ s.flashBytes (b + 4) (x.total - 4)

/-- A privileged image in the staging slot, which stays EMPTY meanwhile (log entry 150): every check of R105 against its own
kind, then REWRITE_BEGIN; a failed image is erased (R114). -/
def State.startRewrite (s : State) (kind slot : Nat) (readError : Bool) : Bool × State :=
  let base := imageBase 1 slot
  let res := s.imageCheck (s.flashRd base) kind readError
  if res ≠ 0xFE then (false, (s.eraseFlash base (imageArea 1)).emptySlot slot)
  else
    let info := s.imageInfo base
    let s := s.journalAdd jRewriteBegin 0 (bytesOf 1 kind ++ bytesOf 1 slot ++ bytesOf 2 0 ++ bytesOf 4 info.len
      ++ info.digest.take 12)
    (true, { s with rewrite := some ⟨kind, slot, imageBytes (s.flashBytes base 64), rewriteOrder⟩ })

/-- An image the recovery server has checked, written in place, sector 0 last (R116). -/
def State.writeInPlace (s : State) (kind : Nat) (bs : List Byte) : State :=
  let base := imageBase kind 0
  let s := (s.eraseFlash base (imageArea kind)).setFlashBytes (base + sectorBytes) (bs.drop sectorBytes)
  s.setFlashBytes base (bs.take sectorBytes)

/-- The read-back of a delivery (R109): the flash returns what was sent, and a firmware image's own CRC-32C holds there (log
entry 150). -/
def State.readsBack (s : State) (kind base : Nat) : Bool :=
  kind ≠ 1 || crcOk (s.flashBytes base (min (imageArea 1) (field (s.flashBytes base 64) 0x10 4)))

/-- The end of a delivery whose CRC agrees: the first bytes last, the read-back, and what the kind's rule does with it
(R93, R109, R114, R116). -/
def State.deliverDone (s : State) (x : Delivery) (readBack readError : Bool) : Nat × State :=
  match x.base with
  | none =>
    let d := s.worker.getD .d0
    if s.imageCheck (fun o n => s.ramBytes d.toNat (recoveryRam + o) n) x.kind false ≠ 0xFE then
      (mntRefused, s.deliverFails x mntRefused)
    else (mntOk, (s.writeInPlace x.kind (s.delivered x)).deliverEnds true mntOk)
  | some b =>
    let s := s.setFlashBytes b x.head
    if !readBack || !s.readsBack x.kind b then (mntCrc, s.deliverFails x mntCrc)
    else if x.kind = kindPricking then (mntOk, s.deliverEnds true mntOk)
    else if x.kind = 1 then
      let ver := field (s.flashBytes b 16) 0x0C 4
      (mntOk, ((s.setSlot s.idleSlot slotStaged 0 ver).wrBoth (Reg.FW_VERSION_VERSION s.idleSlot) ver).deliverEnds true mntOk)
    else
      let r := s.startRewrite x.kind s.idleSlot readError
      if r.1 then (mntOk, r.2.deliverEnds true mntOk) else (mntRefused, r.2.deliverEnds false mntRefused)

/-- One delivery request answered: its status, and the state after (R407). -/
def State.deliverOp (s : State) (op : MaintOp) : Nat × State :=
  match op, s.maint.deliv with
  | .begin kind total, none =>
    if s.deliveryRefused kind || total < 72 || deliveryArea kind < total then (mntRefused, s)
    else (mntOk, s.deliverStart kind total)
  | .begin _ _, some _ => (mntBusy, s)
  | .data off bs, some x =>
    if bs.length < 4 ∨ 1024 < bs.length ∨ bs.length % 4 ≠ 0 then (mntBadOp, s)
    else if off = x.next ∧ off + bs.length ≤ x.total then (mntOk, s.deliverWrite x off bs)
    else if off + bs.length ≤ x.next then (mntOk, s)
    else (mntSeq, s)
  | .finish crc readBack readError, some x =>
    if x.next ≠ x.total then (mntSeq, s)
    else if crc32c (s.delivered x) ≠ crc then (mntCrc, s.deliverFails x mntCrc)
    else s.deliverDone x readBack readError
  | _, _ => (mntSeq, s)

/-- The body of DELIVER_STAT (R404). -/
def State.deliverStatBody (s : State) : List Byte :=
  bytesOf 1 (s.io Reg.MNT_DELIV_KIND) ++ bytesOf 1 (s.io Reg.MNT_DELIV_STATE) ++ bytesOf 1 (s.io Reg.MNT_DELIV_LAST)
    ++ bytesOf 1 0 ++ bytesOf 4 (s.io Reg.MNT_NEXT_NEXT)

/-! ## Serving a request -/

/-- The recovery server does not serve an operation (R402). -/
def State.recoveryRefuses (s : State) (op : MaintOp) : Bool :=
  match s.boot.server, op with
  | .full, _ => false
  | _, .bad | _, .identity _ _ | _, .stat => false
  | _, .attest _ => true
  | .flash, .read a n _ => s.readArea a n = some true
  | _, .read _ _ _ => false
  | _, .readSignal _ => true
  | .stage1, _ | .iodsup, _ => false
  | _, _ => true

/-- A request served: its status, data and the state after (R404 to R407). -/
def State.serveOp (s : State) (op : MaintOp) : Nat × List Byte × State :=
  if s.recoveryRefuses op then (mntRefused, [], s) else
  match op with
  | .bad => (mntBadOp, [], s)
  | .read a n passive =>
    match s.readArea a n, s.readDie passive with
    | none, _ => (mntBadAddr, [], s)
    | _, none => (mntRefused, [], s)
    | some _, some d => let r := s.readWords d a n; (mntOk, r.2, r.1)
  | .readSignal j => match s.signalBody j with | none => (mntBadAddr, [], s) | some b => (mntOk, b, s)
  | .identity off n =>
    if n = 0 ∨ 1024 < n ∨ 0x10000 < off + n then (mntBadAddr, [], s)
    else (mntOk, (List.range n).map (fun i => Config.identity (off + i)), s)
  | .stat => (mntOk, s.deliverStatBody, s)
  | .attest _ => (mntBusy, [], s)
  | .begin _ _ | .data _ _ | .finish _ _ _ => let r := s.deliverOp op; (r.1, [], r.2.noteLast r.1)

/-- The head of the queue is an ATTEST whose report is being signed: its answer is the report. -/
def State.signsHead (s : State) : Bool :=
  match s.maint.queue with
  | q :: _ => s.signsAlready q.op
  | [] => false

/-- The queue without its head; an ATTEST behind it starts. -/
def State.popRequest (s : State) : State := (s.setQueue s.maint.queue.tail).startSigning

/-- The request at the head of the queue is answered and leaves it (R408). -/
def State.answerHead (s : State) : State :=
  match s.maint.queue with
  | [] => s
  | q :: _ =>
    if s.signsHead then s else
    let r := s.serveOp q.op
    r.2.2.popRequest.respond q.port q.mac (maintBytes q.code q.tag r.1 r.2.1)

end Sys2Proof.Machine
end

