-- ==== Sys2Proof/Machine/TimeOps.lean ====
section
/-! DEFINITION. Shared operations of time: steps of the time value, the servo, and the ports of the PTP clock (R61 to R67,
R417 to R425). -/

namespace Sys2Proof.Machine

/-! ## The time value -/

/-- Ticks from now to the first tick at which the time value is at least `t`. -/
def State.ticksTo (s : State) (t : Nat) : Nat := s.ticksFor (t - s.tb.time)

/-- The timebase run to the first tick at which the time value is at least `t`. -/
def State.runToTime (s : State) (t : Nat) : State := s.runTo (s.tb.ticks + s.ticksTo t)

/-- The time value in units of 2^-16 ns, as PTP and Nolri count it. -/
def State.now16 (s : State) : Int := (s.tb.time / 2 ^ 16 : Nat)

/-- TB_STAT.TIME_VALID changes, with event 179 (R63, R74). -/
def State.setTimeValid (s : State) (v : Bool) : State :=
  if s.ioBit Reg.TB_STAT_TIME_VALID = v then s else (s.setIo Reg.TB_STAT_TIME_VALID (b2n v)).post 179

/-- The times a step of the time value jumps over bring no pulse (R427). -/
def State.picotSkip (s : State) (p : Nat) : State :=
  let x := s.picotOf p
  let mode := s.io (Reg.PICOT_CFG_MODE p)
  match x.next with
  | some t =>
    if s.tb.time ≤ t then s
    else if mode = picotPeriodic then
      s.setPicotSt p { x with next := some (nextPulse t (2 * s.io (Reg.PICOT_PER_PER p) * nsUnit) s.tb.time) }
    else s.setPicotSt p { x with next := none }
  | none => s

/-- The time value steps to `t`; the period in progress ends at the first boundary from the new time, with a guard of
its own (R64, R67, R69). -/
def State.stepTime (s : State) (t : Nat) : State :=
  let cp := s.cpUnits
  let s := { s with tb := { s.tb with time := t, nextB := (t / cp + 1) * cp, stepped := true, stepTo := some t, guarded := false } }
  (List.range 8).foldl State.picotSkip s

/-! ## The servo (R421 to R425) -/

/-- The drift after a sample (R422). -/
def State.driftAfter (s : State) (theta : Int) : Int :=
  clamp (-858993) 858993 (s.drift - theta / 2 ^ s.io Reg.SERVO_CFG_KI)

/-- The update of R422. -/
def State.servoUpdate (s : State) (theta : Int) : State :=
  let d := s.driftAfter theta
  (s.setIoInt Reg.SERVO_DRIFT_DRIFT d).setAddend (addendClamp (2 ^ 33 + d - theta / 2 ^ s.io Reg.SERVO_CFG_KP))

/-- The update of R422 with its addend at the clamp, for a step that is refused (R425). -/
def State.servoSlew (s : State) (theta : Int) : State :=
  (s.setIoInt Reg.SERVO_DRIFT_DRIFT (s.driftAfter theta)).setAddend (addendClamp (if theta < 0 then 2 ^ 34 else 0))

/-- LOCK_TH and STEP_TH in units of 2^-16 ns. -/
def State.lockTh (s : State) : Nat := s.io Reg.SERVO_TH_LOCK_TH * 2 ^ 16
def State.stepTh (s : State) : Nat := s.io Reg.SERVO_TH_STEP_TH * 1000 * 2 ^ 16

/-- The states of R423 at a sample: LOCKED after LOCK_N near samples, back to ACQUIRE after two far ones. -/
def State.servoJudge (s : State) (theta : Int) : State :=
  let x := s.servo
  let near := if theta.natAbs ≤ s.lockTh then x.near + 1 else 0
  let far := if 4 * s.lockTh < theta.natAbs then x.far + 1 else 0
  let st := s.io Reg.SERVO_STAT_STATE
  if st = servoAcquire then
    if s.io Reg.SERVO_CFG_LOCK_N ≤ near then
      (({ s with servo := { x with near := 0, far := 0 } }.setServo servoLocked).raiseIo Reg.SERVO_STAT_LOCK_SEEN).setTimeValid true
    else { s with servo := { x with near := near, far := 0 } }
  else if st = servoLocked then
    if 2 ≤ far then { s with servo := { x with near := 0, far := 0 } }.setServo servoAcquire
    else { s with servo := { x with far := far } }
  else s

/-- A sample that steps the time value restarts the LOCK_N count and the average; in LOCKED the second far one in a row
goes back to ACQUIRE (R423, R425). -/
def State.servoFar (s : State) (theta : Int) : State :=
  let far := if 4 * s.lockTh < theta.natAbs then s.servo.far + 1 else 0
  if s.io Reg.SERVO_STAT_STATE = servoLocked ∧ far < 2 then
    { s with servo := { s.servo with near := 0, far := far, sum := 0, count := 0 } }
  else { s with servo := { s.servo with near := 0, far := 0, sum := 0, count := 0 } }.setServo servoAcquire

/-- A sample of θ, in 2^-16 ns (R422, R423, R425): it may step the time value before gate release; afterwards a step is
refused and the clock slews. -/
def State.servoSample (s : State) (theta : Int) : State :=
  let st := s.io Reg.SERVO_STAT_STATE
  let s := s.setIoInt Reg.SERVO_OFS_THETA (clamp (-(2 ^ 31)) (2 ^ 31 - 1) (theta / 2 ^ 8))
  let s := if st = servoFree ∨ st = servoHoldover then
      { s with servo := { s.servo with near := 0, far := 0 } }.setServo servoAcquire else s
  if s.stepTh < theta.natAbs then
    if s.tb.released then
      ((((s.raiseIo Reg.TB_STAT_STEP_REFUSED).post 178).setIo Reg.SERVO_STAT_SLEW 1).servoSlew theta).servoJudge theta
    else
      let t := (s.tb.time - theta * 2 ^ 16) % (2 ^ 48 * secUnit)
      (s.servoFar theta).stepTime t.toNat
  else ((s.setIo Reg.SERVO_STAT_SLEW 0).servoUpdate theta).servoJudge theta

/-- AUTO takes the source that stands; a change in ACQUIRE or LOCKED goes to ACQUIRE with the drift kept (R421, R423). -/
def State.autoSource (s : State) : State :=
  let src := s.servoSource
  if s.io Reg.SERVO_STAT_SOURCE = src then s
  else
    let s := { s.setIo Reg.SERVO_STAT_SOURCE src with servo := { s.servo with near := 0, far := 0, sum := 0, count := 0 } }
    if s.io Reg.SERVO_STAT_STATE = servoLocked then s.setServo servoAcquire else s

/-- A CYCLE reached a Cell whose source is its parent: the first usable one steps the time value, later ones are averaged
over 2^NAVG (R371, R421, R424). `t1` is T1 + CORR and the Cell's residence, the time since the arrival T2, so that the present
time less `t1` is T2 - (T1 + CORR); all in 2^-16 ns. -/
def State.servoCycle (s : State) (t1 : Int) (usable : Bool) (mdly : Int) : State :=
  if !usable || s.servoSource ≠ 1 then s
  else if !s.tb.released && !s.servo.taken then
    let t := (t1 + mdly) * 2 ^ 16 % (2 ^ 48 * secUnit)
    ({ s with servo := { s.servo with taken := true, sum := 0, count := 0 } }.stepTime t.toNat).setTimeValid true
  else
    let sum := s.servo.sum + (s.now16 - t1 - mdly)
    let n := s.servo.count + 1
    if 2 ^ s.io Reg.SERVO_CFG_NAVG ≤ n then
      { s with servo := { s.servo with sum := 0, count := 0 } }.servoSample (sum / 2 ^ s.io Reg.SERVO_CFG_NAVG)
    else { s with servo := { s.servo with sum := sum, count := n } }

/-! ## PTP ports (R417 to R420) -/

def State.ptpOf (s : State) (p : Nat) : PtpPort := tabGet {} s.ptp p
def State.setPtp (s : State) (p : Nat) (x : PtpPort) : State := { s with ptp := tabSet {} s.ptp p x }

/-- portState values of IEEE 1588-2019. -/
def ptpInit : Nat := 1
def ptpListening : Nat := 4
def ptpPreMaster : Nat := 5
def ptpMaster : Nat := 6
def ptpPassive : Nat := 7
def ptpUncalibrated : Nat := 8
def ptpSlave : Nat := 9

def State.ptpState (s : State) (p : Nat) : Nat := s.io (Reg.PTP_PORT_STAT_STATE p)

/-- Port `p` runs PTP: enabled, named and UP. -/
def State.ptpOn (s : State) (p : Nat) : Bool :=
  s.ioBit Reg.PTP_CFG_EN && bitOf (s.io Reg.PTP_CFG_PORTS) p && s.ioBit (Reg.ETH_PORT_STAT_UP p)

/-- A message of the device's domain on a port that runs PTP. -/
def State.ptpTakes (s : State) (p : Nat) (domain : Byte) : Bool :=
  s.ptpOn p && s.io Reg.PTP_CFG_DOMAIN = domain.toNat

/-- A port changes state, with event 232, and AUTO looks at its source (R423, R434). -/
def State.setPtpState (s : State) (p st : Nat) : State :=
  if s.ptpState p = st then s else ((s.setIo (Reg.PTP_PORT_STAT_STATE p) st).post 232).autoSource

/-- The clock identity: the EUI-64 of port 0's MAC (IEEE 1588, log entry 30). -/
def State.clockId (s : State) : Nat :=
  let hi := s.io (Reg.ETH_MAC_HI_MAC 0)
  let lo := s.io (Reg.ETH_MAC_LO_MAC 0)
  (hi * 256 + lo / 2 ^ 24) * 2 ^ 40 + 0xFFFE * 2 ^ 24 + lo % 2 ^ 24

/-- A dataset as clause 9.3.4 compares it: what ranks the grandmaster, the grandmaster, its steps, the sender of the Announce and the
port that received it. -/
structure PtpRank where
  rank : Nat
  gm : Nat
  steps : Nat
  sender : Nat
  port : Nat
deriving DecidableEq, Repr

/-- priority1, class, accuracy, variance, priority2 and identity in the order in which they are compared. -/
def dsRank (p1 cls acc var p2 gm : Nat) : Nat := ((((p1 * 256 + cls) * 256 + acc) * 65536 + var) * 256 + p2) * 2 ^ 64 + gm

/-- How dataset `a` compares with `b` for the clock `me` (IEEE 1588-2019 clause 9.3.4): 2 better, 1 better by topology, negative
where `b` is, 0 where they are one. -/
def dsCompare (me : Nat) (a b : PtpRank) : Int :=
  if a.gm ≠ b.gm then (if a.rank < b.rank then 2 else -2)
  else if b.steps + 1 < a.steps then -2
  else if a.steps + 1 < b.steps then 2
  else if b.steps < a.steps then (if me < a.sender then -2 else if a.sender < me then -1 else 0)
  else if a.steps < b.steps then (if me < b.sender then 2 else if b.sender < me then 1 else 0)
  else if a.sender ≠ b.sender then (if a.sender < b.sender then 1 else -1)
  else if a.port = b.port then 0
  else if a.port < b.port then 1 else -1

/-- A foreign master's dataset, received on port `p`. -/
def Foreign.dataset (f : Foreign) (p : Nat) : PtpRank :=
  ⟨dsRank f.msg.p1.toNat f.msg.cls.toNat f.msg.accuracy.toNat f.msg.variance.toNat f.msg.p2.toNat f.msg.gmId.toNat,
    f.msg.gmId.toNat, f.msg.steps.toNat, f.msg.sender.toNat, p + 1⟩

/-- The window of foreign masters: 4 Announce intervals of 1 s, in ticks of 2 ns (IEEE 1588-2019 clause 9.3.2.4, R419). -/
def foreignWindow : Nat := 4 * 500000000

/-- Two Announces within the window qualify a foreign master. -/
def Foreign.qualified (f : Foreign) (now : Nat) : Bool :=
  match f.prev with
  | some t => decide (now ≤ t + foreignWindow)
  | none => false

/-- clockClass of the device (R419). -/
def State.ownClass (s : State) : Nat := if s.ioBit Reg.PTP_CFG_SLAVE_ONLY then 255 else 248

/-- The device's own dataset (R419). -/
def State.ownRank (s : State) : PtpRank :=
  ⟨dsRank (s.io Reg.PTP_PRIO_P1) s.ownClass 0xFE 0xFFFF (s.io Reg.PTP_PRIO_P2) s.clockId, s.clockId, 0, s.clockId, 0⟩

/-- The device's own dataset as it announces it (R419). -/
def State.ownDataset (s : State) (utc : Nat) (tlv : Bool) : PtpDataset :=
  ⟨s.clockId, s.io Reg.PTP_PRIO_P1, s.ownClass, 0xFE, 0xFFFF, s.io Reg.PTP_PRIO_P2, 0, 0xA0, utc, true, true, tlv⟩

/-- The better of two foreign masters, each with the port that heard it. -/
def betterOf (me : Nat) (a : Option (Nat × Foreign)) (e : Nat × Foreign) : Option (Nat × Foreign) :=
  match a with
  | none => some e
  | some b => if 0 < dsCompare me (e.2.dataset e.1) (b.2.dataset b.1) then some e else some b

/-- Erbest of port `p`: its best qualified foreign master. -/
def State.portBest (s : State) (p : Nat) : Option (Nat × Foreign) :=
  (((s.ptpOf p).foreign.filter (·.qualified s.tb.ticks)).map (fun f => (p, f))).foldl (betterOf s.clockId) none

/-- The ports that run PTP. -/
def State.ptpPorts (s : State) : List Nat := (List.range 4).filter s.ptpOn

/-- Ebest of the clock, with its port. -/
def State.ptpBest (s : State) : Option (Nat × Foreign) :=
  (s.ptpPorts.filterMap s.portBest).foldl (betterOf s.clockId) none

/-- The device's own dataset compared with a foreign master's. -/
def State.ownAgainst (s : State) (e : Nat × Foreign) : Int := dsCompare s.clockId s.ownRank (e.2.dataset e.1)

/-- The grandmaster the device announces: its parent's, one step further, where a better clock than its own is followed, else
itself (R419). -/
def State.announced (s : State) : PtpDataset :=
  let utc := s.io Reg.PTP_UTC_OFF
  let tlv := s.ioBit Reg.PTP_CFG_PROFILE
  match s.ptpBest with
  | some (q, f) =>
    if s.ownAgainst (q, f) < 0 then
      ⟨f.msg.gmId.toNat, f.msg.p1.toNat, f.msg.cls.toNat, f.msg.accuracy.toNat, f.msg.variance.toNat, f.msg.p2.toNat,
        f.msg.steps.toNat + 1, 0xA0, utc, true, true, tlv⟩
    else s.ownDataset utc tlv
  | none => s.ownDataset utc tlv

/-- PTP_GM shows the grandmaster that an Announce names (R419, R432). -/
def State.showGm (s : State) (f : Foreign) : State :=
  let g := f.msg.gmId.toNat
  let s := (s.setIo Reg.PTP_GM_LO_ID (g % 2 ^ 32)).setIo Reg.PTP_GM_HI_ID (g / 2 ^ 32)
  let s := (s.setIo Reg.PTP_GM_CLASS f.msg.cls.toNat).setIo Reg.PTP_GM_STEPS f.msg.steps.toNat
  s.setIo Reg.PTP_GM_TTI (min 0xFFFF f.msg.tti.toNat)

/-- The state decision of one port by clause 9.3.3, for a clock of class above 127 (R419, log entry 30). -/
def State.ptpDecide (s : State) (best : Option (Nat × Foreign)) (p : Nat) : State :=
  let st := s.ptpState p
  if st = ptpListening ∧ s.portBest p = none then s else
  match best with
  | none => if st = ptpSlave ∨ st = ptpUncalibrated ∨ st = ptpPassive then s.setPtpState p ptpListening else s
  | some (q, f) =>
    if 0 < s.ownAgainst (q, f) then
      if s.ioBit Reg.PTP_CFG_SLAVE_ONLY then s.setPtpState p ptpListening
      else if st = ptpMaster ∨ st = ptpPreMaster then s else s.setPtpState p ptpPreMaster
    else if q = p then
      (if st = ptpSlave ∨ st = ptpUncalibrated then s else s.setPtpState p ptpUncalibrated).showGm f
    else if s.ioBit Reg.PTP_CFG_SLAVE_ONLY then s.setPtpState p ptpListening
    else match s.portBest p with
      | some (_, g) =>
        if dsCompare s.clockId (f.dataset q) (g.dataset p) = 1 then s.setPtpState p ptpPassive
        else if st = ptpMaster ∨ st = ptpPreMaster then s else s.setPtpState p ptpPreMaster
      | none => if st = ptpMaster ∨ st = ptpPreMaster then s else s.setPtpState p ptpPreMaster

/-- The best master clock algorithm over the ports in use. -/
def State.bmca (s : State) : State := s.ptpPorts.foldl (fun s p => s.ptpDecide s.ptpBest p) s

/-- A sample of PTP reaches the servo when PTP is its source (R420, R421). -/
def State.ptpSample (s : State) (p : Nat) (theta : Int) : State :=
  let s := if s.ptpState p = ptpUncalibrated then s.setPtpState p ptpSlave else s
  if s.servoSource = 0 then s.servoSample theta else s

/-- meanLinkDelay of a port, and its register (R420, R432). -/
def State.setLinkDelay (s : State) (p : Nat) (d : Int) : State :=
  (s.setPtp p { s.ptpOf p with delay := some d, req := none, resp := none }).setIo (Reg.PTP_PORT_STAT_DLY p)
    (clamp 0 (2 ^ 24 - 1) (d / 2 ^ 8)).toNat

/-- Own timestamps of port `p` corrected by ETH_TS_ADJ, in 2^-16 ns: of a message that arrives, and of one that departs (R418). -/
def State.tsIn (s : State) (p : Nat) (t : Int) : Int := t + s.ioInt (Reg.ETH_TS_ADJ_INGRESS p) * 65536 / 1000
def State.tsOut (s : State) (p : Nat) (t : Int) : Int := t + s.ioInt (Reg.ETH_TS_ADJ_EGRESS p) * 65536 / 1000

/-- Destination of a PTP message by its type: peer delay messages have their own (R419). -/
def ptpDst (type : Nat) : Nat := if type = 2 || type = 3 || type = 0xA then macPdelay else macPtp

/-- A PTP message leaves port `p` alone; in HSR it leaves in both directions with the next HSR tag (R400, R401). -/
def State.ptpSend (s : State) (p r : Nat) (m : PtpOut) : State :=
  let o := Output.ptp p { m with dst := ptpDst m.type }
  if s.pairMode (p / 2) = 2 then (s.pairSend (p / 2)).ethSendAll r o (s.pairPorts p) else s.ethSend r o p

/-- The port leaves the clock: its lane is down. -/
def State.ptpDown (s : State) (p : Nat) : State :=
  if s.ptpState p = ptpInit then s
  else
    let was := s.ptpState p
    let s := (s.setPtp p {}).setPtpState p ptpInit
    let s := if was = ptpSlave ∧ s.servoSource = 0 then s.servoLost else s
    s.bmca

/-- A port's lane comes up or goes down, with event 224 + p (R393); its PTP port starts to listen or leaves. -/
def State.portChange (s : State) (p : Nat) (up : Bool) : State :=
  if s.ioBit (Reg.ETH_PORT_STAT_UP p) = up then s
  else
    let s := (s.setIo (Reg.ETH_PORT_STAT_UP p) (b2n up)).post (224 + p)
    if up then (if s.ptpOn p then s.setPtpState p ptpListening else s) else s.ptpDown p

end Sys2Proof.Machine
end

