-- ==== Sys2Proof/Machine/LaneOps.lean ====
section
/-! DEFINITION. Shared operations of the serial lanes: states, attempts, leaving service, and what the Nolri bond and the
Ethernet port of a lane learn of it (R335 to R359, R380 to R382). -/

namespace Sys2Proof.Machine

def State.lane (s : State) (k : Nat) : LaneSt := tabGet {} s.lanes k
def State.setLane (s : State) (k : Nat) (x : LaneSt) : State := { s with lanes := tabSet {} s.lanes k x }

/-- States and phases of a lane. -/
def laneOff : Nat := 0
def lanePllWait : Nat := 1
def laneTrain : Nat := 2
def laneBackoff : Nat := 3
def laneUp : Nat := 4
def laneAbsent : Nat := 5
def laneHalf : Nat := 6
def phaseCdr : Nat := 0
def phaseEq : Nat := 1
def phaseAlign : Nat := 2
def phaseHandshake : Nat := 3

def State.laneState (s : State) (k : Nat) : Nat := s.io (Reg.LANE_STAT_STATE k)

/-- Lane `k` posts its event (R359). -/
def State.laneEvent (s : State) (k : Nat) : State := s.post (128 + k)

/-- A W1C flag of LANE_STAT sets, and posts (R359). -/
def State.laneFlag (s : State) (k : Nat) (f : Field) : State := (s.raiseIo f).laneEvent k

/-! ## What the user of a lane learns -/

/-- Bond positions of link `l` (R360). -/
def State.positions (s : State) (l : Nat) : List Nat := List.range (s.io (Reg.NOL_LINK_LANES_N l) + 1)

/-- A mask of the positions of link `l` that satisfy a test of their lane. -/
def State.posMask (s : State) (l : Nat) (p : Nat → Bool) : Nat :=
  (s.positions l).foldl (fun m b => if p b then m + 2 ^ b else m) 0

/-- The direction of lane `k` serves its user: UP, or HALF with that direction in service. -/
def State.txServes (s : State) (k : Nat) : Bool :=
  s.laneState k = laneUp || (s.laneState k = laneHalf && s.ioBit (Reg.LANE_STAT_TX_SVC k))
def State.rxServes (s : State) (k : Nat) : Bool :=
  s.laneState k = laneUp || (s.laneState k = laneHalf && s.ioBit (Reg.LANE_STAT_RX_SVC k))

/-- TX_SET, RX_SET and PEER_NODE of link `l` as its lanes stand: a position kept out of the bond is in neither set, and
the transmitter deals only on positions the peer lists; with no lane to send on, what the peer last listed is forgotten. A
frame in progress is lost with a lane of the dealing set (R380 to R382). -/
def State.relink (s : State) (l : Nat) : State :=
  if s.io (Reg.NOL_LINK_CFG_EN l) = 0 then s else
  let x := s.link l
  let tx := s.posMask l (fun b => s.txServes (s.laneAt l b) && !x.keptOut.getLsbD b)
  let rx := s.posMask l (fun b => s.rxServes (s.laneAt l b) && !x.keptOut.getLsbD b)
  let x := if tx = 0 then { x with peerRx := 0xF } else x
  let set := Nat.land tx x.peerRx.toNat
  let cut : Bool := s.psNow < x.busyTo && (s.positions l).any (fun b => bitOf (s.io (Reg.NOL_LINK_STAT_TX_SET l)) b && !bitOf set b)
  let s := if cut then s.send (.nolriLost l) else s
  let s := (s.setLink l (if cut then { x with busyTo := s.psNow } else x)).setIo (Reg.NOL_LINK_STAT_TX_SET l) set
  let s := s.setIo (Reg.NOL_LINK_STAT_RX_SET l) rx
  match (s.positions l).find? (fun b => bitOf rx b) with
  | some b => s.setIo (Reg.NOL_LINK_STAT_PEER_NODE l) (s.io (Reg.LANE_PEER_NODE (s.laneAt l b)))
  | none => s

/-- The links that use lane `k`. -/
def State.linksOn (s : State) (k : Nat) : List Nat :=
  (List.range 32).filter (fun l => s.io (Reg.NOL_LINK_CFG_EN l) = 1 && (s.positions l).any (fun b => s.laneAt l b = k))

/-- The user of lane `k` learns of a change: the bond's sets, or the port's UP (R350). -/
def State.tellUser (s : State) (k : Nat) : State :=
  if s.io (Reg.LANE_CFG_USE k) = 1 then (s.linksOn k).foldl State.relink s
  else if s.io (Reg.LANE_CFG_USE k) = 2 then
    s.portChange (s.io (Reg.LANE_CFG_PORT k)) (s.laneState k = laneUp)
  else s

/-- The lane goes to a state with the given service bits; a change of STATE posts (R359). No window is in progress any
more (R348), and clock recovery stops where the receiver only detects signal (R340, R352). -/
def State.toLane (s : State) (k st : Nat) (tx rx : Bool) : State :=
  let was := s.laneState k
  let s := s.setIo (Reg.LANE_ALIGN_BUSY k) 0
  let s := if rx ∨ st = laneTrain then s else s.setIo (Reg.LANE_STAT_CDR_LOCK k) 0
  let s := ((s.setIo (Reg.LANE_STAT_STATE k) st).setIo (Reg.LANE_STAT_TX_SVC k) (b2n tx)).setIo
    (Reg.LANE_STAT_RX_SVC k) (b2n rx)
  let s := if was = st then s else s.laneEvent k
  s.tellUser k

/-! ## Attempts (R339 to R341, R351) -/

/-- An attempt starts. -/
def State.laneAttempt (s : State) (k : Nat) (poll : Bool) : State :=
  let x := s.lane k
  let s := s.setLane k { x with poll := poll, sdSeen := s.ioBit (Reg.LANE_STAT_SD k), readyGot := 0, readySent := 0,
                                low := 0, ctleLow := 0, stepFrom := none }
  let s := (s.setIo (Reg.LANE_STAT_PHASE k) phaseCdr).setIo (Reg.LANE_STAT_CDR_LOCK k) 0
  s.toLane k laneTrain false false

/-- A training sequence starts with the retry count at 0. -/
def State.laneSequence (s : State) (k : Nat) : State := (s.setIo (Reg.LANE_STAT_RETRY k) 0).laneAttempt k false

/-- The lane enters ABSENT after its last retry, or after a poll (R341, R351). -/
def State.laneFails (s : State) (k : Nat) (flag : Field) : State :=
  let s := s.laneFlag k flag
  if (s.lane k).poll then s.toLane k laneAbsent false false
  else if s.io Reg.LANE_GLB_CFG_RETRIES ≤ s.io (Reg.LANE_STAT_RETRY k) then
    (s.toLane k laneAbsent false false).laneFlag k (Reg.LANE_STAT_ABSENT_SEEN k)
  else s.toLane k laneBackoff false false

/-- `n` retrains counted: the counter sticks at RETRAIN_LIMIT and posts event 249 when it reaches it (R12, R350). -/
def State.countRetrain (s : State) (k n : Nat) : State :=
  let c := s.io (Reg.LANE_RETRAIN_COUNT k)
  let lim := s.io Reg.LANE_GLB_CFG_RETRAIN_LIMIT
  let s := s.setIo (Reg.LANE_RETRAIN_COUNT k) (max c (min lim (c + n)))
  if c < lim ∧ lim ≤ c + n then s.post 249 else s

/-- A lane leaves service for TRAIN; only an entry from UP counts a retrain (R350, R353). -/
def State.laneRetrain (s : State) (k : Nat) : State :=
  let s := if s.laneState k = laneUp then s.countRetrain k 1 else s
  s.laneSequence k

/-- The PLL of its quad that lane `k` runs from: PLL 0 takes the rate of the quad's lowest lane in use (R336, log entry
28). -/
def State.pllOf (s : State) (k : Nat) : Nat :=
  let q := k / 4 * 4
  match [q, q + 1, q + 2, q + 3].find? (fun j => s.io (Reg.LANE_CFG_USE j) ≠ 0) with
  | some j => if s.io (Reg.LANE_CFG_RATE j) = s.io (Reg.LANE_CFG_RATE k) then 0 else 1
  | none => 0

def pllLost (q p : Nat) : Field := if p = 0 then Reg.LANE_QUAD_STAT_PLL0_LOST q else Reg.LANE_QUAD_STAT_PLL1_LOST q
def pllLock (q p : Nat) : Field := if p = 0 then Reg.LANE_QUAD_STAT_PLL0_LOCK q else Reg.LANE_QUAD_STAT_PLL1_LOCK q

/-- A lane that is not OFF loses its clock or its supply (R336, R350, R356); an attempt fails with it (R341). -/
def State.lanePllLost (s : State) (k : Nat) : State :=
  if s.laneState k = laneOff then s
  else
    let s := if s.laneState k = laneTrain then s.laneFlag k (Reg.LANE_STAT_TIMEOUT k) else s
    (s.laneFlag k (Reg.LANE_STAT_PLL_LOST k)).toLane k lanePllWait false false

/-- A quad PLL loses lock (R336). -/
def State.quadLost (s : State) (q p : Nat) : State :=
  let s := (s.raiseIo (pllLost q p)).setIo (pllLock q p) 0
  [4 * q, 4 * q + 1, 4 * q + 2, 4 * q + 3].foldl (fun s k => if s.pllOf k = p then s.lanePllLost k else s) s

/-- The lane reaches UP; sleeps written meanwhile act now (R342, R343, R352). -/
def State.laneIsUp (s : State) (k : Nat) : State :=
  let s := s.toLane k laneUp true true
  let tx := !s.ioBit (Reg.LANE_CTL_TX_SLEEP k)
  let rx := !s.ioBit (Reg.LANE_CTL_RX_SLEEP k)
  if tx && rx then s else s.toLane k laneHalf tx rx

/-- UP or HALF, from the service bits (R352). -/
def State.toService (s : State) (k : Nat) (tx rx : Bool) : State :=
  s.toLane k (if tx && rx then laneUp else laneHalf) tx rx

/-- The lane sends READY (R342). -/
def State.sendsReady (s : State) (k : Nat) : Bool :=
  s.ioBit (Reg.LANE_ALIGN_ALIGNED k) && decide (s.io (Reg.LANE_CFG_FOM_MIN k) ≤ s.io (Reg.LANE_STAT_FOM k))

/-- Word width of a rate (R335). -/
def wordWidth (rate : Nat) : Nat := if is8b10b rate then 20 else 66

/-- XOR of bytes. -/
def xorBytes (bs : List Byte) : Byte := bs.foldl (· ^^^ ·) 0

/-- The training word lane `k` sends now, with READY or without it: K28.5 or block type 0x4B, and bytes 1 to 7 (R342). -/
def State.trainingBytes (s : State) (k : Nat) (ready : Bool) : List Byte :=
  let flags := b2n ready + 2 * s.io (Reg.LANE_ALIGN_ALIGNED k)
  let b : List Byte := [0x5A, BitVec.ofNat 8 flags, BitVec.ofNat 8 k]
    ++ bytesOf 2 (s.rd (s.worker.getD .d0) Reg.SYS_NODE_NODE_ID) ++ [BitVec.ofNat 8 (s.io (Reg.LANE_STAT_FOM k))]
  (if is8b10b (s.io (Reg.LANE_CFG_RATE k)) then 0xBC else 0x4B) :: b ++ [xorBytes b]

/-- The reference of lane `k`'s quad is present, within 200 ppm (R45). -/
def State.refOk (s : State) (k : Nat) : Bool := !s.power.refLost.getLsbD (k / 16)

/-- What a lane's transmit pins show (R32, R339, R342, R352, R354). -/
inductive LaneTx where
  | highZ | idle | training | user | looped | partner | pattern
deriving DecidableEq, Repr

/-- The transmit pins of lane `k`, by its state and its test: floating until VDDH_SER is present (R32), and idle without a
reference (R45). They follow the state during the boot too, whose lane window trains the lanes (log entry 142). -/
def State.laneTx (s : State) (k : Nat) : LaneTx :=
  let st := s.laneState k
  let test := s.io (Reg.LANE_TEST_LOOP k)
  if !s.power.up.getLsbD 4 then .highZ
  else if !s.refOk k then .idle
  else if st = laneTrain then if s.io (Reg.LANE_CFG_USE k) = 2 then .user else .training
  else if st = laneUp ∨ st = laneHalf then if s.ioBit (Reg.LANE_STAT_TX_SVC k) then .user else .idle
  else if st ≠ laneOff then .idle
  else if test = 1 then .looped
  else if test = 3 then .partner
  else if test = 0 ∧ 1 ≤ s.io (Reg.LANE_TEST_PRBS k) ∧ s.io (Reg.LANE_TEST_PRBS k) ≤ 3 then .pattern
  else .idle

/-- A word cycle of a lane that sends training words. -/
def State.sendTraining (s : State) (k : Nat) : State :=
  if s.laneTx k = .training then s.send (.training k (s.trainingBytes k (s.sendsReady k))) else s

/-- VDDA_SER and VDDH_SER are within threshold (R40). -/
def State.laneSupply (s : State) : Bool :=
  !bitOf (s.io Reg.IOD_RAIL_STAT_UV_NOW) 3 && !bitOf (s.io Reg.IOD_RAIL_STAT_UV_NOW) 4

/-! ## Pattern tests (R355) -/

/-- Taps of a pattern: PRBS7, PRBS15 or PRBS31. -/
def prbsTaps (p : Nat) : Nat × Nat := if p = 1 then (7, 6) else if p = 2 then (15, 14) else (31, 28)

/-- The next bit of a pattern, from the bits before it, newest first: what the generator sends and the checker expects. -/
def prbsNext (p : Nat) (h : List Bool) : Bool :=
  (h.getD ((prbsTaps p).1 - 1) false) != (h.getD ((prbsTaps p).2 - 1) false)

/-- The pattern generator of lane `k` advances by `n` bits, oldest first (R355). -/
def State.prbsSend (s : State) (k p : Nat) : Nat → State × List Bool
  | 0 => (s, [])
  | n + 1 =>
    let x := s.lane k
    let b := prbsNext p x.prbsGen
    let r := State.prbsSend (s.setLane k { x with prbsGen := (b :: x.prbsGen).take 31 }) k p n
    (r.1, b :: r.2)

/-- One bit at the checker: before lock the reference is the received bits, and 64 error-free ones lock it; from then on the
reference runs by itself and each bit that differs is errored. -/
def State.prbsBit (s : State) (k : Nat) (b : Bool) : State :=
  let p := s.io (Reg.LANE_TEST_PRBS k)
  let x := s.lane k
  let ok := b == prbsNext p x.prbsRef
  if s.ioBit (Reg.LANE_TEST_CHK_LOCK k) then
    let s := s.setLane k { x with prbsRef := (prbsNext p x.prbsRef :: x.prbsRef).take 31 }
    if ok then s else s.count .d0 (Reg.LANE_PRBS_ERR_COUNT k) (Reg.LANE_CNT_STAT_PRBS_SAT k) 1
  else
    let good := if ok && decide ((prbsTaps p).1 ≤ x.prbsRef.length) then x.prbsGood + 1 else 0
    let s := s.setLane k { x with prbsRef := (b :: x.prbsRef).take 31, prbsGood := good }
    if 64 ≤ good then s.setIo (Reg.LANE_TEST_CHK_LOCK k) 1 else s

/-- The receiver of lane `k` is on and adapts: TRAIN, UP, HALF with receive in service, or a lane under test. -/
def State.rxOn (s : State) (k : Nat) : Bool :=
  s.laneState k = laneTrain || s.rxServes k
    || (s.laneState k = laneOff && (s.io (Reg.LANE_TEST_LOOP k) ≠ 0 || (1 ≤ s.io (Reg.LANE_TEST_PRBS k) && s.io (Reg.LANE_TEST_PRBS k) ≤ 3)))

/-- The figure of merit (R344). -/
def fom (h v : Nat) : Nat := min (min (4 * h) (2 * v)) 255

/-- One step of the CTLE after a FoM of `f` in UP or HALF (R346). -/
def State.ctleStep (s : State) (k f : Nat) : State :=
  if s.ioBit (Reg.LANE_EQ_FREEZE k) then s else
  let x := s.lane k
  let c := s.io (Reg.LANE_EQ_CTLE k)
  let fell : Bool := match x.stepFrom with
    | some g => decide (f < g)
    | none => false
  if fell then
    let s := s.setLane k { x with stepFrom := none, ctleLow := 0 }
    if s.io (Reg.LANE_EQ_CTLE_LO k) < c then s.setIo (Reg.LANE_EQ_CTLE k) (c - 1)
    else s.laneFlag k (Reg.LANE_STAT_EQ_LIM k)
  else
    let run := if f < s.io (Reg.LANE_CFG_FOM_MIN k) + 16 then x.ctleLow + 1 else 0
    if run < 8 then s.setLane k { x with stepFrom := none, ctleLow := run }
    else if c < s.io (Reg.LANE_EQ_CTLE_HI k) then
      (s.setLane k { x with stepFrom := some f, ctleLow := 0 }).setIo (Reg.LANE_EQ_CTLE k) (c + 1)
    else (s.setLane k { x with stepFrom := none, ctleLow := 0 }).laneFlag k (Reg.LANE_STAT_EQ_LIM k)

/-- The step of one DFE tap: the new value and whether it met its bound (R346). -/
def tapStep (t z : Int) : Int × Bool :=
  (clamp (-31) 31 (t + z.sign), decide (t + z.sign < -31 ∨ 31 < t + z.sign))

end Sys2Proof.Machine
end

