-- ==== Sys2Proof/Machine/Lanes.lean ====
section
/-! DEFINITION. The commands of the serial lanes (R335 to R359). -/

namespace Sys2Proof.Machine

/-- LANE_TRAIN_START (R45, R339): the quad PLL locks, where its reference is present and the lane supplies are good, and the
lane trains, from PHASE = LANES on. -/
def execLaneTrainStart (k : Fin 32) (s : State) : Result :=
  if s.io (Reg.LANE_CFG_USE k) ≠ 0 && s.laneState k ≤ lanePllWait && s.laneSupply && s.refOk k then
    let s := s.setIo (pllLock (k / 4) (s.pllOf k)) 1
    .next (if phaseLanes ≤ s.phase then s.laneSequence k else s)
  else .next s

/-- PHASE 1 begins with the lowest code of the search, or the held one (R345, R346). -/
def State.eqStart (s : State) (k : Nat) : State :=
  let s := if s.ioBit (Reg.LANE_EQ_FREEZE k) then s else s.setIo (Reg.LANE_EQ_CTLE k) (s.io (Reg.LANE_EQ_CTLE_LO k))
  (s.setLane k { s.lane k with eqSeen := 0 }).setIo (Reg.LANE_STAT_PHASE k) phaseEq

/-- LANE_CDR_LOCK (R340): signal detect and clock recovery end the CDR step. -/
def execLaneCdrLock (k : Fin 32) (s : State) : Result :=
  if s.laneState k = laneTrain ∧ s.io (Reg.LANE_STAT_PHASE k) = phaseCdr then
    let s := (s.setIo (Reg.LANE_STAT_SD k) 1).setIo (Reg.LANE_STAT_CDR_LOCK k) 1
    .next ((s.setLane k { s.lane k with sdSeen := true }).eqStart k)
  else .next s

/-- The best of the FoM values taken from code `c` up: code and FoM, the lower code on equal values. -/
def bestFom : List Byte → Nat → Nat × Nat → Nat × Nat
  | [], _, b => b
  | f :: fs, c, b => bestFom fs (c + 1) (if b.2 < f.toNat then (c, f.toNat) else b)

/-- Codes that the search tries, or the held one alone (R345, R346). -/
def State.eqCodes (s : State) (k : Nat) : Nat :=
  if s.ioBit (Reg.LANE_EQ_FREEZE k) then 1 else s.io (Reg.LANE_EQ_CTLE_HI k) + 1 - s.io (Reg.LANE_EQ_CTLE_LO k)

/-- The best code and its FoM once the codes from the present one up have the FoMs `fs`. -/
def State.eqBestWith (s : State) (k : Nat) (fs : List Byte) : Nat × Nat :=
  let x := s.lane k
  let c := s.io (Reg.LANE_EQ_CTLE_LO k) + x.eqSeen
  if x.eqSeen = 0 then bestFom (fs.drop 1) (c + 1) (c, (fs.headD 0).toNat) else bestFom fs c x.eqBest

/-- One FoM of the search: the code's, and the next code is tried (R345). -/
def State.eqMeasure (s : State) (k f : Nat) : State :=
  let x := s.lane k
  if s.io (Reg.LANE_STAT_PHASE k) ≠ phaseEq ∨ s.eqCodes k ≤ x.eqSeen then s else
  let n := x.eqSeen + 1
  let s' := s.setLane k { x with eqSeen := n, eqBest := s.eqBestWith k [BitVec.ofNat 8 f] }
  if n < s.eqCodes k then s'.setIo (Reg.LANE_EQ_CTLE k) (s.io (Reg.LANE_EQ_CTLE_LO k) + n) else s'

/-- LANE_EQ_SEARCH_DONE (R345): with a FoM of every code from CTLE_LO to CTLE_HI, or of the held one (R346), those that
LANE_FOM_MEASURE has not given among the operands, the code with the largest is kept, and PHASE 2 begins with a window. A search that
has not reached CTLE_HI goes on. -/
def execLaneEqSearchDone (k : Fin 32) (foms : List Byte) (s : State) : Result :=
  let left := s.eqCodes k - (s.lane k).eqSeen
  if s.laneState k = laneTrain ∧ s.io (Reg.LANE_STAT_PHASE k) = phaseEq ∧ left ≤ foms.length then
    let foms := foms.take left
    let best := (s.eqBestWith k foms).1
    let s := if s.ioBit (Reg.LANE_EQ_FREEZE k) then s else s.setIo (Reg.LANE_EQ_CTLE k) best
    let s := match foms.getLast? with
      | some f => s.setIo (Reg.LANE_STAT_FOM k) f.toNat
      | none => s
    let s := (s.setIo (Reg.LANE_ALIGN_ALIGNED k) 0).setIo (Reg.LANE_ALIGN_BUSY k) 1
    .next ((s.setIo (Reg.LANE_STAT_PHASE k) phaseAlign).laneEvent k)
  else .next s

/-- A write of 1 to LANE_ALIGN.BITSLIP (R348, R356): the boundary moves one bit, and a window restarts in PHASE 2. -/
def State.bitslipWrite (s : State) (k : Nat) : State :=
  let s := s.setIo (Reg.LANE_ALIGN_SLIPS k) ((s.io (Reg.LANE_ALIGN_SLIPS k) + 1) % wordWidth (s.io (Reg.LANE_CFG_RATE k)))
  if s.laneState k = laneTrain ∧ s.io (Reg.LANE_STAT_PHASE k) = phaseAlign then
    (s.setIo (Reg.LANE_ALIGN_ALIGNED k) 0).setIo (Reg.LANE_ALIGN_BUSY k) 1
  else s

/-- LANE_ALIGN_WINDOW_END (R340, R348, R356): a window of 64 words ends; an aligned one ends the step. A BITSLIP write that
meets the end acts in its place. -/
def execLaneAlignWindowEnd (k : Fin 32) (aligned : Bool) (slip : Option Die) (s : State) : Result :=
  if slip.any s.mayWrite then .next (s.bitslipWrite k)
  else if s.laneState k = laneTrain ∧ s.io (Reg.LANE_STAT_PHASE k) = phaseAlign then
    let s := (s.setIo (Reg.LANE_ALIGN_ALIGNED k) (b2n aligned)).setIo (Reg.LANE_ALIGN_BUSY k) 0
    .next (if aligned then s.setIo (Reg.LANE_STAT_PHASE k) phaseHandshake else s)
  else .next s

/-- A received training word is valid (R342). -/
def wordValid (b1 b2 b3 b4 b5 b6 b7 : Byte) : Bool := b1 = 0x5A && b7 = xorBytes [b1, b2, b3, b4, b5, b6]

/-- The lane sends `n` more training words, with READY (R342). -/
def State.sendTrainings (s : State) (k : Nat) : Nat → State
  | 0 => s
  | n + 1 => State.sendTrainings (s.send (.training k (s.trainingBytes k true))) k n

/-- TRAINING_WORD (R342, R350): a word cycle in which a lane in TRAIN sends a word too. In the handshake 16 consecutive valid
words with READY, and 16 sent with it, bring the lane UP, after 8 more words; a valid word without READY in place of user
words retrains a lane that is UP, and one with it has no effect there. -/
def execTrainingWord (k : Fin 32) (b1 b2 b3 b4 b5 b6 b7 : Byte) (s : State) : Result :=
  let ok := wordValid b1 b2 b3 b4 b5 b6 b7
  let ready := ok && b2.getLsbD 0
  let st := s.laneState k
  let s := s.sendTraining k
  let s := if ok && (decide (st = laneTrain) || decide (st = laneUp) && !ready) then
      ((s.setIo (Reg.LANE_PEER_LANE k) b3.toNat).setIo (Reg.LANE_PEER_FOM k) b6.toNat).setIo (Reg.LANE_PEER_NODE k)
        (b4.toNat + 256 * (b5.toNat % 16))
    else s
  if st = laneUp then .next (if ok && !ready then s.laneRetrain k else s)
  else if st = laneTrain ∧ s.io (Reg.LANE_STAT_PHASE k) = phaseHandshake ∧ s.io (Reg.LANE_CFG_USE k) = 1 then
    let x := s.lane k
    let sent := if s.sendsReady k then min 16 (x.readySent + 1) else x.readySent
    let got := if ready then min 16 (x.readyGot + 1) else 0
    let s := s.setLane k { x with readySent := sent, readyGot := got }
    .next (if sent = 16 ∧ got = 16 then (s.sendTrainings k 8).laneIsUp k else s)
  else .next s

/-- PCS_LINK_UP (R343): an Ethernet lane enters UP, only while its FoM is at least FOM_MIN. -/
def execPcsLinkUp (k : Fin 32) (s : State) : Result :=
  if s.laneState k = laneTrain ∧ s.io (Reg.LANE_STAT_PHASE k) = phaseHandshake ∧ s.io (Reg.LANE_CFG_USE k) = 2
      ∧ s.io (Reg.LANE_CFG_FOM_MIN k) ≤ s.io (Reg.LANE_STAT_FOM k) then .next (s.laneIsUp k)
  else .next s

/-- LANE_ATTEMPT_TIMEOUT (R341). -/
def execLaneAttemptTimeout (k : Fin 32) (s : State) : Result :=
  .next (if s.laneState k = laneTrain then s.laneFails k (Reg.LANE_STAT_TIMEOUT k) else s)

/-- SIGNAL_DETECT_LOSS (R341, R350, R353): a loss after detection fails an attempt; a lane in service trains again, or
goes to HALF where the peer's sleep is announced. -/
def execSignalDetectLoss (k : Fin 32) (s : State) : Result :=
  let st := s.laneState k
  let seen := (s.lane k).sdSeen || s.ioBit (Reg.LANE_STAT_SD k)
  let s := (s.setIo (Reg.LANE_STAT_SD k) 0).setIo (Reg.LANE_STAT_CDR_LOCK k) 0
  if st = laneTrain then .next (if seen then s.laneFails k (Reg.LANE_STAT_LOS k) else s)
  else if s.rxServes k then
    if s.ioBit (Reg.LANE_CTL_PEER_SLEEP_OK k) then .next (s.toService k (s.ioBit (Reg.LANE_STAT_TX_SVC k)) false)
    else .next ((s.laneFlag k (Reg.LANE_STAT_LOS k)).laneRetrain k)
  else .next s

/-- SIGNAL_DETECT_RISE (R341, R351): a lane in ABSENT trains; an attempt has its signal. -/
def execSignalDetectRise (k : Fin 32) (s : State) : Result :=
  let s := s.setIo (Reg.LANE_STAT_SD k) 1
  let st := s.laneState k
  if st = laneAbsent then .next (s.laneSequence k)
  else if st = laneTrain then .next (s.setLane k { s.lane k with sdSeen := true })
  else .next s

/-- LANE_BACKOFF_END (R341): the next retry. -/
def execLaneBackoffEnd (k : Fin 32) (s : State) : Result :=
  .next (if s.laneState k = laneBackoff then
    (s.setIo (Reg.LANE_STAT_RETRY k) (s.io (Reg.LANE_STAT_RETRY k) + 1)).laneAttempt k false else s)

/-- LANE_ABSENT_POLL (R351): one attempt, which returns to ABSENT without backoff when it fails. -/
def execLaneAbsentPoll (k : Fin 32) (s : State) : Result :=
  .next (if s.laneState k = laneAbsent then (s.setIo (Reg.LANE_STAT_RETRY k) 0).laneAttempt k true else s)

/-- LANE_FOM_MEASURE (R344 to R347): the FoM, the search's next code in PHASE 1, the CTLE in UP and HALF, and a retrain after three low values. -/
def execLaneFomMeasure (k : Fin 32) (h v : Nat) (s : State) : Result :=
  if !s.rxOn k then .next s
  else
    let f := fom h v
    let s := s.setIo (Reg.LANE_STAT_FOM k) f
    if s.rxServes k then
      let s := s.ctleStep k f
      let x := s.lane k
      let low := if f < s.io (Reg.LANE_CFG_FOM_MIN k) then x.low + 1 else 0
      let s := s.setLane k { x with low := low }
      .next (if 3 ≤ low then (s.laneFlag k (Reg.LANE_STAT_FOM_LOW k)).laneRetrain k else s)
    else .next (if s.laneState k = laneTrain then s.eqMeasure k f else s)

/-- DFE_UPDATE (R346): each tap takes one step by its sign, within its bound. -/
def execDfeUpdate (k : Fin 32) (signs : List Int) (s : State) : Result :=
  let on := s.rxOn k && !(s.laneState k = laneTrain && s.io (Reg.LANE_STAT_PHASE k) = phaseCdr)
  if !on || s.ioBit (Reg.LANE_EQ_FREEZE k) then .next s
  else
    let v := s.io (Reg.LANE_DFE_TAPS k)
    let ts := (List.range 5).map (fun t => tapStep (signed 6 (v / 2 ^ (6 * t))) (signs.getD t 0))
    let w := (ts.zip (List.range 5)).foldl (fun m e => m + unsigned 6 e.1.1 * 2 ^ (6 * e.2)) 0
    let s := s.setIo (Reg.LANE_DFE_TAPS k) w
    .next (if ts.any (·.2) then s.laneFlag k (Reg.LANE_STAT_EQ_LIM k) else s)

/-- Invalid code-groups, or sync headers, within 64 that lose the alignment (R349). -/
def alignLimit (rate : Nat) : Nat := if is8b10b rate then 4 else 16

/-- LANE_ALIGN_LOSS (R349, R350): the invalid words are counted, and enough of them within 64 make the lane train again. -/
def execLaneAlignLoss (k : Fin 32) (invalid : Nat) (s : State) : Result :=
  if s.rxServes k then
    let s := s.count .d0 (Reg.LANE_CV_CNT_COUNT k) (Reg.LANE_CNT_STAT_CV_SAT k) invalid
    .next (if alignLimit (s.io (Reg.LANE_CFG_RATE k)) ≤ invalid then
      (s.laneFlag k (Reg.LANE_STAT_ALIGN_LOST k)).laneRetrain k else s)
  else .next s

/-- QUAD_PLL_UNLOCK (R336). -/
def execQuadPllUnlock (q : Fin 8) (pll : Fin 2) (s : State) : Result := .next (s.quadLost q pll)

/-- LANE_REF_LOSS (R45): the four quads of the reference lose the lock of both PLLs until it is back within 200 ppm. -/
def execLaneRefLoss (ref : Fin 2) (absent : Bool) (s : State) : Result :=
  let s := { s with power := { s.power with refLost := setBit s.power.refLost ref absent } }
  if !absent then .next s
  else .next ((List.range 4).foldl (fun s i => (s.quadLost (4 * ref + i) 0).quadLost (4 * ref + i) 1) s)

/-- A write of 1 to LANE_CTL.RETRAIN (R350, R351, R356): a lane in service or in ABSENT trains, and a backoff ends. -/
def State.retrainWrite (s : State) (k : Nat) : State :=
  let st := s.laneState k
  if st = laneUp ∨ st = laneHalf ∨ st = laneAbsent ∨ st = laneBackoff then s.laneRetrain k else s

/-- LANE_RETRAIN (R350). -/
def execLaneRetrain (d : Die) (k : Fin 32) (s : State) : Result := .next (if s.mayWrite d then s.retrainWrite k else s)

/-- LANE_BITSLIP (R348). -/
def execLaneBitslip (d : Die) (k : Fin 32) (s : State) : Result := .next (if s.mayWrite d then s.bitslipWrite k else s)

/-- LANE_RT_CLR (R350, R356): the counter is zeroed, then counts the retrains of that cycle. -/
def execLaneRtClr (d : Die) (k : Fin 32) (events : Nat) (s : State) : Result :=
  .next (if s.mayWrite d then (s.setIo (Reg.LANE_RETRAIN_COUNT k) 0).countRetrain k events else s)

/-- A write of LANE_CTL.TX_SLEEP (R352): it acts in UP and HALF, and stays latched otherwise. -/
def State.txSleepWrite (s : State) (k : Nat) (v : Bool) : State :=
  let s := s.setIo (Reg.LANE_CTL_TX_SLEEP k) (b2n v)
  if s.laneState k = laneUp ∨ s.laneState k = laneHalf then s.toService k (!v) (s.ioBit (Reg.LANE_STAT_RX_SVC k)) else s

/-- LANE_TX_SLEEP (R352). -/
def execLaneTxSleep (d : Die) (k : Fin 32) (sleep : Bool) (s : State) : Result :=
  .next (if s.mayWrite d then s.txSleepWrite k sleep else s)

/-- A write of LANE_CTL.RX_SLEEP (R352, R353): asleep at once; a direction that wakes returns by LANE_RX_RELOCK. -/
def State.rxSleepWrite (s : State) (k : Nat) (v : Bool) : State :=
  let s := s.setIo (Reg.LANE_CTL_RX_SLEEP k) (b2n v)
  if v ∧ (s.laneState k = laneUp ∨ s.laneState k = laneHalf) then
    s.toService k (s.ioBit (Reg.LANE_STAT_TX_SVC k)) false
  else s

/-- LANE_RX_SLEEP (R352). -/
def execLaneRxSleep (d : Die) (k : Fin 32) (sleep : Bool) (s : State) : Result :=
  .next (if s.mayWrite d then s.rxSleepWrite k sleep else s)

/-- LANE_RX_RELOCK (R346, R347, R353): an aligned window and a good FoM, which the equaliser takes as any other, return the
direction to service; otherwise the lane trains without counting a retrain. -/
def execLaneRxRelock (k : Fin 32) (aligned : Bool) (h v : Nat) (s : State) : Result :=
  if s.laneState k = laneHalf ∧ s.io (Reg.LANE_STAT_RX_SVC k) = 0 ∧ s.io (Reg.LANE_CTL_RX_SLEEP k) = 0 then
    let s := (s.setIo (Reg.LANE_ALIGN_ALIGNED k) (b2n aligned)).setIo (Reg.LANE_STAT_FOM k) (fom h v)
    let s := s.setIo (Reg.LANE_STAT_SD k) 1
    if aligned && decide (s.io (Reg.LANE_CFG_FOM_MIN k) ≤ fom h v) then
      let s := s.ctleStep k (fom h v)
      let s := s.setLane k { s.lane k with low := 0 }
      .next ((s.setIo (Reg.LANE_STAT_CDR_LOCK k) 1).toService k (s.ioBit (Reg.LANE_STAT_TX_SVC k)) true)
    else .next (s.laneRetrain k)
  else .next s

/-- A test of lane `k` may be selected (R354). -/
def State.testAllowed (s : State) (k : Nat) : Bool :=
  (s.io (Reg.LANE_CFG_USE k) = 0 || s.phase = phaseMaint) && !(s.phase = phaseMaint && decide (k < 2))

/-- A write of LANE_TEST.LOOP (R354). -/
def State.loopWrite (s : State) (k v : Nat) : State :=
  if s.testAllowed k && decide (v < 4) then s.setIo (Reg.LANE_TEST_LOOP k) v
  else s.laneFlag k (Reg.LANE_STAT_LB_REFUSED k)

/-- LANE_LOOPBACK (R354). -/
def execLaneLoopback (d : Die) (k : Fin 32) (loop : BitVec 3) (s : State) : Result :=
  .next (if s.mayWrite d then s.loopWrite k loop.toNat else s)

/-- A write of LANE_TEST.PRBS (R354, R355): the checker starts without lock, the generator with ones (log entry 141). -/
def State.prbsWrite (s : State) (k v : Nat) : State :=
  if s.testAllowed k then
    let s := s.setLane k { s.lane k with prbsRef := [], prbsGood := 0, prbsGen := List.replicate 31 true }
    (s.setIo (Reg.LANE_TEST_PRBS k) v).setIo (Reg.LANE_TEST_CHK_LOCK k) 0
  else s.laneFlag k (Reg.LANE_STAT_LB_REFUSED k)

/-- LANE_PRBS (R355). -/
def execLanePrbs (d : Die) (k : Fin 32) (prbs : BitVec 3) (s : State) : Result :=
  .next (if s.mayWrite d then s.prbsWrite k prbs.toNat else s)

/-- Bits with their polarity inverted where the field is 1 (R357). -/
def State.invert (s : State) (f : Field) (bits : List Bool) : List Bool := bits.map (fun b => b != s.ioBit f)

/-- PRBS_CHECKER_LOCK (R354, R355): as many bits as the checker takes leave the generator. What leaves the serialiser has the polarity
of TX_INV and what enters the receiver that of RX_INV (R357). Under a near-end loopback the checker
takes the lane's own bits, else those received, which a far-end loopback sends back. After 64 error-free bits the checker locks,
and counts errored bits from then on; a loss of lock, whose condition the spec does not give, does not clear the count (log
entry 141). -/
def execPrbsCheckerLock (k : Fin 32) (bits : List Bool) (lost : Bool) (s : State) : Result :=
  let p := s.io (Reg.LANE_TEST_PRBS k)
  let loop := s.io (Reg.LANE_TEST_LOOP k)
  if 1 ≤ p ∧ p ≤ 3 then
    let (s, own) := s.prbsSend k p bits.length
    let s := match s.laneTx k with
      | .looped | .pattern => s.send (.pattern k (s.invert (Reg.LANE_CFG_TX_INV k) own))
      | .partner =>
        s.send (.pattern k (s.invert (Reg.LANE_CFG_TX_INV k) (s.invert (Reg.LANE_CFG_RX_INV k) bits)))
      | .highZ | .idle | .training | .user => s
    let bits := if loop = 2 then own
      else s.invert (Reg.LANE_CFG_RX_INV k) (if loop = 1 then s.invert (Reg.LANE_CFG_TX_INV k) own else bits)
    let s := bits.foldl (State.prbsBit · k) s
    .next (if lost then
      (s.setLane k { s.lane k with prbsRef := [], prbsGood := 0 }).setIo (Reg.LANE_TEST_CHK_LOCK k) 0 else s)
  else .next s

end Sys2Proof.Machine
end

