-- ==== Sys2Proof/Machine/Meas.lean ====
section
/-! DEFINITION. The commands of the measurement chain (R166 to R196). -/

namespace Sys2Proof.Machine

/-! ## Sense frames (R171 to R178) -/

/-- The half-bits of a frame's cells, each the third of its four samples (R174, log entry 159). -/
def halvesOf : List Bool → List (Bool × Bool)
  | _ :: _ :: a :: _ :: _ :: _ :: b :: _ :: rest => (a, b) :: halvesOf rest
  | _ => []

/-- One more sample of the line: the run it belongs to, and the longest run so far (R174). -/
def runStep (x : (Bool × Nat) × Nat) (b : Bool) : (Bool × Nat) × Nat :=
  let r := if x.1.1 = b then (b, x.1.2 + 1) else (b, 1)
  (r, max x.2 r.2)

/-- The run that reaches a line error, and that which is a fault dash, in samples (R174, R179). -/
def runError : Nat := 14
def runDash : Nat := 16

/-- A cell by its half-bits: its bit, which is 1 where the second half-bit is low, and whether it is an echo mark, with both
halves equal (R171, R174, R177). -/
def cellOf (h : Bool × Bool) : Bool × Bool := (!h.2, h.1 == h.2)

/-- The number that cells spell, first cell most significant. -/
def cellsNat : List Bool → Nat
  | [] => 0
  | b :: bs => b2n b * 2 ^ bs.length + cellsNat bs

/-- One step of the CRC of x^4 + x + 1 (R172). -/
def crc4Step (c : Nat) (b : Bool) : Nat :=
  if (bitOf c 3) != b then (c * 2 % 16) ^^^ 3 else c * 2 % 16

/-- The CRC-4 of cells (R172). -/
def crc4 (bs : List Bool) : Nat := bs.foldl crc4Step 0

/-- A frame is bad (R174). -/
def frameBad (cells : List Bool) (lineError : Bool) : Bool :=
  lineError || cellsNat (cells.take 3) ≠ 6 || cellsNat ((cells.drop 18).take 3) = 7
    || crc4 (cells.take 21) ≠ cellsNat (cells.drop 21)

/-- A cell of a frame or, for the two before it, of the last one: its bit and its mark. -/
def cellAt (tail cells : List (Bool × Bool)) (j : Int) : Bool × Bool :=
  if j < 0 then tail.getD (-j - 1).toNat (false, false) else cells.getD j.toNat (false, false)

/-- DEFER of a mark at cell `j` (R178). -/
def markDefer (tail cells : List (Bool × Bool)) (j : Nat) : Bool :=
  let c := fun (k : Int) => cellAt tail cells k
  ((c (j - 1)).1 = (c (j - 2)).1 && (c (j - 1)).1 ≠ (c j).1) || (c (j - 2)).2

/-- An echo record (R178) whose marked half-bit starts at tick `t`, and the dead-time watch of the channel (R301). -/
def State.echoRecord (s : State) (n t : Nat) (defer : Bool) : State :=
  let old := decide (t < s.tb.bTick)
  let off := if old then t - s.tb.pTick else t - s.tb.bTick
  let per := (s.io Reg.TB_PERIOD_NUM_K + 2 ^ 32 - b2n old) % 256
  let s := [2, 1, 0].foldl (fun s j =>
    ((s.setIo (Reg.MEAS_ECHO_PERIOD n (j + 1)) (s.io (Reg.MEAS_ECHO_PERIOD n j))).setIo
      (Reg.MEAS_ECHO_DEFER n (j + 1)) (s.io (Reg.MEAS_ECHO_DEFER n j))).setIo
      (Reg.MEAS_ECHO_OFFSET n (j + 1)) (s.io (Reg.MEAS_ECHO_OFFSET n j))) s
  let s := ((s.setIo (Reg.MEAS_ECHO_PERIOD n 0) per).setIo (Reg.MEAS_ECHO_DEFER n 0) (b2n defer)).setIo
    (Reg.MEAS_ECHO_OFFSET n 0) off
  let s := if (s.ch n).echoN = 4 then s.raiseIo (Reg.MEAS_FLAG_ECHO_OVF n)
    else s.setCh n { s.ch n with echoN := (s.ch n).echoN + 1 }
  s.echoSeen n t

/-- The marks of a frame that ends at the present tick: cell `j` began 10 × (25 − j) ticks before. -/
def State.echoMarks (s : State) (n : Nat) (cells : List (Bool × Bool)) : State :=
  let tail := (s.ch n).tail
  (List.range 25).foldl (fun s (j : Nat) =>
    if (cellAt [] cells j).2 then s.echoRecord n (s.tb.ticks - 10 * (25 - j)) (markDefer tail cells j) else s) s

/-- The CAP and AUX bits of a frame reach the decimators, but for those lost in a full FIFO (R60); the fast path, in the receiver's
domain, skips a bad frame's alone (R176, R191). -/
def State.frameBits (s : State) (n : Nat) (subst full : Bool) : State :=
  let x := s.ch n
  let s := if full then s else s.feed n (x.cap.map (fun b => (b, subst)))
  let x' := s.ch n
  let y := if full then x'
    else { x' with auxHist := (x.aux.reverse ++ x'.auxHist).take 1100, auxFresh := x'.auxFresh + x.aux.length }
  s.setCh n (if subst then y
    else { y with fp := (x.cap.reverse ++ y.fp).take 64, fpFresh := y.fpFresh + x.cap.length })

/-- The channel is lost: VALID and the auxiliary VALID go, the fast path's sources with them (R175, R191). -/
def State.loseLine (s : State) (n : Nat) : State :=
  let s := s.setCh n { s.ch n with good := 0, bad := 0 }
  ((s.setValid n false).setIo (Reg.MEAS_AUX_VALID n) 0).fpOff n

/-- A fault dash: its source is active, DASH sets, and the channel is lost (R175, R179). -/
def State.dashStart (s : State) (n : Nat) : State :=
  let st := s.io (Reg.MEAS_FLAG_RX_STATE n)
  let s := s.setChanSrc n true
  if st = rxDash then s
  else
    let s := if st = rxLocked then s.measFlag (Reg.MEAS_FLAG_LOST n) n else s
    ((s.measFlag (Reg.MEAS_FLAG_DASH n) n).setIo (Reg.MEAS_FLAG_RX_STATE n) rxDash).loseLine n

/-- The first transition after a dash; the source stays active for a faulty unit (R175, R318). -/
def State.dashStop (s : State) (n : Nat) : State :=
  if s.io (Reg.MEAS_FLAG_RX_STATE n) = rxDash then
    let s := s.setIo (Reg.MEAS_FLAG_RX_STATE n) rxHunt
    if (s.genCh n).faulty then s else s.setChanSrc n false
  else s

/-- A frame in HUNT, CHECK or LOCKED (R175, R176, R178). Status, marks and decimator bits go through the FIFO behind the receiver; its
state and the count of bad frames do not (R60). The sinc2 filter starts empty at lock (log entry 160). -/
def State.rxFrame (s : State) (ch : Nat) (marked : List (Bool × Bool)) (lineError full : Bool) : State :=
  let st := s.io (Reg.MEAS_FLAG_RX_STATE ch)
  let cells := marked.map (·.1)
  let bad := frameBad cells lineError
  let s := if full then s.post 255 else if st = rxHunt then s else s.echoMarks ch marked
  let x := { s.ch ch with tail := [cellAt [] marked 24, cellAt [] marked 23] }
  let s := s.setCh ch (if bad then x else { x with cap := (cells.drop 3).take 10, aux := (cells.drop 13).take 5 })
  let s := if bad || full then s else s.setIo (Reg.MEAS_FLAG_GU_STATUS ch) (cellsNat ((cells.drop 18).take 3))
  let x := s.ch ch
  if st = rxHunt then
    if bad then s else (s.setCh ch { x with good := 1 }).setIo (Reg.MEAS_FLAG_RX_STATE ch) rxCheck
  else if st = rxCheck then
    if bad then (s.setCh ch { x with good := 0 }).setIo (Reg.MEAS_FLAG_RX_STATE ch) rxHunt
    else if x.good < 3 then s.setCh ch { x with good := x.good + 1 }
    else (s.setCh ch { x.restart with good := 4, bad := 0, auxHist := [], auxFresh := 0, auxN := 0
                                      fp := [], fpFresh := 0 }).setIo (Reg.MEAS_FLAG_RX_STATE ch) rxLocked
  else if !bad then (s.setCh ch { x with bad := 0 }).frameBits ch false full
  else
    let s := (s.setCh ch { x with bad := x.bad + 1 }).measFlag (Reg.MEAS_FLAG_BADFRAME ch) ch
    let s := (s.countIo (Reg.MEAS_BAD_CNT_COUNT ch) (Reg.MEAS_BAD_STAT_SAT ch)).frameBits ch true full
    if x.bad + 1 < s.io (Reg.MEAS_CFG_LOSS_LIMIT ch) then s
    else ((s.measFlag (Reg.MEAS_FLAG_LOST ch) ch).setIo (Reg.MEAS_FLAG_RX_STATE ch) rxHunt).loseLine ch

/-- SENSE_FRAME (R174, R175, R179): the samples of a frame. The line is ignored until gate release (R32). A run of 16 samples is a fault
dash, which the next transition ends; without one, a run of 14 or 15 makes the frame bad. -/
def execSenseFrame (ch : Fin 128) (samples : List Bool) (full : Bool) (s : State) : Result :=
  if samples.length ≠ 200 then .fault .illFormed else
  if !s.pins.live then .next s else
  let dash : Bool := s.io (Reg.MEAS_FLAG_RX_STATE ch) = rxDash
  let r := samples.foldl runStep ((s.ch ch).lineRun, 0)
  let s := s.setCh ch { s.ch ch with lineRun := r.1 }
  if dash || decide (runDash ≤ r.2) then
    let s := if runDash ≤ r.2 then s.dashStart ch else s
    .next (if r.1.2 < runDash then s.dashStop ch else s)
  else if !s.ioBit (Reg.MEAS_CFG_EN ch) then .next s
  else .next (s.rxFrame ch ((halvesOf samples).map cellOf) (decide (runError ≤ r.2)) full)

/-- FAULT_DASH (R175, R179): a run of 40 ns or more asserts the channel's dash source, from gate release on (R32). -/
def execFaultDash (ch : Fin 128) (s : State) : Result :=
  if !s.pins.live then .next s
  else .next ((s.setCh ch { s.ch ch with lineRun := ((s.ch ch).lineRun.1, max runDash (s.ch ch).lineRun.2) }).dashStart ch)

/-- DASH_END (R175, R318): the first transition on the line. -/
def execDashEnd (ch : Fin 128) (s : State) : Result :=
  if !s.pins.live then .next s
  else .next ((s.setCh ch { s.ch ch with lineRun := (!(s.ch ch).lineRun.1, 1) }).dashStop ch)

/-! ## Decimation (R169, R180 to R183) -/

/-- MODULATOR_OVERLOAD (R169, R182, R194): the flag; a local channel's decimator restarts. -/
def execModulatorOverload (i : Fin 144) (s : State) : Result :=
  if !s.ioBit (Reg.MEAS_CFG_EN i) then .next s else
  let x := s.ch i
  let s := s.setCh i (if isRemote i then { x with ovl := true } else { x.restart with ovl := true })
  let s := (List.range 8).foldl (fun s u =>
    if s.injOn u i then s.setInj u { s.injOf u with ovl := true } else s) s
  .next (s.measFlag (Reg.MEAS_FLAG_OVL i) i)

/-- DECIMATOR_OUTPUT (R181 to R184): the new bits of a local channel, and an output once R bits have come; a local channel's is lost
where an internal fault has filled the FIFO behind its modulator, with event 255 (R60). -/
def execDecimatorOutput (i : Fin 144) (bits : List Bool) (full : Bool) (s : State) : Result :=
  if !s.ioBit (Reg.MEAS_CFG_EN i) then .next s
  else .next ((if isRemote i then s else s.feed i (bits.map (fun b => (b, false)))).decimate i (full && !isRemote i))

/-- AUX_OUTPUT (R180): an output of ratio 256, once 256 bits have come. -/
def execAuxOutput (ch : Fin 128) (s : State) : Result :=
  let x := s.ch ch
  if x.auxFresh < 256 then .next s
  else
    let w := (x.auxHist.drop (x.auxFresh - 256)).take 766
    let z := clampY (normX 8 (bitSum (sinc3Coef 256) w 0 766))
    let n := min 3 (x.auxN + 1)
    let s := s.setCh ch { x with auxFresh := x.auxFresh - 256, auxN := n }
    .next ((s.setIoInt (Reg.MEAS_AUX_X ch) z.1).setIo (Reg.MEAS_AUX_VALID ch)
      (b2n (n = 3 && s.io (Reg.MEAS_FLAG_RX_STATE ch) = rxLocked)))

/-- SINC2_OUTPUT (R191): P from the last 15 bits, and the comparators. -/
def execSinc2Output (i : Fin 144) (bits : List Bool) (s : State) : Result :=
  let x := s.ch i
  let x := if isRemote i then x else { x with fp := (bits.reverse ++ x.fp).take 64, fpFresh := x.fpFresh + bits.length }
  if x.fpFresh < 8 then .next (s.setCh i x) else
  let p := bitSum sinc2Coef (x.fp.drop (x.fpFresh - 8)) 0 15
  let x := { x with fpFresh := x.fpFresh - 8 }
  let off := !s.ioBit (Reg.MEAS_FP_EN i) || x.cal = 2
    || (isRemote i && s.io (Reg.MEAS_FLAG_RX_STATE i) ≠ rxLocked)
  if off then .next ((s.setCh i x).fpOff i) else
  let ov := if s.ioInt (Reg.MEAS_FP_OV_TH i) < p then min 7 (x.fpOv + 1) else 0
  let uv := if p < s.ioInt (Reg.MEAS_FP_UV_TH i) then min 7 (x.fpUv + 1) else 0
  let filt := s.io (Reg.MEAS_FP_FILT i)
  let s := s.setCh i { x with fpOv := ov, fpUv := uv }
  .next ((s.fpSet i true (0 < ov && filt ≤ ov)).fpSet i false (0 < uv && filt ≤ uv))

/-! ## Open-wire tests and self-calibration (R170, R185 to R187) -/

/-- OPEN_WIRE_TEST_START (R170, R187): the periodic test of mode 2, which waits for a running conversion. -/
def execOpenWireTestStart (m : Fin 16) (s : State) : Result :=
  let i := 128 + m.val
  let x := s.ch i
  if !s.pins.live || !s.ioBit (Reg.MEAS_CFG_EN i) || s.io (Reg.MEAS_CFG_OW i) ≠ 2 || x.ow ≠ 0 then .next s
  else if s.injBusy i then .next (s.setCh i { x with ow := 1 })
  else .next (s.owStart i)

/-- OPEN_WIRE_TEST_END (R170): OPEN where the mean of the last 4 outputs within T_W differs from the last before it by
2^23 / 16 or more. -/
def execOpenWireTestEnd (m : Fin 16) (s : State) : Result :=
  let i := 128 + m.val
  let x := s.ch i
  if x.ow ≠ 2 then .next s
  else
    let z := (x.owOuts.take 4).foldl (· + ·) 0
    let bad := decide (4 ≤ x.owOuts.length) && decide (4 * 2 ^ 19 ≤ (z - 4 * x.owBefore).natAbs)
    let s := s.setCh i { x with ow := 0, owOuts := [], hold := 3, opened := bad }
    let s := if bad then (s.measFlag (Reg.MEAS_FLAG_OPEN i) i).setValid i false else s
    .next (s.injResume i)

/-- Requests for the local channels of a mask. -/
def State.calMask (s : State) (mask : Nat) : State := (bitsBelow 16 mask).foldl (fun s m => s.calRequest (128 + m)) s

/-- MEAS_CAL_REQ (R185). -/
def execMeasCalReq (d : Die) (mask : BitVec 16) (s : State) : Result :=
  .next (if s.mayWrite d then s.calMask mask.toNat else s)

/-- CAL_PERIOD_EXPIRY (R185). -/
def execCalPeriodExpiry (m : Fin 16) (s : State) : Result :=
  .next (if s.io Reg.MEAS_CAL_PERIOD_SEC ≠ 0 then s.calRequest (128 + m) else s)

/-- A quotient rounded to nearest, ties to even. -/
def divEven (a b : Int) : Int :=
  let q := a / b
  let f := a - q * b
  if b < 2 * f ∨ (b = 2 * f ∧ q % 2 = 1) then q + 1 else q

/-- Output `j` of the private sinc3 decimator of ratio 64 over the bits of a half, oldest first (R181, R186). -/
def calOutput (bits : List Bool) (j : Nat) : Int :=
  (clampY (normX 6 (bitSum (sinc3Coef 64) ((bits.take (64 * j)).reverse.take 190) 0 190))).1

/-- The average of outputs 3 to 10 of a half (R186). -/
def calMean (bits : List Bool) : Int := ((List.range 8).map (fun j => calOutput bits (j + 3))).foldl (· + ·) 0 / 8

/-- SELF_CAL_END (R186): CORR and Z from the averages of the two halves of 32 µs, 640 bits each, accepted within their
bounds; the decimator restarts and held units run. -/
def execSelfCalEnd (m : Fin 16) (zero ref : List Bool) (s : State) : Result :=
  if zero.length ≠ 640 ∨ ref.length ≠ 640 then .fault .illFormed else
  let i := 128 + m.val
  let x := s.ch i
  if x.cal ≠ 2 then .next s else
  let z := calMean zero
  let rf := calMean ref
  let den := rf - z
  let num : Int := s.io Reg.MEAS_REF_CODE * 2 ^ 30
  let corr := divEven num den
  let ok := decide (0 < den) && decide (z.natAbs ≤ 41943) && decide ((corr - 2 ^ 30).natAbs * 50 ≤ 2 ^ 30)
  let s := s.setCh i { x.restart with cal := 0, hold := 3, calTemp := some (s.measTemp i) }
  let s := if ok then (s.setIoInt (Reg.MEAS_SCAL0_CORR m) corr).setIoInt (Reg.MEAS_SCAL1_Z m) z
    else s.measFlag (Reg.MEAS_FLAG_CAL_FAIL i) i
  .next (s.injResume i)

/-! ## Injected conversions (R192 to R194) -/

/-- MEAS_INJ_TRIG (R192). -/
def execMeasInjTrig (d : Die) (u : Fin 8) (s : State) : Result :=
  .next (if s.mayWrite d then s.injTrigger u else s)

/-- V of a window with `c` ones in `n` bits (R194). -/
def injValue (c n : Nat) : Int :=
  clamp (-(2 ^ 23)) (2 ^ 23 - 1) (((2 * (c : Int) - n) * 2 ^ 24 + n) / (2 * n))

/-- The result word of a window (R194). -/
def injWord (x : InjSt) : Nat :=
  let cv := x.measured && x.valid && !x.subst && !x.ovl
  b2n cv * 2 ^ 31 + b2n x.ovl * 2 ^ 30 + x.seq % 64 * 2 ^ 24 + unsigned 24 (injValue x.ones x.n)

/-- INJ_WINDOW_END (R192, R194): the result of a window whose bits have all come, with event 244 where none is queued; a queued conversion follows, or waits for
a calibration that is due. -/
def execInjWindowEnd (u : Fin 8) (s : State) : Result :=
  let st := s.io (Reg.MEAS_INJ_STAT_STATE u)
  let x := s.injOf u
  if (st ≠ injRunning ∧ st ≠ injQueued) ∨ x.left ≠ 0 then .next s
  else
    let i := s.io (Reg.MEAS_INJ_CFG_CH u)
    let s := (s.setIo (Reg.MEAS_INJ_RES_WORD u) (injWord x)).setIo (Reg.MEAS_INJ_STAT_N u) x.n
    let s := (s.setInj u { x with seq := x.seq + 1, extra := [] }).setIo (Reg.MEAS_INJ_STAT_STATE u) injIdle
    let s := if st = injRunning then s.post 244 else s
    let w := if s.injBusy i then (s, false) else s.startWaiting i
    if st = injRunning then .next w.1
    else if w.2 || (w.1.ch i).cal = 1 || (w.1.ch i).ow = 1 then .next (w.1.setIo (Reg.MEAS_INJ_STAT_STATE u) injHeld)
    else .next (w.1.injStart u x.extra)

end Sys2Proof.Machine
end

