-- ==== Sys2Proof/Machine/Power.lean ====
section
/-! DEFINITION. Reset, supplies, boundary scan, clock loss and over-temperature (R37 to R54, R71 to R73). -/

namespace Sys2Proof.Machine

/-! ## PORST_N (R37 to R39) -/

/-- Register words whose values are fixed in the part or come from OTP: no reset changes them (R1, R101, R197). -/
def hardwired (a : Nat) : Bool := (0x50000000 ≤ a && a < 0x5000000C) || 0x70000000 ≤ a || a = 0x40206080

/-- The address in a key of the register table. -/
def keyAddr (k : Nat) : Nat := k / 32 % 2 ^ 32

/-- The device reset whole: what is fixed in the part, the memories, the supplies and references and the pins driven from
outside stay (log entry 6). -/
def State.resetWhole (s : State) : State :=
  { State.reset with
    regs := s.regs.filter (fun p => hardwired (keyAddr p.1)), ram := s.ram, flash := s.flash, jtag := s.jtag
    pins := { State.reset.pins with padPower := s.pins.padPower, syncIn := s.pins.syncIn, tripIn := s.pins.tripIn }
    power := { State.reset.power with railsOk := s.power.railsOk, up := s.power.up, regionRails := s.power.regionRails
                                      refLost := s.power.refLost }
    freeCtr := s.freeCtr, out := s.out, pending := s.pending }

/-- PORST_ASSERT (R39): from 1 µs the device resets whole, below 100 ns nothing happens, and between them the choice is
free. -/
def execPorstAssert (lowNs : Nat) (s : State) : Result :=
  if lowNs < 100 then .next s
  else if 1000 ≤ lowNs then .next s.resetWhole
  else
    let all := Config.free s.freeCtr % 2 = 1
    let s := s.draw 1
    .next (if all then s.resetWhole else s)

/-- The device leaves reset: the time value starts at 0 and the I/O-die PLLs run (R37, R63, R73). -/
def State.leaveReset (s : State) : State :=
  ({ s with tb := {} }.setIo Reg.TB_STAT_PLL_LOCK 1).tripScan

/-- The regional rails of die `d` are both present. -/
def dieRails (rails : BitVec 4) (d : Die) : Bool := rails.getLsbD (2 * d.toNat) && rails.getLsbD (2 * d.toNat + 1)

/-- RED_DIE[d] shows a state and a cause; nothing is logged or posted. -/
def State.markDie (s : State) (d : Die) (st cause : Nat) : State :=
  (s.setIo (Reg.RED_DIE_STATE d.toNat) st).setIo (Reg.RED_DIE_CAUSE d.toNat) cause

/-- A die that never boots is ABSENT with cause RAIL or ROM (R42, R457), which is a die fault; no event is posted (R468). -/
def State.absentDie (s : State) (d : Die) (cause : Nat) : State :=
  (s.markDie d 7 cause).raiseIo (Reg.RED_DIE_FAULT d.toNat)

/-- Every rail of the I/O die has come within tolerance (R37). -/
def State.railsUp (s : State) : State :=
  { s with power := { s.power with railsOk := true, up := 0x3F }, pins := { s.pins with padPower := true } }

/-- PORST_RELEASE (R39, R42, R47, R51): first strap sample, TEST_EN, rails. Nothing that came while PORST_N was low stands.
PORST_N that is high already does not rise. -/
def execPorstRelease (strapUp testEn iodRailsOk : Bool) (regionRails : BitVec 4) (s : State) : Result :=
  if s.pins.porstN then .next s else
  let s := (s.resetWhole.wrBoth Reg.SYS_STRAP_SAMPLE_UP (b2n strapUp)).wrBoth Reg.SYS_STRAP_TEST_EN (b2n testEn)
  let s := { s with pins := { s.pins with porstN := true }
                    power := { s.power with railsOk := false, regionRails := regionRails }
                    boot := { s.boot with
                      railAbsent := BitVec.ofNat 2 (b2n (!dieRails regionRails .d0) + 2 * b2n (!dieRails regionRails .d1)) } }
  let s := if dieRails regionRails .d0 then s else s.absentDie .d0 causeRail
  let s := if dieRails regionRails .d1 then s else s.absentDie .d1 causeRail
  .next (if iodRailsOk then s.railsUp.leaveReset else s)

/-- LAST_RAIL_IN_TOLERANCE (R37): with PORST_N released, the device leaves reset. -/
def execLastRailInTolerance (s : State) : Result :=
  if s.power.railsOk || !s.pins.porstN then .next s
  else .next s.railsUp.leaveReset

/-- STRAP_SECOND_SAMPLE (R47): OPEN where the samples differ. -/
def execStrapSecondSample (strapDn : Bool) (s : State) : Result :=
  let up := s.bit .d0 Reg.SYS_STRAP_SAMPLE_UP
  .next ((s.wrBoth Reg.SYS_STRAP_SAMPLE_DN (b2n strapDn)).wrBoth Reg.SYS_STRAP_OPEN (b2n (up != strapDn)))

/-! ## Supplies (R40, R41) -/

/-- Bit of a rail in IOD_RAIL_STAT.UV_NOW. -/
def railBit : IodRail → Nat
  | .vddIod => 0 | .vdd18 => 1 | .vdd33Ch => 2 | .vddaSer => 3 | .vddhSer => 4 | .vdda18 => 5

/-- Sticky flag of a rail. -/
def railFlag : IodRail → Field
  | .vddIod => Reg.IOD_RAIL_STAT_UVS_VDD_IOD | .vdd18 => Reg.IOD_RAIL_STAT_UVS_VDD18
  | .vdd33Ch => Reg.IOD_RAIL_STAT_UVS_VDD33_CH | .vddaSer => Reg.IOD_RAIL_STAT_UVS_VDDA_SER
  | .vddhSer => Reg.IOD_RAIL_STAT_UVS_VDDH_SER | .vdda18 => Reg.IOD_RAIL_STAT_UVS_VDDA18

/-- The I/O-die shutdown (R41): every gate low, every group asserted, SYNC_OUT and PICOT low, until PORST_N. In the test
state the boundary register keeps the pins (R52). -/
def State.ioShutdown (s : State) : State :=
  let s := { s with power := { s.power with shutdown := true } }.blockAll.packageOn
  if s.testState then s else { s with pins := { s.pins with syncOut := false, picot := 0 } }

/-- RAIL_UNDERVOLTAGE (R37, R40, R48): flag, event 255 and the rail's action. A device in reset has nothing to shut down: it leaves
reset only with every rail within tolerance. -/
def execRailUndervoltage (rail : IodRail) (s : State) : Result :=
  if !s.pins.porstN || !s.power.railsOk then .next s else
  let s := s.setIo Reg.IOD_RAIL_STAT_UV_NOW (withBit (s.io Reg.IOD_RAIL_STAT_UV_NOW) (railBit rail) true)
  let s := s.raisePost (railFlag rail) 255
  match rail with
  | .vddIod | .vdd18 | .vdd33Ch => .next s.ioShutdown
  | .vddaSer | .vddhSer => .next ((List.range 32).foldl State.lanePllLost s)
  | .vdda18 => .next s.localRestart

/-- RAIL_RECOVERY (R32, R40, R48): the rail is within its threshold, at power-up or again, and UV_NOW shows it; at VDDA18's
return the local modulators and decimators restart. -/
def execRailRecovery (rail : IodRail) (s : State) : Result :=
  let s := { s with power := { s.power with up := setBit s.power.up (railBit rail) true }
                    pins := { s.pins with padPower := s.pins.padPower || decide (railBit rail = 2) } }
  let s := s.setIo Reg.IOD_RAIL_STAT_UV_NOW (withBit (s.io Reg.IOD_RAIL_STAT_UV_NOW) (railBit rail) false)
  .next (if rail = .vdda18 then s.localRestart else s)

/-! ## Boundary scan (R49 to R52) -/

/-- The pins follow the boundary register. -/
def State.drivePins (s : State) : State :=
  let b := s.jtag.boundary
  { s with pins := { s.pins with gu := b.gu, gl := b.gl, syncOut := b.syncOut, picot := b.picot, highZ := false
                                 extest := true } }

/-- The pins return to the device, which holds them low in the test state. -/
def State.releasePins (s : State) : State :=
  if s.testState then
    { s with pins := { s.pins with gu := 0, gl := 0, syncOut := false, picot := 0, highZ := false, extest := false } }
  else s

/-- An instruction enters the instruction register; one that selects the bypass register leaves 0 in its bit, as IEEE
1149.1 captures it (R49, log entry 128). -/
def State.jtagIr (s : State) (c : Nat) : State :=
  { s with jtag := { s.jtag with ir := BitVec.ofNat 8 c, bypass := s.jtag.bypass && (c = 1 || c = 0xFE) } }

/-- A pin of R32 whose driver holds `b` while VDD33_CH is present: it floats below 1.0 V and under HIGHZ. -/
def State.padLevel (s : State) (b : Bool) : Level :=
  if !s.pins.padPower || s.pins.highZ then .highZ else if b then .high else .low

/-- What CH_GU[n] or CH_GL[n], SYNC_OUT and PICOT[p] show (R32). -/
def State.gatePin (s : State) (n : Nat) (upper : Bool) : Level := s.padLevel (s.gate n upper)
def State.syncOutPin (s : State) : Level := s.padLevel s.pins.syncOut
def State.picotPin (s : State) (p : Nat) : Level := s.padLevel (s.pins.picot.getLsbD p)

/-- What REPLACE_REQ_N shows: an open drain (R32, R477). -/
def State.replacePin (s : State) : Level :=
  if s.pins.highZ then .highZ
  else if s.pins.extest then (if s.jtag.boundary.replaceN then .released else .low)
  else if s.ioBit Reg.RED_GRADE_REPLACE then .low else .released

/-- What DEGRADE[i] shows (R32, R477). -/
def State.degradePin (s : State) (i : Nat) : Level :=
  if s.pins.extest then s.padLevel (s.jtag.boundary.degrade.getLsbD i)
  else match s.pins.degrade with
    | none => .highZ
    | some g => s.padLevel (g.getLsbD i)

/-- TDO between two commands of the test access port: no shift is in progress (R32); what a shift gives is in `Output.jtag`. -/
def State.tdoPin (_ : State) : Level := .highZ

/-- A 1.8 V output: floating until VDD18 is present and under HIGHZ, the boundary register's `b` in EXTEST, else `l`. -/
def State.v18Pin (s : State) (b : Bool) (l : Level) : Level :=
  if !s.power.up.getLsbD (railBit .vdd18) || s.pins.highZ then .highZ
  else if s.pins.extest then (if b then .high else .low) else l

/-- What the flash pins and the AVSBus outputs of a die show between transactions (R32). -/
def State.qspiClkPin (s : State) : Level := s.v18Pin (s.jtag.boundary.qspi.getLsbD 0) .idle
def State.qspiCsPin (s : State) : Level := s.v18Pin (s.jtag.boundary.qspi.getLsbD 1) .high
def State.qspiIoPin (s : State) (i : Nat) : Level := s.v18Pin (s.jtag.boundary.qspi.getLsbD (2 + i)) .pulledUp
def State.qspiRstPin (s : State) : Level :=
  s.v18Pin (s.jtag.boundary.qspi.getLsbD 6) (if s.pins.qspiRstN then .high else .low)
def State.avsPin (s : State) (d : Die) (mdata : Bool) : Level :=
  s.v18Pin (s.jtag.boundary.avs.getLsbD (3 * d.toNat + b2n mdata)) .idle

/-- What a capture of the boundary register takes: the pins the state holds, and for the inputs and idle buses it holds no
level of, a free value (log entry 128). -/
def State.capturePins (s : State) : Nat :=
  s.pins.gu.toNat + 2 ^ 128 * s.pins.gl.toNat + 2 ^ 256 * b2n s.pins.syncOut + 2 ^ 257 * s.pins.picot.toNat
    + 2 ^ 265 * s.pins.tripIn.toNat + 2 ^ 273 * b2n s.pins.syncIn + 2 ^ 274 * b2n (s.replacePin = .released)
    + 2 ^ 275 * b2n (s.degradePin 0 = .high) + 2 ^ 276 * b2n (s.degradePin 1 = .high)
    + 2 ^ 277 * b2n s.pins.porstN + 2 ^ 278 * b2n (s.qspiRstPin = .high) + 2 ^ 279 * b2n (s.qspiCsPin = .high)
    + 2 ^ 280 * (Config.free s.freeCtr % 2 ^ 140)

/-- JTAG_EXTEST (R51, R52): in the test state the pins are captured and shifted out, and the boundary register drives the
outputs; outside it the code acts as BYPASS. -/
def execJtagExtest (s : State) : Result :=
  let s := s.jtagIr 0x00
  .next (if s.testState then (s.draw 1).drivePins.send (.jtag s.capturePins) else s)

/-- JTAG_SAMPLE_PRELOAD (R49): the pins are captured and shifted out, and the boundary register takes new values. -/
def execJtagSamplePreload (preload : BoundaryPins) (s : State) : Result :=
  let w := s.capturePins
  let s := ((s.draw 1).jtagIr 0x01).releasePins
  .next ({ s with jtag := { s.jtag with boundary := preload } }.send (.jtag w))

/-- JTAG_CLAMP (R51). -/
def execJtagClamp (s : State) : Result :=
  let s := s.jtagIr 0x02
  .next (if s.testState then s.drivePins else s)

/-- JTAG_HIGHZ (R51). -/
def execJtagHighz (s : State) : Result :=
  let s := s.jtagIr 0x03
  .next (if s.testState then { s with pins := { s.pins with highZ := true, extest := false } } else s)

/-- JTAG_IDCODE (R50). -/
def execJtagIdcode (s : State) : Result := .next ((s.jtagIr 0xFE).releasePins.send (.jtag 0x161285CB))

/-- The codes of R49's table but BYPASS. -/
def jtagListed (c : Nat) : Bool := c ≤ 3 || c = 0xFE

/-- JTAG_BYPASS (R49): 0xFF or an unlisted code selects the bypass register. -/
def execJtagBypass (code : Byte) (s : State) : Result :=
  if jtagListed code.toNat then .next s else .next (s.jtagIr code.toNat).releasePins

/-! ## Clock loss and over-temperature (R54, R71 to R73) -/

/-- The crystal is lost, or a PLL of the I/O die (R71, R72, R316): every channel at BLOCK, every group asserted, XTAL_LOST,
event 180, G4. -/
def State.loseClock (s : State) : State :=
  if s.power.clockLost then s else
  let s := { s with power := { s.power with clockLost := true } }
  ((s.blockAll.packageOn.raiseIo Reg.TB_STAT_XTAL_LOST).post 180).raiseGrade 4 causeClock

/-- XTAL_EDGE_TIMEOUT (R71). -/
def execXtalEdgeTimeout (s : State) : Result := .next s.loseClock

/-- XTAL_WINDOW_END (R71): fewer than 3 920 or more than 4 080 edges. -/
def execXtalWindowEnd (edges : Nat) (s : State) : Result :=
  .next (if edges < 3920 ∨ 4080 < edges then s.loseClock else s)

/-- IOD_PLL_UNLOCK (R72). -/
def execIodPllUnlock (s : State) : Result := .next (s.setIo Reg.TB_STAT_PLL_LOCK 0).loseClock

/-- OVERTEMP_STOP (R54). -/
def execOvertempStop (s : State) : Result := .next (s.raiseGrade 4 causeThermal)

/-- TB_TIME_SNAPSHOT (R73). -/
def execTbTimeSnapshot (d : Die) (reader : Fin 13) (s : State) : Result := .next (s.takeSnap d reader)

end Sys2Proof.Machine
end

