-- ==== Sys2Proof/Machine/BootOps.lean ====
section
/-! DEFINITION. Shared operations of the boot: maintenance-only mode, roles at boot, spares of earlier boots, slot
candidates, the boot record, and the reset of R111 (R79 to R100, R107, R111, R473). -/

namespace Sys2Proof.Machine

/-- The time of READY or MAINT in microseconds, saturating, on both dies (R97, R100), counted from the tick the device left
reset (log entry 130). -/
def State.noteReady (s : State) : State :=
  { s.wrBoth Reg.BOOT_READY_TIME_US (min 0xFFFFF (s.tb.ticks / 500)) with
    boot := { s.boot with readyTick := some s.tb.ticks } }

/-- Lanes 0 and 1 as 1000BASE-X ports 0 and 1 at the reset values of their other fields (R97, R402). -/
def State.maintLanes (s : State) : State :=
  [0, 1].foldl (fun s k =>
    ((s.setIo (Reg.LANE_CFG_USE k) 2).setIo (Reg.LANE_CFG_PORT k) k).setIo (Reg.LANE_CFG_RATE k) 0) s

/-- Maintenance-only mode, served by `v` (R97, R116, R402): gates OFF, groups asserted, REPLACE_REQ_N released (log entry 131),
until PORST_N. -/
def State.enterMaint (s : State) (v : Server) : State :=
  let s := ((s.setPhase phaseMaint).wrBoth Reg.BOOT_STAT_MAINT 1).setIo Reg.RED_GRADE_REPLACE 0
  let s := { s with boot := { s.boot with server := v } }
  s.noteReady.maintLanes.packageOn

/-- A die that can boot: its rails are present and its ROM self-check passed (R42, R98). -/
def State.dieBoots (s : State) (d : Die) : Bool := s.dieState d ≠ 7

/-- The records of the log that name this unit, of a type (R473, R479). -/
def State.unitRecords (s : State) (type : Nat) : List (List Byte) :=
  s.logRecords.filter (fun bs => field bs 9 1 = type && field bs 0x14 4 = s.uid % 2 ^ 32)

/-- A spare of an earlier boot is in use again: a cluster's remap, or a bank's (R473). -/
def State.reapplySpare (s : State) (bs : List Byte) : State :=
  let d := if field bs 0x0B 1 = 0 then Die.d0 else .d1
  let item := field bs 0x0E 2
  let f := sparesField d
  if field bs 0x0C 2 = 0x10 then
    let p := s.rd d Reg.PL_MAP_PHYS
    let s := s.wr d Reg.PL_MAP_PHYS (p - p / 4 ^ item % 4 * 4 ^ item + s.spare d * 4 ^ item)
    let s := (s.wr d Reg.PL_MAP_SPARE_USED 1).setAdapt d { s.adaptOf d with replaced := some item }
    s.setIo f (withBit (s.io f) 0 true)
  else
    let r := item / 0x100
    let s := (s.wr d (Reg.MEM_SPARE_USED r) 1).wr d (Reg.MEM_SPARE_BANK r) (item % 0x100)
    s.setIo f (withBit (s.io f) (1 + r) true)

/-- The cause of the record by which the log retires die `d` for this unit, if any (R473). -/
def State.retiredCause (s : State) (d : Die) : Option Nat :=
  ((s.unitRecords recDieState).find? (fun bs => field bs 0x0E 2 = 6 && field bs 0x0B 1 = d.toNat)).map (field · 0x0C 2)

/-- A die that an earlier boot retired is RETIRED again, with its cause (R473). -/
def State.reapplyRetired (s : State) (d : Die) : State :=
  match s.retiredCause d with
  | some c => if s.dieBoots d then s.markDie d 6 c else s
  | none => s

/-- The remaps and retirements of earlier boots (R473). -/
def State.reapplyLog (s : State) : State :=
  [Die.d0, .d1].foldl State.reapplyRetired ((s.unitRecords recSpare).foldl State.reapplySpare s)

/-- The condition of a grade that die `d` meets at boot: lost, or with spares of earlier boots in use (R42, R98, R473,
R474). -/
def State.bootCause (s : State) (d : Die) : Option (Nat × Nat) :=
  if s.dieState d = 7 || s.dieState d = 6 then some (2, s.io (Reg.RED_DIE_CAUSE d.toNat))
  else if s.io (sparesField d) = 7 then some (2, causeSparesSpent)
  else if s.io (sparesField d) ≠ 0 then some (1, causeSpareUsed)
  else none

/-- The grade of the boot: one rise, to the highest grade, which names the lowest code (R481, R486). -/
def State.bootGrade (s : State) : State :=
  match [Die.d0, .d1].filterMap s.bootCause with
  | [] => s
  | [c] => s.raiseGrade c.1 c.2
  | c :: e :: _ => s.raiseGrade (max c.1 e.1) (min c.2 e.2)

/-- The first worker (R92): die 0 where it boots and has met no die fault, else die 1; the other such die is its
passive. -/
def State.chooseWorker (s : State) : State :=
  let ok := fun d => !s.lost d
  let w := if ok .d0 then some Die.d0 else if ok .d1 then some .d1 else none
  match w with
  | none => s
  | some d =>
    let s := ((s.setIo (Reg.RED_DIE_STATE d.toNat) 0).setIo (Reg.RED_DIE_WORKER d.toNat) 1).wr d Reg.BOOT_STAT_WORKER 1
    if ok d.other then s.setIo (Reg.RED_DIE_STATE d.other.toNat) 1 else s

/-- CTL_MAJ, CTL_MIN and UID agree on both dies (R2). -/
def State.diesMatch (s : State) : Bool :=
  [Reg.SYS_CHIP_ID_CTL_MAJ, Reg.SYS_CHIP_ID_CTL_MIN, Reg.SYS_UID_LO_UID, Reg.SYS_UID_HI_UID].all
    (fun f => s.rd .d0 f = s.rd .d1 f)

/-! ## Pricking copies (R79 to R89) -/

/-- Result and FAIL_OFFSET of checks 0x01 to 0x0B on a copy (R89); 0xFE where all pass. An OPEN strap names the ROLE field
0x10 (log entry 133), a reserved bit of FLAGS is HEADER at 0x11 (log entry 173). -/
def State.copyCheck (s : State) (c : Nat) (readError : Bool) : Nat × Nat :=
  if readError || !s.boot.flashOk then (0x01, 0) else
  let base := copyBase c
  let h := s.flashBytes base 64
  let len := field h 0x14 4
  let signed := bitOf (field h 0x11 1) 0
  let sign := s.bit .d0 Reg.SEC_FUSE_CFG_PRICK_SIGN
  if field h 0 4 ≠ 0x4B435250 then (0x02, 0)
  else if field h 4 2 ≠ 1 then (0x03, 4)
  else if field h 6 2 ≠ 64 then (0x03, 6)
  else if 2 ≤ field h 0x11 1 then (0x03, 0x11)
  else if !allZero (slice h 0x1C 4) then (0x03, 0x1C)
  else if !allZero (slice h 0x30 16) then (0x03, 0x30)
  else if field h 0x12 2 ≠ s.rd s.idDie Reg.SYS_CHIP_ID_TYPE then (0x04, 0x12)
  else if len < 72 ∨ 262144 - (if signed then sigBytes else 0) < len ∨ len % 4 ≠ 0 then (0x05, 0x14)
  else if !crcOk (s.flashBytes base len) then (0x06, 0)
  else if sign && !signed then (0x07, 0x11)
  else if sign && !s.sigKeyOk (s.flashBytes (base + len) sigBytes) then (0x08, 0)
  else if sign && !sigVerifies (s.flashBytes (base + len) sigBytes) (s.flashBytes base len) then (0x09, 0)
  else if s.bit .d0 Reg.SYS_STRAP_OPEN || field h 0x10 1 ≠ s.rd .d0 Reg.SYS_STRAP_SAMPLE_UP then (0x0A, 0x10)
  else if field h 0x20 8 ≠ 0 ∧ field h 0x20 8 ≠ s.uid then (0x0B, 0x20)
  else (0xFE, 0)

/-- Result, FAIL_OFFSET and SEQ of a copy as both dies show them (R88, R100). -/
def State.showCopy (s : State) (c : Nat) (r : Nat × Nat) : State :=
  let seq := if r.1 = 0x01 ∨ r.1 = 0x02 then 0 else field (s.flashBytes (copyBase c) 12) 8 4
  ((s.wrBoth (Reg.BOOT_COPY_STAT_RESULT c) r.1).wrBoth (Reg.BOOT_COPY_STAT_FAIL_OFFSET c) r.2).wrBoth (Reg.BOOT_SEQ_SEQ c) seq

/-! ## Firmware slots (R105 to R108) -/

/-- The slot may be a first candidate of its own: STAGED or TRIAL, fewer than 3 attempts, no REVERT mark. -/
def State.slotFresh (s : State) (n : Nat) : Bool :=
  let e := s.slotEntry n
  (e.1 = slotStaged || e.1 = slotTrial) && e.2.1 < 3 && !s.bit .d0 (Reg.FW_SLOT_STAT_REVERT n)

/-- The slot is in state `st` and carries no REVERT mark. -/
def State.slotIs (s : State) (n st : Nat) : Bool :=
  (s.slotEntry n).1 = st && !s.bit .d0 (Reg.FW_SLOT_STAT_REVERT n)

/-- First and second candidate (R107); of two fresh slots slot 0 goes first (log entry 132). -/
def State.slotOrder (s : State) : List Nat :=
  let first := if s.slotFresh 0 then some 0 else if s.slotFresh 1 then some 1
    else if s.slotIs 0 slotActive then some 0 else if s.slotIs 1 slotActive then some 1
    else if s.slotIs 0 slotStandby then some 0 else if s.slotIs 1 slotStandby then some 1 else none
  match first with
  | none => []
  | some n =>
    let o := 1 - n
    let st := (s.slotEntry o).1
    if st = slotEmpty || st = slotRetired || s.bit .d0 (Reg.FW_SLOT_STAT_REVERT o) then [n] else [n, o]

/-- A slot's journal state, header VERSION and length, 0 where the slot cannot be read, and the result of a slot that is not
read, shown by both dies (R119, R120). -/
def State.showSlot (s : State) (n : Nat) (readError : Bool) : State :=
  let e := s.slotEntry n
  let h := s.flashBytes (imageBase 1 n) 64
  let ok : Bool := s.boot.flashOk && !readError && field h 0 4 = 0x4D495746
  let s := ((s.wrBoth (Reg.FW_SLOT_STAT_STATE n) e.1).wrBoth (Reg.FW_SLOT_STAT_ATTEMPTS n) e.2.1).wrBoth
    (Reg.FW_VERSION_VERSION n) (if ok then field h 0x0C 4 else 0)
  let len := if ok then field h 0x10 4 else 0
  let s := { s with boot := { s.boot with
    slotLen := if n = 0 then (len, s.boot.slotLen.2) else (s.boot.slotLen.1, len) } }
  if e.1 = slotRetired then s.wrBoth (Reg.FW_SLOT_STAT_RESULT n) 0x0D
  else if s.bit .d0 (Reg.FW_SLOT_STAT_REVERT n) then s.wrBoth (Reg.FW_SLOT_STAT_RESULT n) 0x0E
  else s

/-- A slot that has spent its attempts is written RETIRED (R108). -/
def State.retireSpent (s : State) (n : Nat) : State :=
  let e := s.slotEntry n
  if (e.1 = slotStaged ∨ e.1 = slotTrial) ∧ 3 ≤ e.2.1 then s.setSlotState n slotRetired else s

/-- The slot runs (R108): TRIAL with one more attempt where it was STAGED or TRIAL. -/
def State.startSlot (s : State) (n : Nat) : State :=
  let e := s.slotEntry n
  let s := if e.1 = slotStaged ∨ e.1 = slotTrial then s.setSlot n slotTrial (e.2.1 + 1) e.2.2 else s
  let s := ((s.wrBoth (Reg.FW_SLOT_STAT_RESULT n) 0).wrBoth (Reg.FW_SLOT_STAT_RUNNING n) 1).wrBoth Reg.BOOT_STAT_FW_SLOT n
  { s with boot := { s.boot with fwRuns := true, fw := s.imageInfo (imageBase 1 n) } }

/-- The candidates tried in order: the first that passes runs; a STAGED or TRIAL slot that fails is RETIRED (R107). -/
def State.trySlots (s : State) (readErrors : BitVec 2) : List Nat → State
  | [] => s.enterMaint .full
  | n :: ns =>
    let res := s.imageCheck (s.flashRd (imageBase 1 n)) 1 (readErrors.getLsbD n)
    if res = 0xFE then (s.startSlot n).setPhase phaseApply
    else
      let st := (s.slotEntry n).1
      let s := s.wrBoth (Reg.FW_SLOT_STAT_RESULT n) res
      let s := if st = slotStaged ∨ st = slotTrial then s.setSlotState n slotRetired else s
      State.trySlots s readErrors ns

/-! ## The boot record (R99, R120) -/

def bootLogBase : Nat := 0x90000

/-- The boot record but its CRC (R99, R120), with the lengths that the slot check read (log entry 176). -/
def State.bootRecord (s : State) (count : Nat) : List Byte :=
  let d := s.worker.getD .d0
  let w := fun a => bytesOf 4 (s.regWord d 12 a)
  bytesOf 4 count ++ w 0x50000100 ++ w 0x50000104 ++ w 0x50000108 ++ w 0x5000010C ++ w 0x50000110 ++ w 0x50000118
    ++ bytesOf 8 s.uid ++ w 0x50000120 ++ w 0x50000128 ++ bytesOf 4 s.boot.slotLen.1
    ++ w 0x50000124 ++ w 0x5000012C ++ bytesOf 4 s.boot.slotLen.2

/-! ## The reset of R111 -/

/-- Fields of the I/O die that last until PORST_N: the grade, its cause and REPLACE_REQ_N (R474, R477), and the fences (R305,
R327). -/
def porstIo : List Field :=
  [Reg.RED_GRADE_GRADE, Reg.RED_GRADE_CAUSE, Reg.RED_GRADE_REPLACE]
  ++ (List.range 128).map (fun n => Reg.GEN_STAT_FENCE n) ++ (List.range 16).map (fun g => Reg.TRIP_GRP_STAT_FENCE g)

/-- Fields of a control die that last until PORST_N: the REVERT marks (R111), the counts of its cores' and CLEs' faults (R147, R248)
and AVS_LOST (R438). -/
def porstDie : List Field :=
  [Reg.FW_SLOT_STAT_REVERT 0, Reg.FW_SLOT_STAT_REVERT 1, Reg.AVS_STAT_AVS_LOST 0, Reg.AVS_STAT_AVS_LOST 1]
  ++ (List.range 12).map (fun c => Reg.CORE_FAULT_REC0_COUNT c) ++ (List.range 4).map (fun c => Reg.CLE_FAULT_REC_COUNT c)

/-- A channel unit that is faulty stays faulty until PORST_N, and its dash source with it (R305). -/
def State.keepFaulty (n s : State) (i : Nat) : State :=
  if (s.genCh i).faulty then
    (((n.setGenCh i { n.genCh i with faulty := true }).setIo (Reg.GEN_STAT_CH_FAULT i) 1).raiseIo (Reg.MEAS_FLAG_DASH i)).setChanSrc i true
  else n

/-- What stays until PORST_N beside those fields: the hold of an I/O-die shutdown (R41), a clock loss (R71), the stopped voltage
requests (R438), the pins of the grade (R477), a controlled stop (R478), the serial numbers of records (R330, R479), faulty channel
units and groups (R305, R327), and a die that is ABSENT or RETIRED (R457, R470). -/
def State.untilPorst (n s : State) : State :=
  let n := { n with power := { n.power with shutdown := s.power.shutdown, clockLost := s.power.clockLost
                                            avsStopped := s.power.avsStopped }
                    pins := { n.pins with degrade := s.pins.degrade }
                    boot := { n.boot with railAbsent := s.boot.railAbsent, romFail := s.boot.romFail }
                    trip := { n.trip with seq := s.trip.seq }
                    red := { n.red with stopAt := s.red.stopAt, stopped := s.red.stopped, serial := s.red.serial
                                        tripCopied := s.red.tripCopied } }
  let n := porstIo.foldl (fun n f => n.setIo f (s.io f)) n
  let n := [Die.d0, .d1].foldl (fun n d => porstDie.foldl (fun n f => n.wr d f (s.rd d f)) n) n
  let n := (List.range 128).foldl (fun n i => n.keepFaulty s i) n
  let n := (List.range 16).foldl (fun n g =>
    if s.io (Reg.TRIP_GRP_STAT_STATE g) = grpFault then n.setIo (Reg.TRIP_GRP_STAT_STATE g) grpFault else n) n
  [Die.d0, .d1].foldl (fun n d =>
    if 6 ≤ s.dieState d then n.markDie d (s.dieState d) (s.io (Reg.RED_DIE_CAUSE d.toNat)) else n) n

/-- Both control dies and the I/O die are reset with the straps, the time since PORST_N and what stays until PORST_N kept
(R111). -/
def State.fallbackReset (s : State) : State :=
  let straps := [Reg.SYS_STRAP_SAMPLE_UP, Reg.SYS_STRAP_SAMPLE_DN, Reg.SYS_STRAP_OPEN, Reg.SYS_STRAP_TEST_EN].map
    (fun f => (f, s.rd .d0 f))
  let n := s.resetWhole
  let n := { n with pins := { n.pins with porstN := true } }
  let n := { n.leaveReset with tb := { n.leaveReset.tb with ticks := s.tb.ticks } }
  (straps.foldl (fun n p => n.wrBoth p.1 p.2) n).untilPorst s

end Sys2Proof.Machine
end

