-- ==== Sys2Proof/Machine/Boot.lean ====
section
/-! DEFINITION. The commands of the boot sequence and of field update outside the maintenance path (R77, R87 to R99,
R105 to R116). -/

namespace Sys2Proof.Machine

/-- The boot proceeds: out of reset, not in the test state, not stopped in maintenance-only mode, and with a die that boots
(R37, R52, R97, R98). -/
def State.booting (s : State) : Bool :=
  s.pins.porstN && s.power.railsOk && !s.testState && s.phase ≠ phaseMaint && s.phase ≠ phaseStopped
    && (s.dieBoots .d0 || s.dieBoots .d1)

/-- The boot stands in phase `p`: the phases come in order, and a row of another phase finds nothing to do (R94). -/
def State.bootAt (s : State) (p : Nat) : Bool := s.booting && s.phase = p

/-- The grade of dies that never boot: G2 with the cause of the one, G4 with NO_DIE where both are ABSENT, also where the first of
them has just been named (R42, R98). -/
def State.absentGrade (s : State) : State :=
  if !s.dieBoots .d0 && !s.dieBoots .d1 then s.raiseGradeBy (fun c _ => c) 4 causeNoDie
  else if !s.dieBoots .d0 then s.raiseGrade 2 (s.io (Reg.RED_DIE_CAUSE 0))
  else if !s.dieBoots .d1 then s.raiseGrade 2 (s.io (Reg.RED_DIE_CAUSE 1))
  else s

/-- A REWRITE_BEGIN with no REWRITE_END after it (R115). -/
def State.openRewrite (s : State) : Option (List Byte) :=
  match s.journalLast jRewriteBegin (fun _ => true), s.journalLast jRewriteEnd (fun _ => true) with
  | some (_, b), some (_, e) => if later (field b 0 4) (field e 0 4) then some b else none
  | some (_, b), none => some b
  | none, _ => none

/-- The replay of R115: the staging image is checked against the entry, the sectors not done are completed, and
REWRITE_END follows; where the check fails, the recovery service. -/
def State.replay (s : State) (b : List Byte) (readError : Bool) : State :=
  let kind := field b 8 1
  let slot := field b 9 1
  let base := imageBase 1 slot
  let info := s.imageInfo base
  if s.imageCheck (s.flashRd base) kind readError ≠ 0xFE ∨ info.digest.take 12 ≠ slice b 0x10 12 then s.enterMaint .stage1
  else
    let done := (s.journal.filter (fun p => field p.2 4 2 = jSectorDone && later (field p.2 0 4) (field b 0 4))).map
      (fun p => field p.2 6 2)
    let r : Rewrite := ⟨kind, slot, imageBytes (s.flashBytes base 64), []⟩
    let s := (rewriteOrder.filter (fun i => !done.contains i)).foldl (fun s i => s.rewriteSector r i) s
    s.journalAdd jRewriteEnd 0 (bytesOf 20 0)

/-- BOOT_ROM_START (R39, R42, R94, R98, R115): QSPI_RST_N rises, a die whose rail was absent sets the grade, and the journal
is read. It comes once, in PHASE = ROM. -/
def execBootRomStart (readError : Bool) (s : State) : Result :=
  if !(s.pins.porstN && s.power.railsOk && s.phase = phaseRom) then .next s else
  let s := ({ s with pins := { s.pins with qspiRstN := true } }.setPhase phaseRom)
  if s.testState then .next s else
  let s := s.absentGrade
  if !s.booting then .next s else
  match s.openRewrite with
  | none => .next s
  | some b => .next (s.replay b readError)

/-- ROM_SELF_CHECK (R98): a die that fails is ABSENT with cause ROM, and the package at G2; with both dies ABSENT it is at
G4. -/
def execRomSelfCheck (d : Die) (pass : Bool) (s : State) : Result :=
  if pass || !s.dieBoots d || s.phase ≠ phaseRom then .next s else
  let s := { s with boot := { s.boot with romFail := setBit s.boot.romFail d.toNat true } }.absentDie d causeRom
  .next s.absentGrade

/-- FLASH_DISCOVERY (R75, R77): the flash is found, or treated as unreadable. -/
def execFlashDiscovery (table : Option FlashTable) (s : State) : Result :=
  if !s.bootAt phaseRom then .next s else
  let ok := match table with
    | none => false
    | some t => 128 ≤ t.sizeMbit && (t.sizeMbit ≤ 128 || t.fourByteAddr)
  if ok then
    .next { s with boot := { s.boot with flashSize := 131072 * (match table with | some t => t.sizeMbit | none => 128) } }
  else
    let s := { s with boot := { s.boot with flashOk := false } }
    let s := (s.showCopy 0 (0x01, 0)).showCopy 1 (0x01, 0)
    let s := (s.wrBoth (Reg.FW_SLOT_STAT_RESULT 0) 0x01).wrBoth (Reg.FW_SLOT_STAT_RESULT 1) 0x01
    .next (s.enterMaint .flash)

/-- STAGE1_VERIFY (R2, R3, R92, R105, R473): the loader starts; it compares the dies, re-applies earlier spares and
retirements, and the first worker stands. A loader that fails leads to the recovery service. -/
def execStage1Verify (readError : Bool) (s : State) : Result :=
  if !s.bootAt phaseRom then .next s else
  let res := s.imageCheck (s.flashRd (imageBase 2 0)) 2 readError
  let s := { s with boot := { s.boot with stage1Result := res } }
  if res ≠ 0xFE then .next (s.enterMaint .stage1)
  else
    let s := { s.setPhase phaseStage1 with boot := { s.boot with stage1 := s.imageInfo (imageBase 2 0) } }
    if s.dieBoots .d0 && s.dieBoots .d1 && !s.diesMatch then .next (s.enterMaint .differ)
    else .next s.reapplyLog.chooseWorker.bootGrade

/-- IODSUP_VERIFY (R105, R116): the supervisor code runs and serves the maintenance path. -/
def execIodsupVerify (readError : Bool) (s : State) : Result :=
  if !s.bootAt phaseStage1 then .next s else
  let res := s.imageCheck (s.flashRd (imageBase 3 0)) 3 readError
  let s := { s with boot := { s.boot with iodsupResult := res } }
  if res ≠ 0xFE then .next (s.enterMaint .iodsup)
  else .next { s with boot := { s.boot with server := .full, iodsup := s.imageInfo (imageBase 3 0) } }

/-- PRICKING_COPY_CHECK (R86, R88, R89, R97): checks 0x01 to 0x0B on both copies, and their rank. UNSIGNED is set here (log
entry 149). -/
def execPrickingCopyCheck (readErrorA readErrorB : Bool) (s : State) : Result :=
  if !s.bootAt phaseStage1 then .next s else
  let a := s.copyCheck 0 readErrorA
  let b := s.copyCheck 1 readErrorB
  let s := ((s.showCopy 0 a).showCopy 1 b).wrBoth Reg.BOOT_STAT_UNSIGNED (1 - s.rd .d0 Reg.SEC_FUSE_CFG_PRICK_SIGN)
  let order := if later (s.rd .d0 (Reg.BOOT_SEQ_SEQ 1)) (s.rd .d0 (Reg.BOOT_SEQ_SEQ 0)) then [1, 0] else [0, 1]
  let ranked := order.filter (fun c => (if c = 0 then a else b).1 = 0xFE)
  let s := { s with boot := { s.boot with ranked := ranked } }
  .next (if ranked = [] then s.enterMaint .full else s.setPhase phaseFwVerify)

/-- FIRMWARE_SLOT_CHECK (R105 to R108): the candidates are ordered and checked, and the first that passes runs. -/
def execFirmwareSlotCheck (readErrors : BitVec 2) (s : State) : Result :=
  if !s.bootAt phaseFwVerify then .next s else
  let s := (s.retireSpent 0).retireSpent 1
  let s := (s.showSlot 0 (readErrors.getLsbD 0)).showSlot 1 (readErrors.getLsbD 1)
  .next (s.trySlots readErrors s.slotOrder)

/-- REVOKE_FUSE_BURN (R87): the fuse of a slot the applied copy revokes; a fuse that does not read back posts event 255.
After the last one the boot goes on to lane training. -/
def execRevokeFuseBurn (slot : Fin 4) (readsRevoked : Bool) (s : State) : Result :=
  if slot.val ∉ s.boot.revokes then .next s else
  let left := s.boot.revokes.filter (· ≠ slot.val)
  let s := { s with boot := { s.boot with revokes := left } }
  let f := Reg.SEC_FUSE_CFG_KEY_REVOKED
  let s := if readsRevoked then s.wr .d0 f (withBit (s.rd .d0 f) slot true) else s.post 255
  .next (if left = [] ∧ s.phase = phaseApply ∧ !s.boot.settingsLost then s.setPhase phaseLanes else s)

/-- LANE_WINDOW_CLOSE (R94, R95). -/
def execLaneWindowClose (s : State) : Result :=
  .next (if s.phase = phaseLanes then s.setPhase phaseMembership else s)

/-- MEMBERSHIP_WINDOW_CLOSE (R94, R95, R414): READY, and GOOSE publication starts. -/
def execMembershipWindowClose (s : State) : Result :=
  .next (if s.phase = phaseMembership then (s.setPhase phaseReady).noteReady.gooseStart else s)

/-- One boot record is due: at READY or on entering maintenance-only mode, from the worker, or from the die that serves before
one stands (R99, R402). -/
def State.recordDue (s : State) : Bool :=
  s.boot.flashOk && !s.boot.recorded && s.boot.readyTick.isSome && (s.dieBoots .d0 || s.dieBoots .d1)

/-- BOOT_RECORD_WRITE (R99). -/
def execBootRecordWrite (full : Bool) (s : State) : Result :=
  if !s.recordDue then .next s else
  let p := s.nextFree bootLogBase 64 0 1024 (latest 0 (s.validPlaces bootLogBase 0x10000 64))
  .next (flashFifo full s { s.writeRing bootLogBase 64 p.1 (withCrc (s.bootRecord p.2)) with boot := { s.boot with recorded := true } })

/-- FW_FALLBACK (R111): during APPLY the worker's 0xFB marks the running slot and resets the device; outside APPLY a
write is ignored and posts event 255. -/
def State.fallbackWrite (s : State) (d : Die) (key : Nat) : State :=
  if s.phase ≠ phaseApply then s.post 255
  else if key ≠ 0xFB ∨ !s.isWorker d then s
  else
    let n := s.rd d Reg.BOOT_STAT_FW_SLOT
    let s := (s.wrBoth (Reg.FW_SLOT_STAT_REVERT n) 1).wrBoth (Reg.FW_SLOT_STAT_RESULT n) 0x0F
    let s := if (s.slotEntry n).2.1 = 3 then s.setSlotState n slotRetired else s
    s.fallbackReset

def execFwFallback (d : Die) (key : Byte) (s : State) : Result := .next (s.fallbackWrite d key.toNat)

/-- SLOT_CONFIRM (R108): the TRIAL slot that has run for 60 s becomes ACTIVE, and the slot that was ACTIVE, STANDBY;
event 255. The attempt count stays (log entry 175). -/
def execSlotConfirm (full : Bool) (s : State) : Result :=
  let n := s.rd (s.worker.getD .d0) Reg.BOOT_STAT_FW_SLOT
  if !s.boot.fwRuns || (s.slotEntry n).1 ≠ slotTrial || (s.phase ≠ phaseReady && s.phase ≠ phaseRun) then .next s else
  let t := s.setSlotState n slotActive
  let t := if (t.slotEntry (1 - n)).1 = slotActive then t.setSlotState (1 - n) slotStandby else t
  .next (flashFifo full s (t.post 255))

end Sys2Proof.Machine
end

