-- ==== Sys2Proof/Machine/Cle.lean ====
section
/-! DEFINITION. The commands of the control-law engines: the instructions of a run, its start and end, faults and releases
(R221 to R251, on the arithmetic of R199 to R220). -/

namespace Sys2Proof.Machine

/-! ## Instructions (R226) -/

/-- CLE_NOP (R226). -/
def execCleNop (d : Die) (c : Fin 4) (ecc : Ecc) (s : State) : Result :=
  .next (s.cleStep d c .nop ecc (fun _ s => .ok s))

/-- CLE_CLR (R226): the accumulator is 0 and its ACC_OVF clear. -/
def execCleClr (d : Die) (c : Fin 4) (ecc : Ecc) (s : State) : Result :=
  .next (s.cleStep d c .clr ecc (fun i s => .ok (s.setAcc d c i.lane ⟨0, false⟩)))

/-- CLE_LDI (R226, R210): the accumulator takes the integrator state at A. -/
def execCleLdi (d : Die) (c : Fin 4) (ecc : Ecc) (s : State) : Result :=
  .next (s.cleStep d c .ldi ecc (fun i s => .ok (s.setAcc d c i.lane ⟨s.intState d c i.a, false⟩)))

/-- The terms of a MAC from `j` up, in order (R226). -/
def State.macTerms (s : State) (d : Die) (c : Nat) (i : CleInstr) : List Int :=
  (List.range i.n).map (fun j => alignedProduct (s.smInt d c (i.a + j)) (s.sm d c (i.b + j)))

/-- CLE_MAC (R205 to R211): aligned products added one at a time; a shift out of range is a CLE fault and gives no
result. -/
def execCleMac (d : Die) (c : Fin 4) (ecc : Ecc) (s : State) : Result :=
  .next (s.cleStep d c .mac ecc (fun i s =>
    if (List.range i.n).all (fun j => coefOk (s.sm d c (i.b + j))) then
      .ok (s.setAcc d c i.lane ((s.macTerms d c i).foldl Acc.plus (s.accOf d c i.lane)))
    else .error (causeCoef, s)))

/-- CLE_ADD (R209, R226): direct terms added one at a time. -/
def execCleAdd (d : Die) (c : Fin 4) (ecc : Ecc) (s : State) : Result :=
  .next (s.cleStep d c .add ecc (fun i s =>
    .ok (s.setAcc d c i.lane
      (((List.range i.n).map (fun j => directTerm (s.smInt d c (i.a + j)))).foldl Acc.plus (s.accOf d c i.lane)))))

/-- CLE_ADDI (R217): the integrator state at A added as a term. -/
def execCleAddi (d : Die) (c : Fin 4) (ecc : Ecc) (s : State) : Result :=
  .next (s.cleStep d c .addi ecc (fun i s =>
    .ok (s.setAcc d c i.lane ((s.accOf d c i.lane).plus (s.intState d c i.a)))))

/-- ACC_OVF of an accumulation that no loop writeback closes: flag, and the first closing instruction (R248). -/
def State.noteOvf (s : State) (d : Die) (c : Nat) : State :=
  let s := if s.bit d (Reg.CLE_STAT_ACC_OVF c) then s else s.wr d (Reg.CLE_PC_REC_OVF_PC c) (s.cle d c).pc
  s.raise d (Reg.CLE_STAT_ACC_OVF c)

/-- The update of an integrator holds (R232). -/
def State.stiHolds (s : State) (d : Die) (c ci : Nat) (inc : Int) : Bool :=
  let l := ci / 2 ^ 4 % 32
  let st := s.loopState d c l
  (bitOf ci 0 && ((0 < inc && (s.cle d c).limHi.getLsbD l) || (inc < 0 && (s.cle d c).limLo.getLsbD l)))
    || (bitOf ci 1 && (st = loopHold || st = loopRampDown || st = loopTripped))

/-- CLE_STI (R216, R232): the accumulator stored as the integrator's state, or the old state where the update holds, each
clamped to the limits. -/
def execCleSti (d : Die) (c : Fin 4) (ecc : Ecc) (s : State) : Result :=
  .next (s.cleStep d c .sti ecc (fun i s =>
    let a := s.accOf d c i.lane
    let s0 := s.intState d c i.a
    let lo := s.smInt d c (i.a + 3)
    let hi := s.smInt d c (i.a + 4)
    if s.stiHolds d c (s.sm d c (i.a + 5)) (a.v - s0) then .ok (s.storeInt d c i.a (limitClamp s0 lo hi))
    else
      let s := s.storeInt d c i.a (limitClamp a.v lo hi)
      .ok (if a.ovf then s.noteOvf d c else s)))

/-- The enabled loop whose OUT word is `w`. -/
def State.loopOfOut (s : State) (d : Die) (c w : Nat) : Option Nat := (s.loops d c).find? (fun n => s.outWord d c n = w)

/-- A SHORT preload (R218, R235): the loop's flag, and its hand-over ramp from NORMAL or HANDOVER_RAMP; or the CLE's
flag. -/
def State.shortPre (s : State) (d : Die) (c b : Nat) : State :=
  match s.loopOfOut d c b with
  | none => s.raise d (Reg.CLE_STAT_PRE_SHORT c)
  | some n =>
    let s := s.raise d (Reg.LOOP_STAT_PRE_SHORT c n)
    let st := s.loopState d c n
    if (s.cle d c).sup && (st = loopNormal || st = loopHandover) then
      ((s.wr d (Reg.LOOP_YFROM_Y c n) (s.sm d c b)).wr d (Reg.LOOP_STAT_RAMP_J c n) 0).setLoopState d c n loopHandover
    else s

/-- CLE_PRE (R210, R218, R220, R235): it closes the accumulation P and sets the integrator at A so that the output equals
y_out = x[B]; an addition clamped in P or in forming S is an ACC_OVF. The accumulation that begins with P takes the new state
as one addition. -/
def execClePre (d : Die) (c : Fin 4) (ecc : Ecc) (s : State) : Result :=
  .next (s.cleStep d c .pre ecc (fun i s =>
    let p := s.accOf d c i.lane
    let z := (⟨directTerm (s.smInt d c i.b), false⟩ : Acc).plus (-p.v)
    let r := limitClamp z.v (s.smInt d c (i.a + 3)) (s.smInt d c (i.a + 4))
    let s := if p.ovf || z.ovf || r.2 then s.shortPre d c i.b else s
    let s := if p.ovf || z.ovf then s.noteOvf d c else s
    .ok ((s.storeInt d c i.a r).setAcc d c i.lane ((⟨p.v, false⟩ : Acc).plus r.1))))

/-- The output word of a loop writeback, and what it does to the loop's state and ramp (R236). -/
def State.loopOut (s : State) (d : Die) (c n : Nat) (y : Int) (prev : Int) : State × Int :=
  let st := s.loopState d c n
  let r := s.rd d (Reg.LOOP_ACT_RAMP_LOG2 c n)
  let j := s.rd d (Reg.LOOP_STAT_RAMP_J c n) + 1
  let from_ := signed 32 (s.rd d (Reg.LOOP_YFROM_Y c n))
  if st = loopHandover then
    if 2 ^ r ≤ j then ((s.wr d (Reg.LOOP_STAT_RAMP_J c n) j).setLoopState d c n loopNormal, y)
    else (s.wr d (Reg.LOOP_STAT_RAMP_J c n) j, from_ + conv ((y - from_) * j) r)
  else if st = loopRampDown then
    if 2 ^ r ≤ j then ((s.wr d (Reg.LOOP_STAT_RAMP_J c n) j).setLoopState d c n loopHold, 0)
    else (s.wr d (Reg.LOOP_STAT_RAMP_J c n) j, from_ + conv ((0 - from_) * j) r)
  else if st = loopHold ∨ st = loopTripped then (s, prev)
  else (s, y)

/-- A loop writeback (R236): LOOP_Y, the flags, ACC_OVF's action but in a loop that MISS_LIMIT stopped (R245), and the word
OUT. -/
def State.loopWb (s : State) (d : Die) (c n : Nat) (a : Acc) (q : Int × Bool) : State :=
  let s := s.wrInt d (Reg.LOOP_Y_YIN c n) q.1
  let s := if q.2 then s.raise d (Reg.LOOP_STAT_SAT c n) else s
  let s := (s.wr d (Reg.LOOP_STAT_LIM_HI c n) (b2n (q.2 && q.1 = 2 ^ 31 - 1))).wr d (Reg.LOOP_STAT_LIM_LO c n)
    (b2n (q.2 && q.1 = -(2 ^ 31 - 1)))
  let prev := s.smInt d c (s.outWord d c n)
  let s := if a.ovf then
      let s := s.raise d (Reg.LOOP_STAT_ACC_OVF c n)
      if (s.cle d c).sup && !(s.cle d c).missEnd.getLsbD n then
        s.pendLoop d c n ⟨3, (s.actionOf d c n true).1, (s.actionOf d c n true).2⟩ else s
    else s
  let r := s.loopOut d c n (if a.ovf then prev else q.1) prev
  r.1.setSm d c (r.1.outWord d c n) (unsigned 32 r.2)

/-- CLE_WB (R213, R214, R236): writeback to word A, or through the loop output rules. -/
def execCleWb (d : Die) (c : Fin 4) (ecc : Ecc) (s : State) : Result :=
  .next (s.cleStep d c .wb ecc (fun i s =>
    let a := s.accOf d c i.lane
    let q := wb a.v i.rnd
    if i.lp then .ok (s.loopWb d c i.loop a q)
    else
      let s := s.setSm d c i.a (unsigned 32 q.1)
      let s := if q.2 then
          (if s.bit d (Reg.CLE_STAT_WB_SAT c) then s else s.wr d (Reg.CLE_PC_REC_SAT_PC c) (s.cle d c).pc).raise d
            (Reg.CLE_STAT_WB_SAT c)
        else s
      .ok (if a.ovf then s.noteOvf d c else s)))

/-- CLE_FBK (R233): EST while the loop substitutes, MEAS otherwise and always where KIND is 0. -/
def execCleFbk (d : Die) (c : Fin 4) (ecc : Ecc) (s : State) : Result :=
  .next (s.cleStep d c .fbk ecc (fun i s =>
    let est := s.loopState d c i.loop = loopSubst ∧ s.rd d (Reg.LOOP_SRC_KIND c i.loop) ≠ 0
    let v := s.sm d c (if est then s.rd d (Reg.LOOP_WORDS_EST c i.loop) else s.rd d (Reg.LOOP_CFG_MEAS c i.loop))
    let x := s.cle d c
    .ok ((s.setCle d c { x with fb := tabSet none x.fb i.loop (some (signed 32 v)) }).setSm d c i.a v)))

/-- CLE_MOV (R226): words copied in rising order. -/
def execCleMov (d : Die) (c : Fin 4) (ecc : Ecc) (s : State) : Result :=
  .next (s.cleStep d c .mov ecc (fun i s =>
    .ok ((List.range i.n).foldl (fun s j => s.setSm d c (i.b + j) (s.sm d c (i.a + j))) s)))

/-- A transfer of `n` words at `a` lies in one area that R228 allows, word aligned. -/
def transferOk (c a n : Nat) (window : Bool) : Bool :=
  a % 4 = 0 &&
    (match areaOf c a with
     | .sram x =>
       let e := x + 4 * n
       (0x10000000 ≤ x && e ≤ 0x10000000 + 0x40000 * ((x - 0x10000000) / 0x40000 + 1) && x < 0x10100000)
         || (0x20000000 ≤ x && e ≤ 0x20000000 + 0x100000 * ((x - 0x20000000) / 0x100000 + 1))
     | .iod => window && a + 4 * n ≤ 0x41000000
     | _ => false)

/-- A transfer meets an error at its word `w`, in SRAM: corrected and counted, or recorded with event 241, where that word lies
(R126). -/
def State.transferEcc (s : State) (d : Die) (c a w : Nat) (ecc : Ecc) : State :=
  match areaOf c (a + 4 * w), ecc with
  | .sram x, .corrected => s.eccCorrected d x
  | .sram x, .uncorrectable => s.eccUncorrectable d x
  | _, _ => s

/-- A transfer of a GET or PUT: a fault where its words lie where R228 does not allow them, or meet an uncorrectable error. -/
def State.transfer (s : State) (d : Die) (c a n : Nat) (window : Bool) (w : Nat) (ecc : Ecc) (f : State → State) :
    Except (Nat × State) State :=
  if !transferOk c a n window then .error (causeTransfer, s)
  else if ecc = .uncorrectable then .error (causeTransfer, s.transferEcc d c a (w % n) ecc)
  else .ok (f (s.transferEcc d c a (w % n) ecc))

/-- A GET takes the snapshot of its CLE's transfer unit where it reads TB_TIME_SEC_HI: reader 16 + c (R73, log entry 129). -/
def State.getSnap (s : State) (d : Die) (c a n : Nat) : State :=
  if (List.range n).any (fun j => a + 4 * j = 0x40100008) then s.takeSnap d (16 + c) else s

/-- A transfer of CLE `c` crosses a FIFO: into the I/O die, or to SRAM of the other region (R58). -/
def State.transferCrosses (s : State) (d : Die) (c a : Nat) : Bool :=
  match areaOf c a with
  | .iod => true
  | .sram x => s.reqRegion d (12 + c) ≠ regionOf (s.physAddr d x)
  | _ => false

/-- CLE_GET (R126, R228): words copied into state memory; they are lost where an internal fault has filled the FIFO of their crossing,
with event 255 (R60). -/
def execCleGet (d : Die) (c : Fin 4) (ecc : Ecc) (word : Nat) (full : Bool) (s : State) : Result :=
  .next (s.cleStep d c .get .clean (fun i s =>
    let a := s.sm d c i.b
    s.transfer d c a i.n true word ecc (fun s =>
      let s := s.getSnap d c a i.n
      if full && s.transferCrosses d c a then s.post 255
      else s.setSmWords d c i.a ((List.range i.n).map (fun j => (s.loadWord d (16 + c) c (a + 4 * j)).getD 0)))))

/-- CLE_PUT (R126, R228): words copied out of state memory, or lost in a full FIFO as those of a GET (R60). -/
def execClePut (d : Die) (c : Fin 4) (ecc : Ecc) (word : Nat) (full : Bool) (s : State) : Result :=
  .next (s.cleStep d c .put .clean (fun i s =>
    let a := s.sm d c i.b
    s.transfer d c a i.n false word ecc (fun s =>
      if full && s.transferCrosses d c a then s.post 255 else
      match areaOf c a with
      | .sram x => (List.range i.n).foldl (fun s j =>
          (s.breakResv d 12 (x + 4 * j)).setRam32 d.toNat (x + 4 * j) (s.sm d c (i.a + j))) s
      | _ => s)))

/-- CLE_OUT (R226, R250): words copied to the output block's shadow; they are lost where an internal fault has filled the FIFO of their
crossing, with event 255 (R60). -/
def execCleOut (d : Die) (c : Fin 4) (ecc : Ecc) (full : Bool) (s : State) : Result :=
  .next (s.cleStep d c .out ecc (fun i s =>
    .ok (if full then s.post 255
      else (List.range i.n).foldl (fun s j => s.writeShIo d (Reg.CLE_OUT_Y c (i.b + j)) (s.sm d c (i.a + j))) s)))

/-! ## The start of a run (R223, R239, R242, R244) -/

/-- The feedback source at the start of a run (R239). -/
def State.feedbackCheck (s : State) (d : Die) (c n : Nat) (entered : Bool) : State :=
  let st := s.loopState d c n
  let hold := s.rd d (Reg.LOOP_TIME_T_HOLD c n)
  if (st = loopNormal ∨ st = loopHandover) ∧ !s.usable d c n then
    let s := s.loopFlag d (Reg.LOOP_STAT_FB_LOSS c n)
    if 0 < hold then (s.setLoopState d c n loopSubst).wr d (Reg.LOOP_CNT_SUB_CNT c n) 1
    else s.pendLoop d c n ⟨4, s.rd d (Reg.LOOP_ACT_ENDING c n), true⟩
  else if st = loopSubst ∧ !entered then
    if s.usable d c n && s.errorOk d c n then s.setLoopState d c n loopNormal
    else if hold < s.rd d (Reg.LOOP_CNT_SUB_CNT c n) + 1 then s.actLoop d c n (s.rd d (Reg.LOOP_ACT_ENDING c n)) true
    else s.wr d (Reg.LOOP_CNT_SUB_CNT c n) (s.rd d (Reg.LOOP_CNT_SUB_CNT c n) + 1)
  else s

/-- One loop at the start of a run: what was waiting for it takes effect, then its source is looked at. -/
def State.loopStart (s : State) (d : Die) (c n : Nat) : State :=
  match s.pendOf d c n with
  | none => s.feedbackCheck d c n false
  | some p => ((s.setPend d c n none).actLoop d c n p.code p.ending).feedbackCheck d c n (p.code = actSubst)

/-- A bit of LOOP_STAT of the loops. -/
def State.limBits (s : State) (d : Die) (c : Nat) (f : Nat → Nat → Field) : BitVec 32 :=
  (s.loops d c).foldl (fun m n => setBit m n (s.bit d (f c n))) 0

/-- A CLE whose runs start: enabled, not the spare cluster's, the pricking applied, the device not stopped, and its cluster not
being substituted (R223, R448, R449, R478). -/
def State.cleRuns (s : State) (d : Die) (c : Nat) : Bool :=
  s.bit d (Reg.CLE_CFG_EN c) && c ≠ s.spare d && phaseLanes ≤ s.rd d Reg.BOOT_STAT_PHASE && s.rd d Reg.BOOT_STAT_PHASE ≤ phaseRun
    && (s.adaptOf d).subst ≠ some c && !(s.adaptOf d).lostClusters.getLsbD c && (s.inService d || s.dieState d = 5)

/-- CLE_RUN_START (R223, R239, R244): a run still going is abandoned as an overrun; the run starts at ENTRY with its
accumulators clear, and the selvedge looks at every loop. -/
def execCleRunStart (d : Die) (c : Fin 4) (s : State) : Result :=
  if !s.cleRuns d c then .next s else
  let s := if s.rd d (Reg.CLE_STAT_STATE c) = cleRun then ((s.raise d (Reg.CLE_STAT_OVERRUN c)).missRun d c).dropOut d c else s
  let x := s.cle d c
  let s := s.setCle d c { x with
    pc := s.rd d (Reg.CLE_CFG_ENTRY c), k := s.io Reg.TB_PERIOD_NUM_K, acc := [], ovf := 0, sched := {}, fb := []
    mode := s.limBits d c Reg.LOOP_STAT_MODE, first := s.limBits d c Reg.LOOP_STAT_FIRST
    limHi := s.limBits d c Reg.LOOP_STAT_LIM_HI, limLo := s.limBits d c Reg.LOOP_STAT_LIM_LO, ran := true }
  let s := s.wr d (Reg.CLE_STAT_STATE c) cleRun
  .next (if x.sup then (s.loops d c).foldl (fun s n => s.loopStart d c n) s else s)

/-! ## The end of a run (R224, R237, R241 to R247) -/

/-- Following error at END (R237). `limit`: this END's miss reaches MISS_LIMIT. -/
def State.followError (s : State) (d : Die) (c n : Nat) (limit : Bool) : State :=
  let st := s.loopState d c n
  if st = loopNormal ∨ st = loopHandover ∨ st = loopSubst then
    let meas := s.smInt d c (s.rd d (Reg.LOOP_CFG_MEAS c n))
    let fb := if s.rd d (Reg.LOOP_SRC_KIND c n) = 0 then meas else (tabGet none (s.cle d c).fb n).getD meas
    let e := s.smInt d c (s.rd d (Reg.LOOP_CFG_REF c n)) - fb
    let timer := s.rd d (Reg.LOOP_TIME_TIMER c n)
    let cnt := s.rd d (Reg.LOOP_CNT_FE_CNT c n)
    if s.rd d (Reg.LOOP_LIM_LIMIT c n) < absN e then
      let s := s.wr d (Reg.LOOP_CNT_FE_CNT c n) (min (cnt + 1) timer)
      let a := s.actionOf d c n false
      let rank := if a.1 = actTrip then 2 else 4
      let free : Bool := match s.pendOf d c n with | none => true | some p => decide (rank ≤ p.rank)
      if cnt < timer ∧ timer ≤ cnt + 1 ∧ !limit ∧ free then
        (s.loopFlag d (Reg.LOOP_STAT_FE c n)).pendLoop d c n ⟨4, a.1, a.2⟩
      else s
    else s.wr d (Reg.LOOP_CNT_FE_CNT c n) 0
  else s

/-- The boundary after a run's own has come: K names another period than the run's. -/
def State.runGone (s : State) (d : Die) (c : Nat) : Bool := s.io Reg.TB_PERIOD_NUM_K ≠ (s.cle d c).k

/-- A latched release at END (R241, R242): FIRST of the following run, whose boundary may have come already. -/
def State.decideRelease (s : State) (d : Die) (c n : Nat) (limit : Bool) : State :=
  let x := s.cle d c
  if !x.rel.getLsbD n then s else
  let s := s.setCle d c { x with rel := setBit x.rel n false }
  let st := s.loopState d c n
  if (st = loopHold ∨ st = loopRampDown ∨ st = loopTripped) ∧ !limit ∧ s.pendOf d c n = none ∧ s.usable d c n
      ∧ s.errorOk d c n then
    let y := s.cle d c
    let gone := s.runGone d c
    let s := (s.setLoopState d c n loopNormal).setCle d c
      { y with firstNext := setBit y.firstNext n (!gone), missEnd := setBit y.missEnd n false }
    let s := if gone then s.wr d (Reg.LOOP_STAT_FIRST c n) 1 else s
    (s.wr d (Reg.LOOP_CNT_FE_CNT c n) 0).wr d (Reg.LOOP_CNT_SUB_CNT c n) 0
  else s.loopFlag d (Reg.LOOP_STAT_REL_REFUSED c n)

/-- The selvedge at END: every enabled loop, then the trip request (R237, R238, R241). -/
def State.selvedgeEnd (s : State) (d : Die) (c : Nat) (limit : Bool) : State :=
  ((s.loops d c).foldl (fun s n => (s.followError d c n limit).decideRelease d c n limit) s).formRequest d c

/-- END posts the DONE descriptor as a core post with delay 0 (R247); the post is lost where an internal fault has filled the FIFO of
its crossing, with event 255 (R60). -/
def State.donePost (s : State) (d : Die) (c : Nat) (full : Bool) : State :=
  let dsc := s.rd d (Reg.CLE_CFG_DONE_DESC c)
  if !s.bit d (Reg.CLE_CFG_DONE_EN c) then s
  else if full then s.post 255
  else if s.bit d (Reg.BOB_DESC_VALID c dsc) then
    let t : Task := ⟨dsc, (s.cle d c).k % 2 ^ 16, false, c, s.rd d (Reg.BOB_DESC_PRIO c dsc), 0, .done⟩
    let b := s.bob d c
    if 64 ≤ b.ready.length then (s.takePlace d c t).getD (s.setBob d c (b.hold s.tb.ticks (.done t))) else s.postReady d c t
  else s

/-- The time from the run's boundary to END in ns: the cycles of R229, or the ticks that have passed where they are more. -/
def State.runNs (s : State) (d : Die) (c : Nat) : Nat :=
  min 0xFFFFF (max (17 + (s.cle d c).sched.finish)
    (2 * (s.tb.ticks - (if s.runGone d c then s.tb.pTick else s.tb.bTick))))

/-- END of run: RUN_LAST and RUN_MAX, the selvedge, the commit of set 0x200 + c, the miss where it is late, and the
post. A run whose boundary k + 1 has passed is late, and nothing of it is committed (R224, R243). A commit that meets a full FIFO is lost,
with event 255 (R60). -/
def State.endRun (s : State) (d : Die) (c : Nat) (full fullIod : Bool) : State :=
  let gone := s.runGone d c
  let late := s.inGuard || gone
  let ns := s.runNs d c
  let s := (s.wr d (Reg.CLE_STAT_STATE c) cleIdle).wr d (Reg.CLE_RUN_LAST_NS c) ns
  let s := s.wr d (Reg.CLE_RUN_MAX_NS c) (max ns (s.rd d (Reg.CLE_RUN_MAX_NS c)))
  let s := if (s.cle d c).sup then s.selvedgeEnd d c (late && s.missReaches d c) else s
  let s := if gone then s.dropOut d c else if fullIod then (s.post 255).dropOut d c else s.commitIo d (setOut c)
  (if late then s.missRun d c else s.committedRun d c).donePost d c full

/-- CLE_END (R224, R227). -/
def execCleEnd (d : Die) (c : Fin 4) (full fullIod : Bool) (s : State) : Result :=
  if !s.cleIssues d c then .next s else
  match s.cleFetch d c with
  | none => .next (s.cleFaulted d c causeIllegal)
  | some i =>
    if i.op ≠ .stop then .next s
    else if s.executes d c i then .next (s.endRun d c full fullIod)
    else .next (s.cleIssued d c i)

/-- A write of 1 to LOOP_CTL.RELEASE is latched (R241). -/
def State.releaseWrite (s : State) (d : Die) (c n : Nat) : State :=
  s.setCle d c { s.cle d c with rel := setBit (s.cle d c).rel n true }

/-- LOOP_RELEASE (R241). -/
def execLoopRelease (d : Die) (c : Fin 4) (n : Fin 32) (s : State) : Result := .next (s.releaseWrite d c n)

/-- CLE_FAULT (R246): a fault of a running CLE from a cause outside its instruction commands, such as an uncorrectable
word. -/
def execCleFault (d : Die) (c : Fin 4) (cause : Byte) (s : State) : Result :=
  if s.rd d (Reg.CLE_STAT_STATE c) ≠ cleRun then .next s
  else
    let s := if cause.toNat = causeCleEcc then s.eccUncorrectable d (pmAddr c (s.cle d c).pc) else s
    .next (s.cleFaulted d c cause.toNat)

/-- CLE_RUN_MAX_CLR (R248). -/
def execCleRunMaxClr (d : Die) (c : Fin 4) (s : State) : Result := .next (s.wr d (Reg.CLE_RUN_MAX_NS c) 0)

/-! ## At the boundary -/

/-- Modes and FIRST at a boundary (R234, R242). -/
def State.modeBoundary (s : State) (d : Die) (c n : Nat) : State :=
  let m := s.rd d (Reg.LOOP_CTL_MODE c n)
  let s := s.wr d (Reg.LOOP_STAT_FIRST c n) (b2n ((s.cle d c).firstNext.getLsbD n))
  if m = s.rd d (Reg.LOOP_STAT_MODE c n) then s
  else
    let s := (s.wr d (Reg.LOOP_STAT_MODE c n) m).wr d (Reg.LOOP_STAT_FIRST c n) 1
    if s.loopState d c n = loopHandover then s.setLoopState d c n loopNormal else s

/-- A CLE at a boundary: the miss of a faulted run, then modes and FIRST (R234, R246). -/
def State.cleBoundary (s : State) (d : Die) (c : Nat) : State :=
  let s := if (s.cle d c).missDue then (s.setCle d c { s.cle d c with missDue := false }).missRun d c else s
  let s := (s.loops d c).foldl (fun s n => s.modeBoundary d c n) s
  s.setCle d c { s.cle d c with firstNext := 0 }

/-- At a gate release every loop starts NORMAL with its counts at 0, and supervision starts (R251). -/
def State.cleRelease (s : State) (d : Die) (c : Nat) : State :=
  let s := (s.loops d c).foldl (fun s n =>
    ((s.setLoopState d c n loopNormal).wr d (Reg.LOOP_STAT_FIRST c n) 0 |>.wr d (Reg.LOOP_CNT_FE_CNT c n) 0).wr d
      (Reg.LOOP_CNT_SUB_CNT c n) 0) (s.wr d (Reg.CLE_STAT_MISS_RUN c) 0)
  s.setCle d c { s.cle d c with pend := [], rel := 0, firstNext := 0, missEnd := 0, sup := true }

/-- No commit came from the worker's run in progress, or from a faulted one (R244, R246). -/
def State.runUncommitted (s : State) (d : Die) (c : Nat) : Bool :=
  s.isWorker d && ((s.cle d c).missDue || s.rd d (Reg.CLE_STAT_STATE c) = cleRun)

end Sys2Proof.Machine
end

