-- ==== Sys2Proof/Machine/Cores.lean ====
section
/-! DEFINITION. The vendor instructions of the cores, Bobbin's delays and watchdog, core faults and hardware locks (R128,
R131 to R147). -/

namespace Sys2Proof.Machine

/-- The core executes instructions: not waiting, faulted or halted, its die on the bride, and no self-check stalls it
(R465). -/
def State.coreRuns (s : State) (d : Die) (core : Nat) : Bool :=
  (s.core d core).mode = .running && !s.red.checking && !s.lost d && s.red.placeDue ≠ some (d, core / 3)

/-- The vendor instructions (R131). -/
inductive FzOp where
  | twait | tpost | tcancel | lock | unlock | commit
deriving DecidableEq, Repr

/-- A word under the custom-0 opcode: its instruction, rd, rs1 and rs2; every other pair of funct3 and funct7 is an illegal
instruction (R131). -/
def fzDecode (w : Word) : Option (FzOp × Nat × Nat × Nat) :=
  let n := w.toNat
  let op := match bitsAt n 12 3, bitsAt n 25 7 with
    | 0, 0 => some FzOp.twait
    | 1, 0 => some .tpost
    | 1, 1 => some .tcancel
    | 2, 0 => some .lock
    | 2, 1 => some .unlock
    | 3, 0 => some .commit
    | _, _ => none
  if bitsAt n 0 7 ≠ 0x0B then none else op.map (fun o => (o, bitsAt n 7 5, bitsAt n 15 5, bitsAt n 20 5))

/-- An instruction of the core retires with a value for rd, which x0 discards (R129, R131). -/
def State.setRd (s : State) (d : Die) (core : Nat) (rd : Fin 32) (v : Nat) : State :=
  let x := s.core d core
  s.setCore d core { x with retired := x.retired + 1, rd := if rd = 0 then x.rd else BitVec.ofNat 32 v }

/-- The instruction of core `core` that a custom-0 word encodes, with its register operands read from `x`; none for an illegal one
(R131). `full` as in FZ_COMMIT. -/
def fzInstr (d : Die) (core : Fin 12) (w : Word) (x : Nat → Word) (full : Bool) : Option Instr :=
  (fzDecode w).map (fun p =>
    let rd := Fin.ofNat 32 p.2.1
    let rs1 := x p.2.2.1
    match p.1 with
    | .twait => .fzTwait d core rd
    | .tpost => .fzTpost d core rd rs1 (x p.2.2.2)
    | .tcancel => .fzTcancel d core rd rs1
    | .lock => .fzLock d core rd rs1
    | .unlock => .fzUnlock d core rd rs1
    | .commit => .fzCommit d core rd rs1 full)

/-- Instructions of a core in the ticks before `t` that no command shows: at most four in a tick (log entry 13). -/
def hiddenInstrs (die core : Nat) : Nat → Nat
  | 0 => 0
  | t + 1 => hiddenInstrs die core t + Config.coreInstrs die core t % 5

/-- The cycles of a core since its reset, and the instructions it has retired since (R129). -/
def State.mcycle (s : State) (d : Die) (core : Nat) : Nat :=
  (s.clockMilli d (s.phys d (clusterOf core) / 2) - (s.core d core).cycFrom) / 1000
def State.minstret (s : State) (d : Die) (core : Nat) : Nat :=
  let x := s.core d core
  x.retired + (hiddenInstrs d.toNat core s.tb.ticks - hiddenInstrs d.toNat core x.resetAt)

/-- The CSRs of a core that R121 and R129 name, by their RISC-V numbers: mhartid is the number of the core; mie, mtvec and mip read 0;
mcycle and minstret count (log entry 13). -/
def State.csr (s : State) (d : Die) (core n : Nat) : Option Nat :=
  if n = 0xF14 then some core
  else if n = 0x304 ∨ n = 0x305 ∨ n = 0x344 then some 0
  else if n = 0xB00 then some (s.mcycle d core % 2 ^ 32)
  else if n = 0xB80 then some (s.mcycle d core / 2 ^ 32 % 2 ^ 32)
  else if n = 0xB02 then some (s.minstret d core % 2 ^ 32)
  else if n = 0xB82 then some (s.minstret d core / 2 ^ 32 % 2 ^ 32)
  else none

/-- Entries of two lists in order of age, those of the first before those of the second of one tick. -/
def byAge : List Task → List Task → List Task
  | [], us => us
  | t :: ts, us => us.filter (fun u => u.entered < t.entered) ++ t :: byAge ts (us.filter (fun u => t.entered ≤ u.entered))

/-- A core of cluster `c` begins to wait: what this tick's cancels took from the ready list is still there for its dispatch, and
goes again after it (R142). -/
def State.waitDispatch (s : State) (d : Die) (c : Nat) : State :=
  let b := s.bob d c
  let cs := b.cancelsNow s.tb.ticks
  if cs = [] then s.dispatch d c 3 else
  let s := s.setBob d c { b with ready := byAge b.ready (cs.foldl (fun l x => byAge l x.gone) []) }
  let s := s.dispatch d c 3
  let b := s.bob d c
  s.setBob d c { b with
    ready := b.ready.filter (fun t => cs.all (fun x => x.desc ≠ t.desc))
    cancels := (s.tb.ticks, (b.cancelsNow s.tb.ticks).map (fun x => { x with gone := b.ready.filter (fun t => t.desc = x.desc) })) }

/-- FZ_TWAIT (R138, R152): the core waits, leaves its class and drops its reservation, since it holds no state from one task to the
next (R130), and takes a matching ready entry at once. -/
def execFzTwait (d : Die) (core : Fin 12) (rd : Fin 32) (s : State) : Result :=
  if s.coreRuns d core then
    .next ((s.setCore d core
      { s.core d core with mode := .waiting, bulk := false, since := none, resv := none, waitRd := rd }).waitDispatch d
      (clusterOf core))
  else .next s

/-- Status values of R133. -/
def stPosted : Nat := 0
def stFull : Nat := 1
def stInvalid : Nat := 2

/-- Slots of the delay list in use: waiting entries and expired ones that are held (R140). -/
def Bobbin.delaySlots (b : Bobbin) : Nat :=
  b.delay.length + (b.held.filter (fun h => match h with | .delay _ => true | _ => false)).length

/-- A core's post: its status, and the entry in the ready or the delay list (R132, R136, R140); one of a descriptor that another core
cancels in this tick is removed, and of the posts of one tick those of the lower cores find room first (R142). -/
def State.corePost (s : State) (d : Die) (core : Nat) (rd : Fin 32) (c dsc arg delay : Nat) : State × Nat :=
  let b := s.bob d c
  let t : Task := ⟨dsc, arg, decide (delay ≠ 0), clusterOf core, s.rd d (Reg.BOB_DESC_PRIO c dsc), s.tb.ticks, .core core rd.val⟩
  if !s.bit d (Reg.BOB_DESC_VALID c dsc) || c = s.spare d then (s, stInvalid)
  else if delay = 0 then
    if 64 ≤ b.ready.length then
      match s.takePlace d c t with
      | some s => (s, stPosted)
      | none => (s, stFull)
    else (s.postReady d c t, stPosted)
  else if 64 ≤ b.delaySlots then (s, stFull)
  else if b.cancelsPost s.tb.ticks { t with delayed := false } then (s.noteCancel d c dsc 1, stPosted)
  else (s.setBob d c { b with delay := b.delay ++ [(delay, t)] }, stPosted)

/-- FZ_TPOST (R132, R136): rs1 names ARG, cluster and descriptor, rs2 the delay in Bobbin ticks. -/
def execFzTpost (d : Die) (core : Fin 12) (rd : Fin 32) (rs1 rs2 : Word) (s : State) : Result :=
  if s.coreRuns d core then
    let w := rs1.toNat
    let r := s.corePost d core rd (bitsAt w 8 2) (bitsAt w 0 7) (bitsAt w 16 16) (bitsAt rs2.toNat 0 16)
    .next (r.1.setRd d core rd r.2)
  else .next s

/-- A list or queue without the entries of a descriptor. -/
def Bobbin.without (b : Bobbin) (dsc : Nat) : Bobbin :=
  { b with ready := b.ready.filter (·.desc ≠ dsc), delay := b.delay.filter (·.2.desc ≠ dsc)
           held := b.held.filter (fun h => match h with | .delay t => t.desc ≠ dsc | _ => true) }

/-- Held posters are admitted while the ready list has room; those of a descriptor cancelled in this cycle are removed as they enter
(R142). -/
def State.admitCancel (s : State) (d : Die) (c : Nat) : Nat → State
  | 0 => s
  | n + 1 => if (s.bob d c).held = [] then s else State.admitCancel (s.admitHeld d c) d c n

/-- Core `k` was dispatched in this tick to an entry of descriptor `dsc`: to one that entered in this very tick, or not. An entry
that the canceller `by_` posted itself is of an earlier cycle (R142). -/
def State.dispatchedNow (s : State) (d : Die) (k dsc : Nat) (fresh : Bool) (by_ : Nat) : Bool :=
  let x := s.core d k
  x.since = some s.tb.ticks && x.task % 128 = dsc && decide (x.entered = s.tb.ticks) == fresh
    && !(fresh && (match x.poster with | .core j _ => decide (j = by_) | _ => false))

/-- A dispatch of an entry posted in the tick of its cancel did not happen: the core waits (R142). -/
def State.undispatch (s : State) (d : Die) (dsc by_ k : Nat) : State :=
  if s.dispatchedNow d k dsc true by_ then
    s.setCore d k { s.core d k with mode := .waiting, bulk := false, since := none }
  else s

/-- The cores of a cluster. -/
def clusterCores (c : Nat) : List Nat := [3 * c, 3 * c + 1, 3 * c + 2]

/-- FZ_TCANCEL (R133, R142): every undispatched entry of the descriptor leaves both lists, one posted in this tick with
them, whichever command comes first; an expired entry that is held still has its slot in the delay list. An entry dispatched in this
tick that had entered before it runs, and the status is LATE. -/
def execFzTcancel (d : Die) (core : Fin 12) (rd : Fin 32) (rs1 : Word) (s : State) : Result :=
  if s.coreRuns d core then
    let c := bitsAt rs1.toNat 8 2
    let dsc := bitsAt rs1.toNat 0 7
    let b := s.bob d c
    let others := (clusterCores c).filter (· ≠ core.val)
    let late := others.any (fun k => s.dispatchedNow d k dsc false core)
    let undone := others.any (fun k => s.dispatchedNow d k dsc true core)
    let st := if late then 2 else if undone || b.without dsc ≠ b then 1 else 0
    let s := others.foldl (State.undispatch · d dsc core) s
    let gone := b.ready.filter (fun t => t.desc = dsc && t.entered < s.tb.ticks)
    let s := (s.setBob d c { b.without dsc with
      cancels := (s.tb.ticks, b.cancelsNow s.tb.ticks ++ [⟨dsc, core, rd, st, gone⟩]) }).admitCancel d c (64 + b.held.length)
    .next ((s.setRd d core rd st).dispatch d c 3)
  else .next s

/-- Place of core `k` in the cyclic order that starts after the last owner (R146), or at core 0 where there was none
(log entry 179). -/
def lockTurn (last : Option Nat) (k : Nat) : Nat := (k + 11 - last.getD 11) % 12

def State.lockWas (s : State) (d : Die) (l : Nat) : LockWas := tabGet {} s.lockLast (64 * d.toNat + l)

/-- Core `k` acquires lock `l` from owner `prev`, with status `st` for `rd`. -/
def State.takeLock (s : State) (d : Die) (l k rd st : Nat) (prev : Option Nat) : State :=
  { s.setLock d l (.held k) with
    lockLast := tabSet {} s.lockLast (64 * d.toNat + l)
      { last := some k, at_ := some s.tb.ticks, rd := rd, prev := prev, st := st } }

/-- FZ_LOCK (R144, R146): of two requests in one tick the first core after the last owner has the lock, and the other
reads BUSY, where its rd is not x0 (R131). -/
def execFzLock (d : Die) (core : Fin 12) (rd : Fin 32) (rs1 : Word) (s : State) : Result :=
  if s.coreRuns d core then
    let l := bitsAt rs1.toNat 0 6
    let w := s.lockWas d l
    .next (match s.lock d l with
      | .free => (s.takeLock d l core rd 0 w.last).setRd d core rd 0
      | .broken => (s.takeLock d l core rd 2 w.last).setRd d core rd 2
      | .held c =>
        if c = core then s.setRd d core rd 3
        else if w.at_ = some s.tb.ticks && lockTurn w.prev core < lockTurn w.prev c then
          let s := s.takeLock d l core rd w.st w.prev
          (if w.rd = 0 then s else s.setCore d c { s.core d c with rd := 1 }).setRd d core rd w.st
        else s.setRd d core rd 1)
  else .next s

/-- FZ_UNLOCK (R144): the owner's unlock frees; any other changes nothing and posts event 242. -/
def execFzUnlock (d : Die) (core : Fin 12) (rd : Fin 32) (rs1 : Word) (s : State) : Result :=
  if s.coreRuns d core then
    let l := bitsAt rs1.toNat 0 6
    .next (if s.lock d l = .held core then (s.setLock d l .free).setRd d core rd 0 else (s.post 242).setRd d core rd 1)
  else .next s

/-- Key of a die's own shadow set. -/
def dieSetKey (d : Die) (n : Nat) : Nat := 0x10000 * (1 + d.toNat) + n

/-- A commit of a set in the die: the tickets act at once (R161); the loop modes are staged for the next boundary
(R234). -/
def State.commitDie (s : State) (d : Die) (n : Nat) : State :=
  if n = setTickets then (dieSetFields n).foldl (fun s f => s.wr d f (s.rdSh d f)) s
  else
    let s := (dieSetFields n).foldl (fun s f =>
      { s with stagedW := tabSet 0 s.stagedW (fieldKey d f) (s.rdSh d f ^^^ f.reset) }) s
    s.setSet (dieSetKey d n) { staged := true }

/-- FZ_COMMIT (R134, R69, R161, R234): the commit of the set named by rs1[11:0], and its status. -/
def execFzCommit (d : Die) (core : Fin 12) (rd : Fin 32) (rs1 : Word) (full : Bool) (s : State) : Result :=
  if s.coreRuns d core then
    let n := bitsAt rs1.toNat 0 12
    .next (if full && ioSets.contains n then ((s.draw 1).post 255).setRd d core rd (Config.free s.freeCtr)
      else if ioSets.contains n then (s.commitIo d n).setRd d core rd (if s.inGuard then 1 else 0)
      else if dieSetFields n ≠ [] then (s.commitDie d n).setRd d core rd 0
      else s.setRd d core rd 2)
  else .next s

/-- An expired entry moves to the ready list, or is held where that is full (R136, R140). -/
def State.expire (s : State) (d : Die) (c : Nat) (t : Task) : State :=
  let b := s.bob d c
  if 64 ≤ b.ready.length ∨ b.held ≠ [] then (s.takePlace d c t).getD (s.setBob d c (b.hold s.tb.ticks (.delay t)))
  else s.postReady d c t

/-- The length of cluster `c`'s Bobbin tick in ticks of the timebase: 125 for each 250 ns (R137). -/
def State.bobTick (s : State) (d : Die) (c : Nat) : Nat :=
  125 * (if s.rd d (Reg.BOB_CFG_TICK c) = 0 then 256 else s.rd d (Reg.BOB_CFG_TICK c))

/-- The next Bobbin tick edge of cluster `c`: the first multiple of its tick after its last edge that has not passed (R137, log entry
155). -/
def State.nextEdge (s : State) (d : Die) (c : Nat) : Nat :=
  let n := s.bobTick d c
  ceilDiv (max s.tb.ticks ((s.bob d c).edge + 1)) n * n

/-- Edges that count for a delayed entry by edge `e`: those after its post, and after the last edge counted (R136). -/
def State.edgesFor (s : State) (d : Die) (c e : Nat) (t : Task) : Nat :=
  e / s.bobTick d c - max (s.bob d c).edge t.entered / s.bobTick d c

/-- DELAY_EXPIRY (R136, R137): the clock runs to the next Bobbin tick edge; entries that expire on it move in the order of
posting. -/
def execDelayExpiry (d : Die) (cluster : Fin 4) (s : State) : Result :=
  let s := s.runTo (s.nextEdge d cluster)
  let b := s.bob d cluster
  let left := b.delay.map (fun p => (p.1 - s.edgesFor d cluster s.tb.ticks p.2, p.2))
  let due := left.filter (fun p => p.1 = 0)
  let s := s.setBob d cluster { b with delay := left.filter (fun p => p.1 ≠ 0), edge := s.tb.ticks }
  .next (due.foldl (fun s p => s.expire d cluster p.2) s)

/-! ## When a core fails (R147) -/

/-- A core fault: the core stops, its outstanding stores are dropped, and event 240 posts; the record is written, and the third in a cluster within 1 s declares it
faulty. An ECC error's event 241 comes between, in ascending order of the sources (R140). -/
def State.coreStop (s : State) (d : Die) (core : Nat) : State :=
  ((s.dropStores d core).setCore d core { s.core d core with mode := .faulted, resv := none, since := none }).post 240

def State.coreRecord (s : State) (d : Die) (core cause epc tval : Nat) : State :=
  let task := (s.core d core).task
  let s := ((s.stick d (Reg.CORE_FAULT_REC0_COUNT core)).wr d (Reg.CORE_FAULT_REC0_CAUSE core) cause).wr d
    (Reg.CORE_FAULT_REC1_EPC core) epc
  ((s.wr d (Reg.CORE_FAULT_REC2_TVAL core) tval).wr d (Reg.CORE_FAULT_REC3_TASK core) task).clusterFault d
    (clusterOf core) 0

def State.coreFaulted (s : State) (d : Die) (core cause epc tval : Nat) : State :=
  (s.coreStop d core).coreRecord d core cause epc tval

def causeEcc : Nat := 0x10
def causeWatchdog : Nat := 0x11

/-- TASK_WATCHDOG (R139): the clock runs to RUN_LIMIT after the dispatch, and the task that still runs is a core fault; the
spec gives mepc and mtval no value, which are free here. A core that runs no dispatched task meets no limit. -/
def execTaskWatchdog (d : Die) (core : Fin 12) (s : State) : Result :=
  match (if s.coreRuns d core then (s.core d core).since else none) with
  | none => .next s
  | some t =>
    let s := s.runTo (t + 500 * s.rd d (Reg.BOB_CFG_RUN_LIMIT (clusterOf core)))
    .next ((s.draw 2).coreFaulted d core causeWatchdog (Config.free s.freeCtr) (Config.free (s.freeCtr + 1)))

/-- mcause of an illegal instruction, as RISC-V numbers it. -/
def excIllegal : Nat := 2

/-- CORE_FAULT (R147): an exception, an uncorrectable error of a fetch, or a register-file parity error. A vendor instruction with one
of the pairs of R131 is no illegal instruction: no such exception arises for its word. -/
def execCoreFault (d : Die) (core : Fin 12) (cause : Byte) (epc tval : Word) (s : State) : Result :=
  let m := (s.core d core).mode
  if m = .faulted ∨ m = .halted ∨ s.lost d ∨ (cause.toNat = excIllegal ∧ (fzDecode tval).isSome) then .next s
  else
    let s := s.coreStop d core
    let s := if cause.toNat = causeEcc then
        (match areaOf (clusterOf core) epc.toNat with
         | .sram a => s.eccUncorrectable d a
         | _ => s.post 241)
      else s
    .next (s.coreRecord d core cause.toNat epc.toNat tval.toNat)

/-- CORE_LOCKS_BROKEN (R145, R147): locks of a faulted core become BROKEN. -/
def execCoreLocksBroken (d : Die) (core : Fin 12) (s : State) : Result :=
  let m := (s.core d core).mode
  .next (if m = .faulted ∨ m = .halted then s.breakLocks d core else s)

/-- CORE_RESTART (R130, R147): a faulted core is reset, restarts at CORE_RESTART and is back in FZ.TWAIT, one that names x0 (log entry
156). -/
def execCoreRestart (d : Die) (core : Fin 12) (s : State) : Result :=
  if (s.core d core).mode = .faulted then
    .next ((s.setCore d core { s.freshCore d core with mode := .waiting, pc := 2 * s.rd d Reg.CORE_RESTART_VECTOR }).waitDispatch d (clusterOf core))
  else .next s

/-- BOBBIN_PARITY_ERROR (R128): event 241, and the cluster is faulty. -/
def execBobbinParityError (d : Die) (cluster : Fin 4) (s : State) : Result :=
  .next ((s.post 241).declareCluster d cluster)

/-- LOCK_PARITY_ERROR (R128): event 241, and a fault of the die. -/
def execLockParityError (d : Die) (s : State) : Result := .next ((s.post 241).dieFault d causeLockParity)

end Sys2Proof.Machine
end

