-- ==== Sys2Proof/Machine/Net.lean ====
section
/-! DEFINITION. The station network: the MAC and its redundancy, sampled values and GOOSE (R393 to R416). -/

namespace Sys2Proof.Machine

/-! ## Receiving a frame (R394, R395, R398 to R400) -/

/-- ETH_MAC of port `p`: that of the lower port of a pair in mode 1 or 2 (R397), and of port 0 on both ports of the recovery server
(R402), else the port's own. -/
def State.portMac (s : State) (p : Nat) : Nat :=
  let recovery : Bool := s.boot.server ≠ .off && s.boot.server ≠ .full
  let q := if recovery && decide (p < 2) then 0 else if s.pairMode (p / 2) = 0 then p else 2 * (p / 2)
  s.io (Reg.ETH_MAC_HI_MAC q) * 2 ^ 32 + s.io (Reg.ETH_MAC_LO_MAC q)

def macBroadcast : Nat := 0xFFFFFFFFFFFF

/-- A destination the device accepts (R394). -/
def State.macAccepts (s : State) (p dst : Nat) : Bool :=
  dst = s.portMac p || dst = macBroadcast
    || (s.ioBit Reg.PTP_CFG_EN && (dst = macPtp || dst = macPdelay))
    || (List.range 32).any (fun i => s.ioBit (Reg.SV_CFG_EN i)
        && s.io (Reg.SV_DST_HI_MAC i) * 2 ^ 32 + s.io (Reg.SV_DST_LO_MAC i) = dst)
    || (List.range 32).any (fun i => s.ioBit (Reg.GOOSE_SUB_CFG_EN i)
        && s.io (Reg.GOOSE_SUB_DST_HI_MAC i) * 2 ^ 32 + s.io (Reg.GOOSE_SUB_DST_LO_MAC i) = dst)

/-- Group addresses: the least significant bit of the first byte is set. -/
def macGroup (dst : Nat) : Bool := bitOf dst 40

/-- Too short or long, two tags, or a wrong FCS (R394). -/
def ethBad (f : EthFrame) : Bool := f.len < 64 || 1522 < f.len || 2 ≤ f.vids.length || !f.fcsOk

/-- The frame sorted by its Ethertype (R395): handed to its receiver, or discarded. -/
def State.ethSort (s : State) (p : Nat) (f : EthFrame) : State :=
  if f.vids.any (fun v => v ≠ 0 && v.toNat ≠ s.io (Reg.ETH_PORT_CFG_VID p)) then s
  else if f.etherType ∈ [0x88B5#16, 0x88B8#16, 0x88BA#16, 0x88F7#16, 0x88FB#16] then
    s.send (.ethDeliver p f.etherType.toNat)
  else s.countIo (Reg.ETH_RX_OTHER_CNT_COUNT p) (Reg.ETH_CNT_STAT_OTHER_SAT p)

/-- The duplicate table takes a key: whether it was new, and the table, the oldest entry giving way where it is full
(R399). -/
def State.dupKey (s : State) (x src seq : Nat) : Bool × State :=
  let q := s.pair x
  if (src, seq) ∈ q.dup then (false, s)
  else if q.dup.length < 1024 then (true, s.setPair x { q with dup := (src, seq) :: q.dup })
  else (true, ((s.setPair x { q with dup := (src, seq) :: q.dup.take 1023 }).countIo (Reg.DD_OVF_CNT_COUNT x)
    (Reg.ETH_RED_STAT_DD_SAT x)).post (228 + x))

/-- A frame as HSR forwards it from port `p` to port `q`: the correctionField of a PTP event message rises by its residence, between
timestamps corrected by ETH_TS_ADJ, and, for a Sync, by the port's meanLinkDelay (R401, R418). -/
def State.hsrRelay (s : State) (p q : Nat) (f : EthFrame) : EthFrame :=
  { f with ptp := f.ptp.map (fun m => { m with
      corr := m.corr + (s.tsOut q m.residence - s.tsIn p 0) + (if m.sync then ((tabGet {} s.ptp p).delay).getD 0 else 0) }) }

/-- A frame in HSR mode, with the sequence number of its HSR tag: a frame without one has no key in the duplicate table (R400, log
entry 168). -/
def State.hsrReceive (s : State) (p : Nat) (f : EthFrame) (seq : Option Nat) : State :=
  let x := p / 2
  let other := 2 * x + (1 - p % 2)
  if f.src.toNat = s.portMac p then s else
  let r := match seq with
    | some n => s.dupKey x f.src.toNat n
    | none => (true, s)
  let s := r.2
  if !r.1 then s
  else if macGroup f.dst.toNat then
    let s := if s.macAccepts p f.dst.toNat then s.ethSort p f else s
    s.ethSend rankForward (.hsrForward other (s.hsrRelay p other f)) other
  else if f.dst.toNat = s.portMac p then s.ethSort p f
  else s.ethSend rankForward (.hsrForward other (s.hsrRelay p other f)) other

/-- A frame in PRP mode: a trailer of the wrong LAN is counted, and a duplicate discarded (R398, R399). -/
def State.prpReceive (s : State) (p : Nat) (f : EthFrame) : State :=
  let x := p / 2
  match f.rct with
  | none => s.ethSort p f
  | some (seq, lanB) =>
    let s := if lanB = decide (p % 2 = 1) then s
      else (s.countIo (Reg.WRONG_LAN_CNT_COUNT x) (Reg.ETH_RED_STAT_WL_SAT x)).post (228 + x)
    let r := s.dupKey x f.src.toNat seq.toNat
    if r.1 then r.2.ethSort p f else r.2

/-- ETH_FRAME_RECEIVE (R60, R394, R395, R398 to R400). -/
def execEthFrameReceive (p : Fin 4) (f : EthFrame) (full : Bool) (s : State) : Result :=
  if full then .next (s.post 255)
  else if ethBad f then .next (s.countIo (Reg.ETH_RX_ERR_CNT_COUNT p) (Reg.ETH_CNT_STAT_ERR_SAT p))
  else if f.etherType = 0x8808 ∧ f.hsr.isNone then .next s
  else match s.pairMode (p / 2), f.hsr with
    | 2, seq => .next (s.hsrReceive p f (seq.map (·.toNat)))
    | m, _ =>
      if !s.macAccepts p f.dst.toNat then .next s
      else .next (if m = 1 then s.prpReceive p f else s.ethSort p f)

/-- PRP_SUPERVISION_SEND (R398): on both ports of a pair in PRP mode, at the lowest rank, since R396 names none (log entry
145). -/
def execPrpSupervisionSend (pair : Fin 2) (full : Bool) (s : State) : Result :=
  .next (ethFifo full s <| if s.pairMode pair = 1 then (s.pairSend pair).ethSendAll rankMaint (.prpSupervision pair)
    [2 * pair.val, 2 * pair.val + 1] else s)

/-- One supervision frame more, by the rule of every counter (R9). -/
def NetPair.countSuperv (x : NetPair) : NetPair :=
  if x.superv < counterMax then { x with superv := x.superv + 1 } else { x with supervSat := true }

/-- PRP_SUPERVISION_FRAME (R398, R434): counted by a pair in PRP mode, with the pair's event; no node table is kept. -/
def execPrpSupervisionFrame (p : Fin 4) (s : State) : Result :=
  let x := p.val / 2
  .next (if s.pairMode x = 1 then (s.setPair x (s.pair x).countSuperv).post (228 + x) else s)

/-- DUPLICATE_ENTRY_EXPIRY (R399): the pair's oldest entry is forgotten. -/
def execDuplicateEntryExpiry (pair : Fin 2) (s : State) : Result :=
  .next (s.setPair pair { s.pair pair with dup := (s.pair pair).dup.dropLast })

/-! ## Sampled values (R409 to R412) -/

def State.svOf (s : State) (i : Nat) : SvSub := tabGet {} s.svSub i
def State.setSv (s : State) (i : Nat) (x : SvSub) : State := { s with svSub := tabSet {} s.svSub i x }

/-- Samples per second of a subscription (R409). -/
def State.svRate (s : State) (i : Nat) : Nat :=
  if s.io (Reg.SV_CFG_RATE i) = 0 then 4800 else if s.io (Reg.SV_CFG_RATE i) = 1 then 14400 else 96000

/-- The frame belongs to subscription `i` (R409). -/
def State.svMatches (s : State) (i : Nat) (f : SvFrame) : Bool :=
  let n := s.io (Reg.SV_LIM_ID_LEN i)
  s.ioBit (Reg.SV_CFG_EN i) && s.io (Reg.SV_DST_HI_MAC i) * 2 ^ 32 + s.io (Reg.SV_DST_LO_MAC i) = f.dst.toNat
    && s.io (Reg.SV_CFG_APPID i) = f.appid.toNat && f.svId.length = n && f.svId = s.ramBytes 2 (0x40920000 + 0x40 * i) n

/-- The sample's time t_s in 2^-32 ns (R410). -/
def svTime (rate cnt synch arrival : Nat) : Int :=
  if synch = 0 then arrival
  else
    let frac : Int := (cnt * 10 ^ 9 / rate * nsUnit : Nat)
    ((arrival : Int) - frac) / secUnit * secUnit + frac

/-- The sample is not the one after `c` at its rate (R410). -/
def svGap (rate cnt : Nat) (c : Option SvSample) : Bool :=
  match c with | none => false | some o => cnt ≠ (o.cnt + 1) % rate

/-- A sample taken by subscription `i` (R410, R412). -/
def State.svTake (s : State) (i : Nat) (a : SvAsdu) (arrival : Nat) : State :=
  let rate := s.svRate i
  let t := svTime rate a.smpCnt.toNat a.smpSynch.toNat arrival
  let x := s.svOf i
  if (match x.cur with | none => false | some o => t ≤ o.t) then s else
  let gap := svGap rate a.smpCnt.toNat x.cur
  let s := if gap then s.countIo (Reg.SV_GAP_CNT_COUNT i) (Reg.SV_STAT_GAP_SAT i) else s
  let old := match x.cur with | some o => if o.tick = s.tb.ticks then x.prev else some o | none => x.prev
  s.setSv i { cur := some ⟨s.tb.ticks, t, a.smpCnt.toNat, a.smpSynch.toNat, a.seqData.map (fun p => (p.value.toNat, p.quality.toNat))⟩
              prev := old
              run := if 4 ≤ x.run then 4 else if gap then 1 else x.run + 1 }

/-- One ASDU for subscription `i`: discarded, flagged or taken (R409). -/
def State.svAsdu (s : State) (i arrival : Nat) (a : SvAsdu) : State :=
  if a.confRev.toNat ≠ s.io (Reg.SV_CONFREV_CONFREV i) then s.raiseIo (Reg.SV_STAT_CONF i)
  else if a.simulation && !s.ioBit (Reg.SV_CFG_SIM i) then s
  else if s.svRate i ≤ a.smpCnt.toNat
      || (List.range (s.io (Reg.SV_CFG_NQ i) + 1)).any (fun q => a.seqData.length ≤ s.io (Reg.SV_QTY0_POS i q)) then
    s.raiseIo (Reg.SV_STAT_FORMAT i)
  else s.svTake i a arrival

/-- SV_FRAME (R409, R410): a frame of 1 to 8 ASDUs, each taken in order by every subscription it belongs to. -/
def execSvFrame (f : SvFrame) (s : State) : Result :=
  if f.asdus.length = 0 ∨ 8 < f.asdus.length then .next s
  else .next ((List.range 32).foldl (fun s i =>
    if s.svMatches i f then f.asdus.foldl (fun s a => s.svAsdu i f.arrival a) s else s) s)

/-- A pair is bad: its validity is not good, or it is a test value (R411). -/
def svBad (q : Nat) : Bool := q % 4 ≠ 0 || bitOf q 11

/-- The signal word of a value, and whether the clamp acted (R411). -/
def svWord (v gain : Nat) : Int × Bool :=
  let x := conv (signed 32 v * signed 32 gain) 16
  let y := clamp (-2147483647) 2147483647 x
  (y, x ≠ y)

/-- Subscription `i` at the boundary of instant `tk` (R411, R412). -/
def State.svLatch (s : State) (i tk : Nat) : State :=
  if !s.ioBit (Reg.SV_CFG_EN i) then s else
  let x := s.svOf i
  let held := match x.cur with | some o => if o.tick = s.tb.ticks then x.prev else some o | none => none
  let nq := s.io (Reg.SV_CFG_NQ i) + 1
  let was := s.ioBit (Reg.SV_STAT_VALID i)
  match held with
  | none => s
  | some o =>
    let age := min 0xFFFF (((tk : Int) - o.t) / (100 * nsUnit : Nat)).toNat
    let pairOf := fun q => o.pairs.getD (s.io (Reg.SV_QTY0_POS i q)) (0, 0)
    let ws := (List.range nq).map (fun q => svWord (pairOf q).1 (s.io (Reg.SV_QTY1_GAIN i q)))
    let bad := (List.range nq).foldl (fun m q => m + b2n (svBad (pairOf q).2) * 2 ^ q) 0
    let old := decide ((s.io (Reg.SV_LIM_AGE_MAX i) * 1000 * nsUnit : Nat) < (tk : Int) - o.t)
    let unsync := decide (o.synch < s.io (Reg.SV_CFG_SYNC_MIN i))
    let valid := decide (4 ≤ x.run) && !old && !unsync && bad = 0
    let s := (List.range nq).foldl (fun s q => s.setIoInt (Reg.SV_SNAP_X i q) ((ws.getD q (0, false)).1)) s
    let s := if ws.any (·.2) then s.raiseIo (Reg.SV_STAT_SAT i) else s
    let s := ((s.setIo (Reg.SV_SNAP_STAT_AGE i) age).setIo (Reg.SV_SNAP_STAT_QBAD i) bad).setIo (Reg.SV_SNAP_STAT_VALID i) (b2n valid)
    let s := (s.setIo (Reg.SV_STAT_QBAD i) bad).setIo (Reg.SV_STAT_VALID i) (b2n valid)
    if was = valid then s
    else if valid then s.post 230
    else
      let s := if old then s.raiseIo (Reg.SV_STAT_LOST i) else s
      let s := if unsync then s.raiseIo (Reg.SV_STAT_SYNC i) else s
      (s.setSv i { s.svOf i with run := 0 }).post 230

/-- The sampled values at boundary `k` of instant `tk`. -/
def State.svBoundary (s : State) (k tk : Nat) : State :=
  ((List.range 32).foldl (fun s i => s.svLatch i tk) s).setIo Reg.SV_SNAP_K_K k

/-! ## GOOSE (R413 to R416) -/

/-- Some entry with SRC = 0 differs from its last published value (R414). -/
def State.gooseDiffers (s : State) (b : Nat) : Bool :=
  (List.range (s.io (Reg.GOOSE_PUB_CFG_N b) + 1)).any (fun e =>
    s.io (Reg.GOOSE_PUB_ENT_SRC b e) = 0 && s.gooseVal b e ≠ tabGet 0 s.goosePub (32 * b + e))

/-- GOOSE_SEND (R414): the worker's write of 1 to GOOSE_PUB_CTL.SEND; without a difference it is ignored. -/
def State.gooseSendWrite (s : State) (d : Die) (b : Nat) : State :=
  if s.mayWrite d && s.goosePublishes b && s.gooseDiffers b then s.gooseChange b none else s

def execGooseSend (d : Die) (b : Fin 8) (full : Bool) (s : State) : Result := .next (ethFifo full s (s.gooseSendWrite d b))

/-- GOOSE_REPEAT (R414): sqNum rises, wrapping to 1, and the interval doubles up to T0. -/
def execGooseRepeat (b : Fin 8) (full : Bool) (s : State) : Result :=
  let iv := (s.gooseOf b).iv
  if iv = 0 ∨ !s.goosePublishes b then .next s else
  let iv' := min (2 * iv) (s.io (Reg.GOOSE_PUB_T_T0 b))
  let sq := s.io (Reg.GOOSE_PUB_SQ_SQNUM b)
  let s := s.setIo (Reg.GOOSE_PUB_SQ_SQNUM b) (if sq = 0xFFFFFFFF then 1 else sq + 1)
  let t := ethFifo full s (s.gooseFrame b iv')
  .next (t.setGoose b { t.gooseOf b with iv := iv' })

/-- The frame belongs to subscription `i` (R415). -/
def State.gooseMatches (s : State) (i : Nat) (f : GooseFrame) : Bool :=
  s.ioBit (Reg.GOOSE_SUB_CFG_EN i) && s.io (Reg.GOOSE_SUB_DST_HI_MAC i) * 2 ^ 32 + s.io (Reg.GOOSE_SUB_DST_LO_MAC i) = f.dst.toNat
    && s.io (Reg.GOOSE_SUB_CFG_APPID i) = f.appid.toNat && f.gocbRef.length = s.ram32 2 (0x40A30000 + 68 * (24 + i))
    && f.gocbRef = s.gooseStr (24 + i)

/-- The word a value becomes; none where its type, or a value of more than 32 bits, is not taken (R415). -/
def gooseWord : GooseVal → Option Nat
  | .bool b => some (b2n b)
  | .int v => if -(2 ^ 31) ≤ v ∧ v < 2 ^ 31 then some (unsigned 32 v) else none
  | .uint v => if v < 2 ^ 32 then some v else none
  | .bits bs => if bs.length ≤ 32 then some (bs.foldr (fun b m => b2n b + 2 * m) 0) else none
  | .other => none

/-- Index in allData of entry `e` of subscription `i` (R431). -/
def State.gooseIdx (s : State) (i e : Nat) : Nat := s.io (Reg.GOOSE_SUB_IDX_IDX i (e / 4)) / 256 ^ (e % 4) % 256

def State.gooseSubOf (s : State) (i : Nat) : GooseSub := tabGet {} s.gooseSub i
def State.setGooseSub (s : State) (i : Nat) (x : GooseSub) : State := { s with gooseSub := tabSet {} s.gooseSub i x }

/-- A frame accepted by subscription `i` with its words in order (R415, R416). -/
def State.gooseAccept (s : State) (i : Nat) (f : GooseFrame) (ws : List Nat) : State :=
  let changed := decide (f.stNum.toNat ≠ s.io (Reg.GOOSE_SUB_ST_STNUM i))
  let s := (List.range ws.length).foldl (fun s e => s.setIo (Reg.GOOSE_RX_V i e) (ws.getD e 0)) s
  let s := ((s.setIo (Reg.GOOSE_SUB_ST_STNUM i) f.stNum.toNat).setIo (Reg.GOOSE_SUB_STAT_VALID i) 1).setGooseSub i
    ⟨true, f.sqNum.toNat, f.ttlMs⟩
  if changed then s.post 231 else s

/-- One frame for subscription `i`: discarded, flagged or accepted (R415). -/
def State.gooseReceive (s : State) (i : Nat) (f : GooseFrame) : State :=
  let x := s.gooseSubOf i
  let st := s.io (Reg.GOOSE_SUB_ST_STNUM i)
  let ws := (List.range (s.io (Reg.GOOSE_SUB_CFG_N i) + 1)).map
    (fun e => (f.allData[s.gooseIdx i e]?).bind gooseWord)
  if f.confRev.toNat ≠ s.io (Reg.GOOSE_SUB_CONFREV_CONFREV i) then s.raiseIo (Reg.GOOSE_SUB_STAT_CONF i)
  else if f.simulation && !s.ioBit (Reg.GOOSE_SUB_CFG_SIM i) then s
  else if f.ndsCom then s.raiseIo (Reg.GOOSE_SUB_STAT_NDS i)
  else if ws.any (·.isNone) then s.raiseIo (Reg.GOOSE_SUB_STAT_TYPE i)
  else if x.seen && !(later f.stNum.toNat st || (f.stNum.toNat = st && later f.sqNum.toNat x.sq)) then s
  else s.gooseAccept i f (ws.map (·.getD 0))

/-- GOOSE_FRAME (R415). -/
def execGooseFrame (f : GooseFrame) (s : State) : Result :=
  .next ((List.range 32).foldl (fun s i => if s.gooseMatches i f then s.gooseReceive i f else s) s)

/-- GOOSE_STALE (R416): no frame within the timeAllowedtoLive of the last accepted one. -/
def execGooseStale (sub : Fin 32) (s : State) : Result :=
  .next (if s.ioBit (Reg.GOOSE_SUB_STAT_VALID sub) then
    (((s.setIo (Reg.GOOSE_SUB_STAT_VALID sub) 0).raiseIo (Reg.GOOSE_SUB_STAT_STALE sub)).setGooseSub sub
      { s.gooseSubOf sub with seen := false }).post 231
  else s)

end Sys2Proof.Machine
end

