-- ==== Sys2Proof/Machine/PrickOps.lean ====
section
/-! DEFINITION. A pricking copy as records: the RECORD check, the targets of records, and the staging image (R6, R82 to
R87, R90, R485). -/

namespace Sys2Proof.Machine

/-! ## Records (R82, R83) -/

/-- A record: offset in the copy, TYPE, and body. -/
structure PrickRec where
  off : Nat
  type : Nat
  body : List Byte
deriving DecidableEq, Repr

def recField : Nat := 1
def recBlock : Nat := 2
def recRevoke : Nat := 3
def recNote : Nat := 4
def recEnd : Nat := 0xFFFF

/-- The records from `off` up to the CRC, and the offset at which their run breaks off, if it does: a LEN that is no
multiple of 4, or a record that runs past TOTAL_LEN − 4. -/
def parseRecs : (fuel : Nat) → List Byte → (off stop : Nat) → List PrickRec × Option Nat
  | 0, _, off, _ => ([], some off)
  | n + 1, bs, off, stop =>
    if off = stop then ([], none)
    else
      let len := field bs 2 2
      if stop < off + 4 ∨ len % 4 ≠ 0 ∨ stop < off + 4 + len then ([], some off)
      else
        let r := parseRecs n (bs.drop (4 + len)) (off + 4 + len) stop
        (⟨off, field bs 0 2, slice bs 4 len⟩ :: r.1, r.2)

/-- A record of a known type with the body R83, R86 and R87 give it. `signSlot` is the slot that signed the copy, none
under PRICK_SIGN = 0; `stop` is TOTAL_LEN − 4. -/
def PrickRec.ok (r : PrickRec) (signSlot : Option Nat) (stop : Nat) : Bool :=
  let n := r.body.length
  if r.type = recField then n = 12 && Nat.land (field r.body 8 4) (0xFFFFFFFF - field r.body 4 4) = 0
  else if r.type = recBlock then 8 ≤ n
  else if r.type = recRevoke then
    n = 4 && allZero (r.body.drop 1) && field r.body 0 1 ≤ 3
      && (match signSlot with | none => false | some k => field r.body 0 1 ≠ k)
  else if r.type = recNote then n ≤ 256
  else r.type = recEnd && n = 0 && r.off + 4 = stop

/-- The least of a list of offsets, 0 left to the last (R485). -/
def earliest (l : List Nat) : Nat :=
  l.foldl (fun m o => if o = 0 then m else if m = 0 then o else min m o) 0

/-- The RECORD check (R82, R83, R86, R87) on a copy of TOTAL_LEN `len`: the records, or FAIL_OFFSET. Where the run of records
breaks off REC_COUNT is not compared (log entry 136). -/
def recordCheck (copy : List Byte) (len : Nat) (signSlot : Option Nat) : Except Nat (List PrickRec) :=
  let p := parseRecs len (copy.drop 64) 64 (len - 4)
  let bad := (p.1.filter (fun r => !r.ok signSlot (len - 4))).map (·.off)
  let cut := match p.2 with
    | some o => [o]
    | none =>
      (match p.1.getLast? with
        | some r => if r.type = recEnd then [] else [r.off]
        | none => [64]) ++ (if field copy 0x18 4 = p.1.length then [] else [0x18])
  match bad ++ cut with
  | [] => .ok p.1
  | l => .error (earliest l)

/-! ## Targets (R84, R6) -/

/-- Bits of a field within its word. -/
def Field.mask (f : Field) : Nat := 2 ^ f.lo * (2 ^ f.width - 1)

/-- The access codes a pricking record may write. -/
def Access.loadable : Access → Bool
  | .pk | .rw | .sh => true
  | .ro | .w1c | .wo => false

/-- First and last-plus-one address of each memory a BLOCK may target: cluster SRAM, region SRAM, CLE memory. -/
def blockRanges : List (Nat × Nat) :=
  [(0x10000000, 0x10100000), (0x20000000, 0x20200000), (0x30000000, 0x30040000)]

/-- The loadable tables of the I/O die window: compensator coefficients (R197), slot schedule (R390), SV identifiers
(R430), and GOOSE strings (R431). -/
def tableRanges : List (Nat × Nat) :=
  [(0x40208000, 0x40208100), (0x40710000, 0x40720000), (0x40920000, 0x40920800), (0x40A30000, 0x40A30EE0)]

/-- The last two are held as bytes. -/
def byteTable (a : Nat) : Bool := 0x40920000 ≤ a

/-- An address range lies within one of a list of ranges. -/
def inRanges (rs : List (Nat × Nat)) (a n : Nat) : Bool := rs.any (fun r => r.1 ≤ a && a + n ≤ r.2)

/-- The record's target is legal. -/
def PrickRec.targetOk (r : PrickRec) : Bool :=
  let a := field r.body 0 4
  if r.type = recField then
    let m := field r.body 4 4
    a % 4 = 0 && a < 0x60000000 &&
      (match Reg.fieldsAt a with
        | none => false
        | some fs => Nat.land m (0xFFFFFFFF - fs.foldl (fun k f => if f.acc.loadable then k + f.mask else k) 0) = 0)
  else if r.type = recBlock then
    a % 4 = 0 && (inRanges blockRanges a (r.body.length - 4) || inRanges tableRanges a (r.body.length - 4))
  else true

/-! ## Writing records -/

/-- A field written on both dies; an SH field's shadows follow (R90, R91). -/
def State.putField (s : State) (f : Field) (v : Nat) : State :=
  let v := f.holds v
  let s := s.wrBoth f v
  if f.acc = .sh then ((s.wrSh .d0 f v).wrSh .d1 f v).wrShP .d0 f v else s

/-- The bits of a word that `m` selects, in its loadable fields (R83). -/
def State.putWord (s : State) (a m v : Nat) : State :=
  ((Reg.fieldsAt a).getD []).foldl (fun s f =>
    if f.acc.loadable then
      let old := s.rd .d0 f
      let fm := m / 2 ^ f.lo % 2 ^ f.width
      s.putField f (old - Nat.land old fm + Nat.land (v / 2 ^ f.lo % 2 ^ f.width) fm)
    else s) s

/-- The words of a BLOCK written from an address up (R83). -/
def State.putWords (s : State) : (fuel a : Nat) → List Byte → State
  | 0, _, _ => s
  | n + 1, a, bs =>
    if bs = [] then s else State.putWords (s.putWord a 0xFFFFFFFF (field bs 0 4)) n (a + 4) (bs.drop 4)

/-- One record takes effect (R83); NOTE, REVOKE and END write nothing. -/
def State.putRecord (s : State) (r : PrickRec) : State :=
  let a := field r.body 0 4
  if r.type = recField then s.putWord a (field r.body 4 4) (field r.body 8 4)
  else if r.type = recBlock then
    let bs := r.body.drop 4
    if inRanges blockRanges a bs.length then (s.setRamBytes 0 a bs).setRamBytes 1 a bs
    else if byteTable a then s.setRamBytes 2 a bs
    else s.putWords bs.length a bs
  else s

/-- Bytes of RAM from an address up back to what nothing written reads as. -/
def State.clearRam (s : State) (loc a n : Nat) : State := s.setRamBytes loc a (List.replicate n ramDefault)

/-- The words a record wrote back to reset values, memories back to 0: what "every block the copy wrote" takes in (R91, log
entry 138). -/
def State.unputRecord (s : State) (r : PrickRec) : State :=
  let a := field r.body 0 4
  let n := r.body.length - 4
  let word := fun (s : State) a => ((Reg.fieldsAt a).getD []).foldl (fun s f =>
    if f.acc.loadable then s.putField f f.reset else s) s
  if r.type = recField then word s a
  else if r.type = recBlock then
    if inRanges blockRanges a n then (s.clearRam 0 a n).clearRam 1 a n
    else if byteTable a then s.clearRam 2 a n
    else (List.range (n / 4)).foldl (fun s i => word s (a + 4 * i)) s
  else s

/-! ## The staging image (R90) -/

/-- The image, the device the copy is for, and what its records wrote. -/
structure Stage where
  st : State
  hub : Bool
  recs : List PrickRec

/-- Reset values with the records applied in order; what is fixed in the part stays. The image stands apart from the state,
and the bytes of region SRAM stay as they were (log entry 137). -/
def State.stage (s : State) (hub : Bool) (recs : List PrickRec) : Stage :=
  ⟨recs.foldl State.putRecord { State.reset with regs := s.regs.filter (fun p => hardwired (keyAddr p.1)) }, hub, recs⟩

/-- A field of the image. -/
def Stage.v (x : Stage) (f : Field) : Nat := x.st.rd .d0 f

/-- A one-bit field of the image. -/
def Stage.b (x : Stage) (f : Field) : Bool := x.v f = 1

/-- A record wrote a bit of the field. -/
def PrickRec.wrote (r : PrickRec) (f : Field) : Bool :=
  let a := field r.body 0 4
  if r.type = recField then a = f.addr && Nat.land (field r.body 4 4) f.mask ≠ 0
  else r.type = recBlock && a ≤ f.addr && f.addr + 8 ≤ a + r.body.length

/-- Offset of the last record that wrote a bit of the field, 0 where none did. -/
def Stage.origin (x : Stage) (f : Field) : Nat :=
  x.recs.foldl (fun o r => if r.wrote f then r.off else o) 0

/-- A memory word as a field. -/
def memWord (a : Nat) : Field := ⟨a, 0, 32, .pk, 0⟩

/-- A fault of a check: the fields that break it, and the fields of the limit it breaks (log entry 35). -/
structure Breach where
  fields : List Field
  limits : List Field := []

/-- FAIL_OFFSET of one fault: the earliest record among those that last wrote its fields, or else its limit (R485). -/
def Stage.offsetOf (x : Stage) (e : Breach) : Nat :=
  let o := earliest (e.fields.map x.origin)
  if o = 0 then earliest (e.limits.map x.origin) else o

/-- A fault where a condition holds. -/
def breach (c : Bool) (fields : List Field) (limits : List Field := []) : List Breach :=
  if c then [⟨fields, limits⟩] else []

end Sys2Proof.Machine
end

