-- ==== Sys2Proof/Machine/Trip.lean ====
section
/-! DEFINITION. The commands of the trip fabric (R313 to R334). -/

namespace Sys2Proof.Machine

/-- A TRIP_IN pin takes a level and the fabric looks at its sources (R319). -/
def State.setTripIn (s : State) (p : Nat) (level : Bool) : State :=
  { s with pins := { s.pins with tripIn := setBit s.pins.tripIn p level } }.tripScan

/-- TRIP_IN_EDGE (R319, R46): a pulse of 3.0 ns always latches, one of 1.0 ns or less never does; between them a free
value decides. -/
def execTripInEdge (p : Fin 8) (level : Bool) (pulse : Option Nat) (s : State) : Result :=
  match pulse with
  | none => .next (s.setTripIn p level)
  | some w =>
    if 30 ≤ w then .next ((s.setTripIn p level).setTripIn p !level)
    else if w ≤ 10 then .next s
    else if Config.free s.freeCtr % 2 = 1 then .next (((s.draw 1).setTripIn p level).setTripIn p !level)
    else .next (s.draw 1)

/-- BOS_QUIET_TIMEOUT (R318): 2.0 µs after the last recognised set, the source goes quiet. -/
def execBosQuietTimeout (s : State) : Result :=
  .next { s with trip := { s.trip with bos := false } }.tripScan

/-- The groups TRIP_FW_SET has set in the present tick. -/
def State.fwSetNow (s : State) : BitVec 16 := if s.trip.fwSetAt.1 = s.tb.ticks then s.trip.fwSetAt.2 else 0

/-- Writes of 1 to TRIP_FW_SET and TRIP_FW_CLR (R318); where both name a bit in one tick the set stands (R328). -/
def State.fwSet (s : State) (groups : BitVec 16) : State :=
  { s with trip := { s.trip with fw := s.trip.fw ||| groups, fwSetAt := (s.tb.ticks, s.fwSetNow ||| groups) } }.tripScan
def State.fwClr (s : State) (groups : BitVec 16) : State :=
  { s with trip := { s.trip with fw := s.trip.fw &&& ~~~(groups &&& ~~~s.fwSetNow) } }.tripScan

/-- A write to TRIP_CLR: a clear request for each group named (R323). -/
def State.clrGroups (s : State) (groups : BitVec 16) : State :=
  (List.range 16).foldl (fun s g => if groups.getLsbD g then s.clearGroup g else s) s.tripScan

/-- TRIP_FW_SET (R318): only the worker's request reaches the fabric. -/
def execTripFwSet (d : Die) (groups : BitVec 16) (s : State) : Result :=
  .next (if s.mayWrite d then s.fwSet groups else s)

/-- TRIP_FW_CLR (R318). -/
def execTripFwClr (d : Die) (groups : BitVec 16) (s : State) : Result :=
  .next (if s.mayWrite d then s.fwClr groups else s)

/-- TRIP_CLR (R323). -/
def execTripClr (d : Die) (groups : BitVec 16) (s : State) : Result :=
  .next (if s.mayWrite d then s.clrGroups groups else s)

/-- BYPASS_TURN_ON (R315): at tick T + D_bp the lower gate of a channel held at BYPASS rises. -/
def execBypassTurnOn (n : Fin 128) (s : State) : Result :=
  match (s.genCh n).bypassAt with
  | none => .next s
  | some t =>
    let s := (s.runTo t).setGenCh n { s.genCh n with bypassAt := none }
    .next (if s.chAsserted n && !s.forceBlock n && !s.testState then s.setGate n false true else s)

/-- The 28 bytes of a trip record before its CRC (R329). -/
def tripRecBody (r : TripRec) (seq : Nat) : List Byte :=
  bytesOf 4 (secOf r.time) ++ bytesOf 4 (nsOf r.time) ++ bytesOf 1 (fracOf r.time) ++ bytesOf 1 r.type
    ++ bytesOf 1 r.group ++ bytesOf 1 0 ++ bytesOf 2 r.source ++ bytesOf 2 0 ++ bytesOf 4 r.period
    ++ bytesOf 4 r.srcAct ++ bytesOf 4 seq

/-- The 32 bytes of a trip record. -/
def tripRecBytes (r : TripRec) (seq : Nat) : List Byte :=
  tripRecBody r seq ++ bytesOf 4 (crc32c (tripRecBody r seq))

/-- First byte of the trip ring in region A SRAM (R329). -/
def tripRing : Nat := 0x200F8000

/-- A record written into region A SRAM of a die whose bridge is open (R329, R456). -/
def State.writeTripRec (s : State) (d : Die) (bs : List Byte) : State :=
  if s.lost d then s else s.setRamBytes d.toNat (tripRing + 32 * s.io Reg.TRIP_REC_WP_IDX) bs

/-- TRIP_RECORD_WRITE (R329): the oldest waiting record goes into the ring of both dies, and only then the write index
advances. -/
def execTripRecordWrite (s : State) : Result :=
  match s.trip.recs with
  | [] => .next s
  | r :: rs =>
    let bs := tripRecBytes r (s.trip.seq % 2 ^ 32)
    let s := (s.writeTripRec .d0 bs).writeTripRec .d1 bs
    let s := s.setIo Reg.TRIP_REC_WP_IDX ((s.io Reg.TRIP_REC_WP_IDX + 1) % 512)
    .next { s with trip := { s.trip with recs := rs, seq := s.trip.seq + 1 } }

/-- A group enters FAULT: asserted, safe action held until PORST_N, flag, record, event and grade (R323, R327, R474). -/
def State.faultGroup (s : State) (g : Nat) : State :=
  if s.io (Reg.TRIP_GRP_STAT_STATE g) = grpFault then s else
  let s := (s.setIo (Reg.TRIP_GRP_STAT_STATE g) grpFault).setAsserted g true
  let s := { s with trip := { s.trip with sending := setBit s.trip.sending g false } }
  let s := (s.safeGroup g).raiseIo (Reg.TRIP_GRP_STAT_GRP_FAULT g)
  let s := (s.tripRecord 5 g 0x3FF).post (160 + g)
  let s := s.gooseGroup g
  s.raiseGrade 2 causeGroupFault

/-- Ticks in one second. -/
def ticksPerSecond : Nat := 500000000

/-- LATCH_TMR_MISMATCH (R326, R327): one latch copy differs for more than one tick. It is reloaded; at its third reload
within a second it is fenced; with a copy fenced already, the group enters FAULT. -/
def execLatchTmrMismatch (g : Fin 16) (copy : Fin 3) (s : State) : Result :=
  let fence := s.io (Reg.TRIP_GRP_STAT_FENCE g)
  if s.io (Reg.TRIP_GRP_STAT_STATE g) = grpFault ∨ bitOf fence copy then .next s
  else if fence ≠ 0 then .next (s.faultGroup g)
  else
    let s := s.raisePost (Reg.TRIP_GRP_STAT_TMR_ERR g) (160 + g)
    let x := s.grp g
    let ts := s.tb.ticks :: (tabGet [] x.reloads copy).filter (fun t => s.tb.ticks < t + ticksPerSecond)
    let s := s.setGrp g { x with reloads := tabSet [] x.reloads copy ts }
    .next (if 3 ≤ ts.length then s.setIo (Reg.TRIP_GRP_STAT_FENCE g) (withBit fence copy true) else s)

/-- The lanes a repetition goes out on: TRIP_BOS_TX while a sending group is TRIPPED, every Nolri lane under R24. -/
def State.bosLanes (s : State) : Nat :=
  Nat.lor (if s.trip.sending ≠ 0 then s.io Reg.TRIP_BOS_TX_LANES else 0)
    (if s.trip.stopSend then
      (List.range 32).foldl (fun m k => if s.io (Reg.LANE_CFG_USE k) = 1 then m + 2 ^ k else m) 0 else 0)

/-- BOS_REPEAT (R322, R24): own block order sets again, every 1.0 µs. -/
def execBosRepeat (s : State) : Result := .next (s.sendBos s.bosLanes)

end Sys2Proof.Machine
end

