-- ==== Sys2Proof/Machine/Access.lean ====
section
/-! DEFINITION. Writes to register words, and the cores' loads, stores and atomics (R4 to R10, R123 to R127, R222, R455,
R460). -/

namespace Sys2Proof.Machine

/-! ## SAT bits and their counters (R9, R10) -/

/-- Each SAT bit with its counter. -/
def satPairs : List (Field × Field) :=
  [(Reg.TB_MISS_SAT_SAT, Reg.TB_MISS_CNT_COUNT), (Reg.TRIP_CNT_SAT_BOS_SAT, Reg.TRIP_BOS_RX_COUNT),
    (Reg.TRIP_CNT_SAT_LOST_SAT, Reg.TRIP_REC_LOST_COUNT), (Reg.PTP_CNT_STAT_SAT, Reg.PTP_DISC_CNT_COUNT),
    (Reg.RED_COUCH_STAT_FIX_SAT, Reg.RED_COUCH_FIX_COUNT), (Reg.LOG_STAT_SAT, Reg.LOG_LOST_COUNT)]
  ++ (List.range 2).flatMap (fun i => [(Reg.MEM_ECC_STAT_SAT i, Reg.MEM_ECC_CE_CNT_COUNT i),
    (Reg.ETH_RED_STAT_WL_SAT i, Reg.WRONG_LAN_CNT_COUNT i), (Reg.ETH_RED_STAT_DD_SAT i, Reg.DD_OVF_CNT_COUNT i)])
  ++ (List.range 4).flatMap (fun i => [(Reg.CLE_MISS_SAT_SAT i, Reg.CLE_MISS_CNT_COUNT i),
    (Reg.ETH_CNT_STAT_ERR_SAT i, Reg.ETH_RX_ERR_CNT_COUNT i), (Reg.ETH_CNT_STAT_OTHER_SAT i, Reg.ETH_RX_OTHER_CNT_COUNT i)])
  ++ (List.range 16).map (fun i => (Reg.TRIP_GRP_STAT_SAT i, Reg.TRIP_GRP_CNT_COUNT i))
  ++ (List.range 24).flatMap (fun i => [(Reg.GND_CNT_STAT_GRANT_SAT i, Reg.GND_GRANT_CNT_COUNT i),
    (Reg.GND_CNT_STAT_WAIT_SAT i, Reg.GND_WAIT_CNT_COUNT i)])
  ++ (List.range 32).flatMap (fun i => [(Reg.LANE_CNT_STAT_PRBS_SAT i, Reg.LANE_PRBS_ERR_COUNT i),
    (Reg.LANE_CNT_STAT_CV_SAT i, Reg.LANE_CV_CNT_COUNT i), (Reg.NOL_LINK_CNT_STAT_RX_SAT i, Reg.NOL_LINK_RX_CNT_COUNT i),
    (Reg.NOL_LINK_CNT_STAT_BAD_SAT i, Reg.NOL_LINK_BAD_CNT_COUNT i),
    (Reg.NOL_LINK_CNT_STAT_DROP_SAT i, Reg.NOL_LINK_DROP_CNT_COUNT i), (Reg.SV_STAT_GAP_SAT i, Reg.SV_GAP_CNT_COUNT i)])
  ++ (List.range 128).map (fun i => (Reg.MEAS_BAD_STAT_SAT i, Reg.MEAS_BAD_CNT_COUNT i))

/-- The counter of a SAT bit. -/
def satCounter (sat : Field) : Option Field := (satPairs.find? (fun p => p.1 = sat)).map (·.2)

/-- Requester of a GRANT_SAT bit (R164). -/
def grantOf (sat : Field) : Option Nat := (List.range 24).find? (fun i => sat = Reg.GND_CNT_STAT_GRANT_SAT i)

/-- A W1C write of 1 to GRANT_SAT: GND_GRANT_CNT and WRAPS are zeroed together, then the grants of the cycle added, which
wrap as in R163 (R164). -/
def State.grantClear (s : State) (d : Die) (i n : Nat) : State :=
  let w := n / 2 ^ 32
  ((s.wr d (Reg.GND_GRANT_CNT_COUNT i) (n % 2 ^ 32)).wr d (Reg.GND_CNT_STAT_WRAPS i) (min w 0xFF)).wr d
    (Reg.GND_CNT_STAT_GRANT_SAT i) (b2n (0xFF < w))

/-- A W1C write of 1 to a SAT bit in a cycle that also counts `n` events (R10, R164). -/
def State.clearSat (s : State) (d : Die) (sat cnt : Field) (n : Nat) : State :=
  match grantOf sat with
  | some i => s.grantClear d i n
  | none => s.satClear d cnt sat n

/-! ## Writes by access code (R4) -/

/-- Written 1s of a W1C field clear. AVS_LOST sets again at once while its cause stands (R438, R452); a SAT bit zeroes its
counter (R10). -/
def State.clearField (s : State) (d : Die) (f : Field) (v : Nat) : State :=
  if f = Reg.AVS_STAT_AVS_LOST 0 ∧ s.avsLost d 0 ∨ f = Reg.AVS_STAT_AVS_LOST 1 ∧ s.avsLost d 1 then s
  else
    match satCounter f with
    | some cnt => if v = 0 then s else s.clearSat d f cnt 0
    | none => s.wr d f (s.rd d f - Nat.land (s.rd d f) v)

/-- RED_CNT_CLR.DISC (R466, R481): RED_DISC_CNT is zeroed, then counts the discords of that tick; a limit reached anew posts
event 253 (R13). -/
def State.clearDisc (s : State) (events : Nat) : State :=
  let s := s.setIo Reg.RED_DISC_CNT_COUNT (min events (s.io Reg.RED_CFG_DISC_LIMIT))
  let full := s.io Reg.RED_CFG_DISC_LIMIT ≤ events
  let s := s.setIo Reg.RED_DISC_STAT_AT_LIMIT (b2n full)
  if full then s.post 253 else s

/-- The address lies from `lo` up to below `hi`. -/
def within (a lo hi : Nat) : Bool := decide (lo ≤ a) && decide (a < hi)

/-- A write to a WO field: the command it gives. -/
def State.writeOnly (s : State) (d : Die) (f : Field) (v : Nat) : State :=
  let a := f.addr
  if f = Reg.FW_FALLBACK_KEY then s.fallbackWrite d v
  else if f = Reg.GND_LONG_CLR_CLR then s.longClr d v
  else if f = Reg.MEAS_CAL_REQ_REQ then s.calMask v
  else if f = Reg.TRIP_FW_SET_GROUPS then s.fwSet (BitVec.ofNat 16 v)
  else if f = Reg.TRIP_FW_CLR_GROUPS then s.fwClr (BitVec.ofNat 16 v)
  else if f = Reg.TRIP_CLR_GROUPS then s.clrGroups (BitVec.ofNat 16 v)
  else if v = 0 then s
  else if f = Reg.RED_CNT_CLR_DISC then s.clearDisc 0
  else if within a 0x40207000 0x40207080 && f = Reg.MEAS_INJ_TRIG_GO ((a - 0x40207004) / 0x10) then s.injTrigger ((a - 0x40207004) / 0x10)
  else if within a 0x50009000 0x50009400 && f = Reg.CLE_RUN_MAX_CLR ((a - 0x5000900C) / 0x100) then s.wr d (Reg.CLE_RUN_MAX_NS ((a - 0x5000900C) / 0x100)) 0
  else if within a 0x5000A000 0x5000C000 && f = Reg.LOOP_CTL_RELEASE ((a - 0x5000A018) / 0x800) ((a - 0x5000A018) % 0x800 / 0x40) then
    s.releaseWrite d ((a - 0x5000A018) / 0x800) ((a - 0x5000A018) % 0x800 / 0x40)
  else if within a 0x5000C400 0x5000C600 && f = Reg.BAL_CH_REINSTATE ((a - 0x5000C400) / 4) then s.reinstateWrite d ((a - 0x5000C400) / 4)
  else if within a 0x40600000 0x40600800 && f = Reg.LANE_CTL_RETRAIN ((a - 0x40600004) / 0x40) then s.retrainWrite ((a - 0x40600004) / 0x40)
  else if within a 0x40600000 0x40600800 && f = Reg.LANE_ALIGN_BITSLIP ((a - 0x40600008) / 0x40) then s.bitslipWrite ((a - 0x40600008) / 0x40)
  else if within a 0x40600000 0x40600800 && f = Reg.LANE_CNT_STAT_RT_CLR ((a - 0x40600024) / 0x40) then s.setIo (Reg.LANE_RETRAIN_COUNT ((a - 0x40600024) / 0x40)) 0
  else if within a 0x40A00000 0x40A00200 && f = Reg.GOOSE_PUB_CTL_SEND ((a - 0x40A00014) / 0x40) then s.gooseSendWrite d ((a - 0x40A00014) / 0x40)
  else s

/-- A write to an RW field: the value, and what the write of it starts. A refused word of LANE_TEST posts once, with its LOOP
(R354). A write of CORES or PRIO lets Bobbin dispatch (log entry 149). -/
def State.writeRw (s : State) (d : Die) (f : Field) (v : Nat) : State :=
  let a := f.addr
  if within a 0x40420010 0x40420020 && f = Reg.GEN_DIS_DIS ((a - 0x40420010) / 4) then
    (List.range 32).foldl (fun s j => s.disBit d (32 * ((a - 0x40420010) / 4) + j) (bitOf v j)) s
  else if within a 0x40600000 0x40600800 && f = Reg.LANE_CTL_TX_SLEEP ((a - 0x40600004) / 0x40) then s.txSleepWrite ((a - 0x40600004) / 0x40) (v = 1)
  else if within a 0x40600000 0x40600800 && f = Reg.LANE_CTL_RX_SLEEP ((a - 0x40600004) / 0x40) then s.rxSleepWrite ((a - 0x40600004) / 0x40) (v = 1)
  else if within a 0x40600000 0x40600800 && f = Reg.LANE_TEST_LOOP ((a - 0x40600018) / 0x40) then
    s.loopWrite ((a - 0x40600018) / 0x40) v
  else if within a 0x40600000 0x40600800 && f = Reg.LANE_TEST_PRBS ((a - 0x40600018) / 0x40) then
    (if s.testAllowed ((a - 0x40600018) / 0x40) then s.prbsWrite ((a - 0x40600018) / 0x40) v else s)
  else if 0x50004000 ≤ a ∧ a < 0x50004800 then (s.wr d f v).dispatch d ((a - 0x50004000) / 0x200) 3
  else s.wr d f v

/-- A field of a written word (R4). RO and PK fields stay. -/
def State.writeField (s : State) (d : Die) (word : Nat) (f : Field) : State :=
  let v := word / 2 ^ f.lo % 2 ^ f.width
  match f.acc with
  | .ro | .pk => s
  | .rw => s.writeRw d f v
  | .w1c => s.clearField d f v
  | .wo => s.writeOnly d f v
  | .sh => if f.addr < 0x50000000 then s.writeShIo d f v else s.wrSh d f v

/-- A write would change some PK field (R4). -/
def State.changesPk (s : State) (d : Die) (word : Nat) (fs : List Field) : Bool :=
  fs.any (fun f => f.acc = .pk && word / 2 ^ f.lo % 2 ^ f.width ≠ s.rd d f)

/-- An address of the I/O die window. -/
def inIod (a : Nat) : Bool := 0x40000000 ≤ a && a < 0x41000000

/-- Firmware of die `d` writes a register word (R4, R6, R455). In the I/O die window only the worker's write takes effect,
and the passive's SH fields go to the comparison copy. The byte tables of R430 and R431 are the pricking's. -/
def State.writeWord (s : State) (d : Die) (a word : Nat) : State :=
  if inIod a && !s.mayWrite d then
    ((Reg.fieldsAt a).getD []).foldl (fun s f => if f.acc = .sh then s.writeField d word f else s) s
  else
    match Reg.fieldsAt a with
    | some fs =>
      let s := if s.changesPk d word fs then s.post 255 else s
      fs.foldl (fun s f => s.writeField d word f) s
    | none => if inRanges tableRanges a 4 && s.ram32 2 a ≠ word then s.post 255 else s

/-- REGISTER_WRITE (R4, R455). With the FIFO into the I/O die full the write is lost, and event 255 is posted (R60). -/
def execRegisterWrite (d : Die) (addr v : Word) (full : Bool) (s : State) : Result :=
  .next (if full && inIod addr.toNat then s.post 255 else s.writeWord d addr.toNat v.toNat)

/-- SAT_CLEAR (R10, R164): the SAT bit at a bit of a word, in a cycle that counts events; a bit that is no counter's SAT
bit finds nothing to do. -/
def execSatClear (d : Die) (addr : Word) (bit : Fin 32) (events : Nat) (s : State) : Result :=
  if inIod addr.toNat && !s.mayWrite d then .next s else
  match satPairs.find? (fun p => p.1.addr = addr.toNat && p.1.lo = bit.val) with
  | some p => .next (s.clearSat d p.1 p.2 events)
  | none => .next s

/-- RED_CNT_CLR (R466, R481). -/
def execRedCntClr (d : Die) (events : Nat) (s : State) : Result :=
  .next (if s.mayWrite d then s.clearDisc events else s)

/-! ## Core accesses (R123 to R126, R147) -/

/-- Bytes of an access. -/
def widthBytes : Width → Nat
  | .byte => 1
  | .half => 2
  | .word => 4

/-- mcause of an access, as RISC-V numbers it. -/
def excLoadMisaligned : Nat := 4
def excLoadAccess : Nat := 5
def excStoreMisaligned : Nat := 6
def excStoreAccess : Nat := 7

/-- A core fault at a data access: mtval is the address; mepc is the core's own and free here (log entry 38). -/
def State.accessFault (s : State) (d : Die) (core cause a : Nat) : State :=
  (s.draw 1).coreFaulted d core cause (Config.free s.freeCtr) a

/-- An access with an error the ECC corrects is corrected and counted where the word has check bits (R126). -/
def State.eccMeet (s : State) (d : Die) (x : Area) (a : Nat) : State :=
  match x with
  | .sram b => s.eccCorrected d b
  | .cle _ _ => s.eccCorrected d a
  | .couch b => s.eccCorrected d.other b
  | _ => s

/-- An access with an uncorrectable error: flag, address, event 241 (R126). -/
def State.eccFail (s : State) (d : Die) (x : Area) (a : Nat) : State :=
  match x with
  | .sram b => s.eccUncorrectable d b
  | .cle _ _ => s.eccUncorrectable d a
  | .couch b => s.eccUncorrectable d.other b
  | _ => s

/-- A core fault at a word with an uncorrectable error, which `fail` records: event 240, then 241 (R126, R140). -/
def State.eccFault (s : State) (d : Die) (core a : Nat) (fail : State → State) : State :=
  (fail ((s.draw 1).coreStop d core)).coreRecord d core causeEcc (Config.free s.freeCtr) a

/-- Areas whose words carry check bits. -/
def Area.protected : Area → Bool
  | .sram _ | .cle _ _ | .couch _ => true
  | _ => false

/-- Areas that a core reaches over a FIFO of R58 that is its own: the I/O die, the other die and the flash behind the bride, and CLE
memory. -/
def Area.crosses : Area → Bool
  | .iod | .couch _ | .flash | .cle _ _ => true
  | _ => false

/-- Areas that take word accesses only (R123, R460). -/
def Area.wordOnly : Area → Bool
  | .cle _ _ | .iod | .periph | .couch _ => true
  | _ => false

/-- CORE_LOAD (R123 to R126, R73, R460): rd takes the data, without sign extension, which is the instruction's own;
alignment is checked before access (log entry 180). -/
def execCoreLoad (d : Die) (core : Fin 12) (rd : Fin 32) (addr : Word) (w : Width) (ecc : Ecc) (full : Bool) (s : State) :
    Result :=
  let a := addr.toNat
  let c := clusterOf core
  let x := areaOf c a
  if !s.coreRuns d core then .next s
  else if a % (widthBytes w) ≠ 0 then .next (s.accessFault d core excLoadMisaligned a)
  else if x.wordOnly && w ≠ .word then .next (s.accessFault d core excLoadAccess a)
  else
    match (s.touch d core a).loadWord d core c (a / 4 * 4) with
    | none => .next (s.accessFault d core excLoadAccess a)
    | some v =>
      if x.protected && ecc = .uncorrectable then .next (s.eccFault d core a (fun s => s.eccFail d x a))
      else
        let s := if ecc = .corrected then s.eccMeet d x a else s
        if full && x.crosses then .next ((((s.touch d core a).post 255).draw 1).setRd d core rd (Config.free s.freeCtr))
        else .next ((s.touch d core a).setRd d core rd (v / 2 ^ (8 * (a % 4)) % 2 ^ (8 * widthBytes w)))

/-- A write to CLE program memory has no effect; after PHASE = APPLY it sets PM_WRITE and posts event 245 (R222). -/
def State.pmWrite (s : State) (d : Die) (c : Nat) : State :=
  if phaseApply < s.phase then (s.raise d (Reg.CLE_STAT_PM_WRITE c)).post 245 else s

/-- Bytes stored into a memory of a die. -/
def State.storeMem (s : State) (d : Die) (a : Nat) (bs : List Byte) : State :=
  match areaOf 0 a with
  | .cle c true => s.pmWrite d c
  | _ => if s.smTaken d a then s else s.setRamBytes d.toNat a bs

/-- The access of a store is one R123 and R460 forbid. -/
def State.storeForbidden (s : State) (d : Die) (x : Area) : Bool :=
  match x with
  | .rom | .otp | .identity | .flash | .outside => true
  | .couch _ => !s.mayWrite d || !(s.inService d.other || s.dieState d.other = 5)
  | _ => false

/-- A store that R123 allows. -/
def State.storeTo (s : State) (d : Die) (core : Nat) (x : Area) (a n v : Nat) : State :=
  match x with
  | .sram b => (s.breakResv d core b).storeMem d b (bytesOf n v)
  | .cle _ _ => s.storeMem d a (bytesOf n v)
  | .iod | .periph => s.writeWord d a v
  | .couch b =>
    if s.dieState d.other = 1 || s.dieState d.other = 2 then s.storeMem d.other b (bytesOf n v) else s
  | _ => s

/-- CORE_STORE (R123 to R126, R4, R222, R460). An uncorrectable error in a word stored to posts event 241, and the store
completes (log entry 39). A store that finds the FIFO of its crossing filled by an internal fault is
refused and lost, with event 255 (R60, log entry 121). A store may carry the settings that the worker's firmware writes with it
(R110, log entry 124). Stores arrive in program order (R125, log entry 178). -/
def execCoreStore (d : Die) (core : Fin 12) (addr : Word) (w : Width) (v : Word) (ecc : Ecc) (full : Bool)
    (settings : List Byte) (s : State) : Result :=
  let a := addr.toNat
  let x := areaOf (clusterOf core) a
  if !s.coreRuns d core then .next s
  else if a % (widthBytes w) ≠ 0 then .next (s.accessFault d core excStoreMisaligned a)
  else if (x.wordOnly && w ≠ .word) || s.storeForbidden d x then .next (s.accessFault d core excStoreAccess a)
  else if full && x.crosses then .next (s.post 255)
  else
    let s := match ecc with
      | .clean => s
      | .corrected => s.eccMeet d x a
      | .uncorrectable => s.eccFail d x a
    .next (((s.storeTo d core x a (widthBytes w) (v.toNat % 2 ^ (8 * widthBytes w))).writeSettings d settings).setRd d core 0 0)

/-- The word an AMO stores. -/
def amoResult (op : AmoOp) (old v : Word) : Word :=
  match op with
  | .lr => old
  | .sc | .swap => v
  | .add => old + v
  | .xor => old ^^^ v
  | .and => old &&& v
  | .or => old ||| v
  | .min => if old.toInt ≤ v.toInt then old else v
  | .max => if old.toInt ≤ v.toInt then v else old
  | .minu => if old.toNat ≤ v.toNat then old else v
  | .maxu => if old.toNat ≤ v.toNat then v else old

/-- An LR, SC or AMO on an SRAM word: rd, the reservation and the word (RV32A). -/
def State.atomicAt (s : State) (d : Die) (core : Nat) (rd : Fin 32) (op : AmoOp) (b : Nat) (v : Word) : State :=
  let old := BitVec.ofNat 32 (s.ram32 d.toNat b)
  let x := s.core d core
  match op with
  | .lr => (s.setCore d core { x with resv := some b }).setRd d core rd old.toNat
  | .sc =>
    if x.resv = some b then
      (((s.breakResv d core b).setRam32 d.toNat b v.toNat).setCore d core { x with resv := none }).setRd d core rd 0
    else (s.setCore d core { x with resv := none }).setRd d core rd 1
  | _ => ((s.breakResv d core b).setRam32 d.toNat b (amoResult op old v).toNat).setRd d core rd old.toNat

/-- CORE_ATOMIC (R123, R124, R126): allowed in cluster and region SRAM. -/
def execCoreAtomic (d : Die) (core : Fin 12) (rd : Fin 32) (op : AmoOp) (addr v : Word) (ecc : Ecc) (s : State) : Result :=
  let a := addr.toNat
  if !s.coreRuns d core then .next s
  else if a % 4 ≠ 0 then
    .next (s.accessFault d core (if op = .lr then excLoadMisaligned else excStoreMisaligned) a)
  else
    match areaOf (clusterOf core) a with
    | .sram b =>
      if ecc = .uncorrectable && op ≠ .sc then .next (s.eccFault d core a (fun s => s.eccUncorrectable d b))
      else
        let s := match ecc with
          | .clean => s
          | .corrected => s.eccCorrected d b
          | .uncorrectable => s.eccUncorrectable d b
        .next (s.atomicAt d core rd op b v)
    | _ => .next (s.accessFault d core (if op = .lr then excLoadAccess else excStoreAccess) a)

/-- An address of the SRAMs a region's scrubber reads: region and cluster SRAM, and CLE memory. -/
def scrubbed (a : Nat) : Bool := inRanges [(0x10000000, 0x10100000), (0x20000000, 0x20200000), (0x30000000, 0x30040000)] a 4

/-- SCRUB_READ (R127, R471): an error corrected and counted, or recorded and posted. -/
def execScrubRead (d : Die) (r : Region) (addr : Word) (ecc : Ecc) (s : State) : Result :=
  let a := addr.toNat
  if !scrubbed a || regionOf (s.physAddr d a) ≠ r.toNat then .next s
  else
    match ecc with
    | .clean => .next s
    | .corrected => .next (s.eccCorrected d a)
    | .uncorrectable => .next (s.eccUncorrectable d a)

end Sys2Proof.Machine
end

