-- ==== Sys2Proof/Machine/NolRx.lean ====
section
/-! DEFINITION. Shared operations of Nolri reception and sending: payload bytes, the frame check, buffers, routing, routes,
slot queues and the link states (R360 to R387). -/

namespace Sys2Proof.Machine

/-! ## Payloads as bytes (R259, R264, R367, R369, R370, R383) -/

def tsBytes (t : TimeStamp) : List Byte := bytesOf 6 t.sec.toNat ++ bytesOf 4 t.ns.toNat ++ bytesOf 2 t.frac.toNat

/-- A timestamp in 2^-16 ns. -/
def ts16 (t : TimeStamp) : Nat := (t.sec.toNat * 10 ^ 9 + t.ns.toNat) * 2 ^ 16 + t.frac.toNat

/-- The time value as a timestamp: the fraction's low byte is 0. -/
def stampOf (t : Nat) : TimeStamp :=
  ⟨BitVec.ofNat 48 (secOf t), BitVec.ofNat 32 (nsOf t), BitVec.ofNat 16 (fracOf t * 256)⟩

def cycleBytes (p : CyclePayload) : List Byte :=
  tsBytes p.t1 ++ bytesOf 8 p.corr.toNat ++ bytesOf 4 p.cp.toNat ++ bytesOf 2 p.hub.toNat ++ bytesOf 2 p.flags.toNat
    ++ bytesOf 4 0

def thresholdBytes (p : ThresholdPayload) : List Byte :=
  bytesOf 4 p.period.toNat ++ bytesOf 2 p.k.toNat ++ [p.tie, p.flags] ++ bytesOf 4 p.imean.toNat

def ladderBytes (p : LadderPayload) : List Byte :=
  bytesOf 4 p.period.toNat ++ [p.e, p.ins, p.flags, p.reserved] ++ bytesOf 4 p.sumAll.toNat ++ bytesOf 4 p.sumIns.toNat
    ++ p.keys.flatMap (fun k => bytesOf 2 k.toNat)

def statusBytes (p : StatusPayload) : List Byte :=
  tsBytes p.txTime ++ tsBytes p.echo ++ bytesOf 8 p.turn.toNat ++ bytesOf 4 p.bulkCredit.toNat ++ [p.rxSet, p.sleep]
    ++ bytesOf 2 p.cpLo.toNat ++ [p.grade, p.memb] ++ bytesOf 2 p.cpHi.toNat ++ bytesOf 4 p.prickSeq.toNat

def healthEntryBytes (e : HealthEntry) : List Byte :=
  [e.channel, 0, 0, 0] ++ bytesOf 4 e.c.toNat ++ bytesOf 4 e.esr.toNat ++ bytesOf 2 e.nc.toNat ++ bytesOf 2 e.nr.toNat
    ++ bytesOf 2 e.nrej.toNat ++ [e.flags, e.runs]

def healthBytes (grade : Byte) (es : List HealthEntry) : List Byte :=
  [grade] ++ bytesOf 1 es.length ++ [0, 0] ++ es.flatMap healthEntryBytes

def joinBytes (p : JoinPayload) : List Byte :=
  bytesOf 8 p.uid.toNat ++ bytesOf 4 p.cp.toNat ++ [p.arm, p.ch, p.grade, 0] ++ bytesOf 4 p.prickSeq.toNat ++ bytesOf 12 0

def acceptBytes (uid fr : Nat) : List Byte := bytesOf 8 uid ++ bytesOf 4 fr ++ bytesOf 4 0

def reasonBytes (uid reason : Nat) : List Byte := bytesOf 8 uid ++ bytesOf 8 reason

/-! ## Arrival: buffers and the frame check (R361, R365 to R367, R378, R379) -/

/-- Bytes of a frame behind its SOF: header, payload padded to 4 bytes, CRC (R365). -/
def frameBytes (len : Nat) : Nat := 16 + 4 * ceilDiv len 4

/-- Buffer units of a frame (R378). -/
def frameUnits (len : Nat) : Nat := ceilDiv (frameBytes len) 64

/-- A frame fails the check: BAD is counted and event 203 posted (R367). -/
def State.nolBad (s : State) (l : Nat) : State :=
  ((s.raiseIo (Reg.NOL_LINK_FLAG_BAD l)).countIo (Reg.NOL_LINK_BAD_CNT_COUNT l) (Reg.NOL_LINK_CNT_STAT_BAD_SAT l)).post 203

/-- A frame is discarded and counted (R361, R379). -/
def State.nolDrop (s : State) (l : Nat) : State :=
  (s.raiseIo (Reg.NOL_LINK_FLAG_DROP l)).countIo (Reg.NOL_LINK_DROP_CNT_COUNT l) (Reg.NOL_LINK_CNT_STAT_DROP_SAT l)

/-- The frame takes its units in the buffer of its class, or finds it full (R378). An OPEN frame is read whole by its consumer
in the command that brings it, a TC frame is held to the second boundary after it, and a BULK frame to the next one (log entry
166). -/
def State.nolBuffer (s : State) (l type len : Nat) : Option State :=
  let x := s.link l
  let u := frameUnits len
  if type ≤ typeLadder then
    if x.tcNew + x.tcOld + u ≤ s.io (Reg.NOL_LINK_BUF_TC l) then some (s.setLink l { x with tcNew := x.tcNew + u }) else none
  else if type = typeBulk then
    if x.bulkUse + u ≤ s.io (Reg.NOL_LINK_BUF_BULK l) then some (s.setLink l { x with bulkUse := x.bulkUse + u }) else none
  else if u ≤ s.io (Reg.NOL_LINK_BUF_OPEN l) then some s
  else none

/-- Reserved bits of the header are zero (R366). -/
def headerOk (h : NolHeader) : Bool := h.flags.toNat < 8 && h.src.toNat < 0x1000 && h.dst.toNat < 0x1000

def hopsOf (h : NolHeader) : Nat := h.flags.toNat / 2 % 4
def bcastOf (h : NolHeader) : Bool := h.flags.getLsbD 0

/-- The event source of a frame type (R367). -/
def frameEvent (type : Nat) : Nat := if type ≤ typeBulk then 191 + type else 199

/-! ## Routes (R362) -/

/-- Route entry `j` holds `node` on link `l`, and is the one most recently renewed. -/
def State.setRoute (s : State) (j node l : Nat) : State :=
  let s := ((s.setIo (Reg.NOL_ROUTE_VALID j) 1).setIo (Reg.NOL_ROUTE_NODE j) node).setIo (Reg.NOL_ROUTE_LINK j) l
  { s with nol := { s.nol with routeOrder := s.nol.routeOrder.filter (· ≠ j) ++ [j] } }

/-- A node is recorded against a link: its entry renewed, a free one taken, or the least recently renewed replaced. -/
def State.learnRoute (s : State) (node l : Nat) : State :=
  match (List.range 32).find? (fun j => s.io (Reg.NOL_ROUTE_VALID j) = 1 && s.io (Reg.NOL_ROUTE_NODE j) = node) with
  | some j => s.setRoute j node l
  | none =>
    match (List.range 32).find? (fun j => s.io (Reg.NOL_ROUTE_VALID j) = 0) with
    | some j => s.setRoute j node l
    | none => s.setRoute (s.nol.routeOrder.headD 0) node l

/-! ## Forwarding (R361, R369, R370, R374) -/

/-- Number of lanes in a set. -/
def setSize (m : Nat) : Nat := (bitsBelow 4 m).length

/-- The receive sets of link `l` by the positions its lanes' markers carry (R380, R381). -/
def State.rxClaims (s : State) (l : Nat) : Nat :=
  (s.positions l).foldl (fun m b =>
    if bitOf (s.io (Reg.NOL_LINK_STAT_RX_SET l)) b then
      withBit m (tabGet (b, 0, 0) (s.link l).claims b).1 true else m) 0

/-- Markers on every lane of the dealing set in one word cycle, with one count (R363, R380). -/
def State.sendMarkers (s : State) (l : Nat) : State :=
  let tx := s.io (Reg.NOL_LINK_STAT_TX_SET l)
  let n := setSize tx
  let x := s.link l
  let s := s.setLink l { x with markCount := (x.markCount + 1) % 256, dealing := tx }
  (bitsBelow 4 tx).foldl (fun s p =>
    s.send (.marker (s.laneAt l p) (p * 64 + (n - 1) * 16 + s.rxClaims l) x.markCount)) s

/-- The rate of link `l` (R360). -/
def State.linkRate (s : State) (l : Nat) : Nat := s.io (Reg.LANE_CFG_RATE (s.laneAt l 0))

/-- Time a frame of `len` payload bytes takes on link `l` with its gap. -/
def State.linkPs (s : State) (l len : Nat) : Nat := framePs (s.linkRate l) (setSize (s.io (Reg.NOL_LINK_STAT_TX_SET l))) len

/-- Instant from which link `l` may start a frame: the last one and its gap have ended. -/
def State.linkFree (s : State) (l : Nat) : Nat := max s.psNow (s.link l).busyTo

/-- The timebase at the instant at which link `l` is free. -/
def State.toLinkFree (s : State) (l : Nat) : State := s.runTo (ceilDiv (s.linkFree l) 2000)

/-- A frame leaves on link `l`, dealt over the lanes of the dealing set, behind markers with the new set size where that set
has changed (R365, R366, R380, R382). -/
def State.sendFrame (s : State) (l : Nat) (f : OutFrame) : State :=
  let tx := s.io (Reg.NOL_LINK_STAT_TX_SET l)
  let s := if (s.link l).dealing = tx then s else s.sendMarkers l
  let words := ((bitsBelow 4 tx).map (s.laneAt l)).zip (dealt (setSize tx) (frameWords (s.linkRate l) f.bytes))
  (s.setLink l { s.link l with busyTo := s.linkFree l + s.linkPs l f.payload.length, bosOn := [] }).send (.nolri l f.bytes words)

/-- Free bytes of the bulk buffer of link `l`. -/
def State.bulkFree (s : State) (l : Nat) : Nat := 64 * (s.io (Reg.NOL_LINK_BUF_BULK l) - (s.link l).bulkUse)

/-- Positions of link `l` whose TX_SLEEP is written: they sleep, or will (R352, R380). -/
def State.sleepMask (s : State) (l : Nat) : Nat :=
  s.posMask l (fun b => s.ioBit (Reg.LANE_CTL_TX_SLEEP (s.laneAt l b)))

/-- The link-local head of a STATUS that departs now on link `l` (R370): its first 38 bytes. Of the positions in `sleep` the
firmware announces that it is to put them to sleep (R380). -/
def State.statusHead (s : State) (l sleep : Nat) : List Byte :=
  let x := s.link l
  let t := stampOf s.tb.time
  let turn : Int := if x.echo = 0 then 0 else (ts16 t : Int) - x.echoAt
  tsBytes t ++ tsBytes ⟨BitVec.ofNat 48 (x.echo / 2 ^ 16 / 10 ^ 9), BitVec.ofNat 32 (x.echo / 2 ^ 16 % 10 ^ 9),
    BitVec.ofNat 16 x.echo⟩ ++ bytesOf 8 (unsigned 64 turn) ++ bytesOf 4 (s.bulkFree l)
    ++ bytesOf 1 (s.rxClaims l) ++ bytesOf 1 (Nat.lor sleep (s.sleepMask l))

/-- The rest of a STATUS of this device (R370). -/
def State.statusTail (s : State) : List Byte :=
  let cp := s.io Reg.TB_PERIOD_CP
  bytesOf 2 cp ++ bytesOf 1 (s.io Reg.RED_GRADE_GRADE)
    ++ bytesOf 1 (if s.isHub then 0x80 + s.io Reg.NOL_MEMB_STAT_MEMBERS else s.io Reg.NOL_MEMB_STAT_STATE)
    ++ bytesOf 2 (cp / 2 ^ 16) ++ bytesOf 4 (s.rd (s.worker.getD .d0) Reg.BOOT_STAT_SEQ_SEQ)

/-- A STATUS departs on link `l`: its TX_TIME is among the last four kept (R371). -/
def State.sendStatus (s : State) (l : Nat) (f : OutFrame) (sleep : Nat) : State :=
  let s := s.sendFrame l { f with payload := s.statusHead l sleep ++ f.payload.drop 38 }
  let x := s.link l
  s.setLink l { x with sentTx := (ts16 (stampOf s.tb.time) :: x.sentTx).take 4, stSent := true }

/-- A frame to forward joins the queue of its class on link `l`. A CYCLE waits with its arrival taken off its CORR, so
that its departure completes the residence time (R369). -/
def State.queueForward (s : State) (l : Nat) (f : OutFrame) : State :=
  let x := s.link l
  if f.type ≤ typeLadder then s.setLink l { x with tcQ := x.tcQ ++ [f] }
  else if f.type = typeStatus then s.setLink l { x with statusQ := x.statusQ ++ [f] }
  else if f.type = typeHealth then s.setLink l { x with healthQ := x.healthQ ++ [f] }
  else if f.type = typeBulk then s.setLink l { x with bulkQ := x.bulkQ ++ [f] }
  else s.setLink l { x with membQ := x.membQ ++ [f] }

/-- The forwarded form of a frame: HOPS raised by 1, and for a CYCLE the residence begun. -/
def State.forwarded (s : State) (l type : Nat) (h : NolHeader) (payload : List Byte) : OutFrame :=
  let mdly : Int := s.io (Reg.NOL_LINK_MDLY_DLY l) * 2 ^ 8
  let payload := if type = typeCycle then
      payload.take 12 ++ bytesOf 8 (unsigned 64 (signed 64 (field payload 12 8) + mdly - s.now16)) ++ payload.drop 20
    else payload
  ⟨type, bcastOf h, hopsOf h + 1, h.src.toNat, h.dst.toNat, h.period.toNat, payload⟩

/-- The links a Cell forwards a frame on, and whether it takes the frame itself (R361). -/
def State.nolRoute (s : State) (l : Nat) (h : NolHeader) : List Nat × Bool :=
  if s.io (Reg.NOL_LINK_CFG_DIR l) = dirDown then (s.linksOf dirUp, false)
  else if bcastOf h then (s.linksOf dirDown, true)
  else if h.dst.toNat = s.nodeId then ([], true)
  else ((s.routeTo h.dst.toNat).toList.filter (fun j => s.io (Reg.NOL_LINK_CFG_DIR j) = dirDown), false)

/-- A frame of the right length passes its check: its link is in use, its buffer has room, and its header is sound (R365 to
R367, R378). -/
def State.nolPasses (s : State) (l type : Nat) (h : NolHeader) (len : Nat) : Bool :=
  s.io (Reg.NOL_LINK_CFG_EN l) ≠ 0 && (s.nolBuffer l type len).isSome && headerOk h

/-- A frame arrives: its buffer, the frame check, what its source teaches, and its way. The flag tells whether this
device takes it (R361, R362, R367, R379). -/
def State.nolReceive (s : State) (l type : Nat) (h : NolHeader) (lenOk : Bool) (payload : List Byte) : State × Bool :=
  if s.io (Reg.NOL_LINK_CFG_EN l) = 0 then (s, false) else
  match s.nolBuffer l type payload.length with
  | none => ((s.nolDrop l).post 203, false)
  | some s =>
    if !(lenOk && headerOk h) then (s.nolBad l, false) else
    let s := s.countIo (Reg.NOL_LINK_RX_CNT_COUNT l) (Reg.NOL_LINK_CNT_STAT_RX_SAT l)
    if s.isHub then
      if bcastOf h || h.dst.toNat = s.nodeId || (type = typeJoin && s.io (Reg.NOL_LINK_CFG_DIR l) = dirDown) then
        (s.post (frameEvent type), true)
      else (s.nolDrop l, false)
    else
      let down : Bool := s.io (Reg.NOL_LINK_CFG_DIR l) = dirDown
      let s := if down then s.learnRoute h.src.toNat l
        else if h.src.toNat = s.nodeId then s.raiseIo Reg.NOL_MEMB_STAT_ID_SEEN else s
      let r := s.nolRoute l h
      let fwd := if hopsOf h < 2 then r.1 else []
      let s := fwd.foldl (fun s j => s.queueForward j (s.forwarded l type h payload)) s
      if r.2 then (s.post (frameEvent type), true)
      else if fwd = [] then (s.nolDrop l, false) else (s, false)

/-! ## Slots (R368, R372 to R374, R464) -/

/-- The frame of a slot's queue: a LADDER of the originating Cell the slot names, otherwise a frame of the slot's TYPE
for its destination or for broadcast (R374). -/
def inSlot (type node : Nat) (bcast : Bool) (f : OutFrame) : Bool :=
  f.type = type && (if type = typeLadder then f.src = node else if bcast then f.bcast else !f.bcast && f.dst = node)

/-- CYCLE of the Hub on link `l`, filled at its departure, behind a frame in progress (R369, R374). -/
def State.cycleFrame (s : State) (l : Nat) : OutFrame :=
  s.ownFrame typeCycle true 0 (tsBytes (stampOf (s.toLinkFree l).tb.time) ++ bytesOf 8 0 ++ bytesOf 4 (s.io Reg.TB_PERIOD_CP)
    ++ bytesOf 2 s.nodeId ++ bytesOf 2 (s.io Reg.TB_STAT_TIME_VALID) ++ bytesOf 4 0)

/-- A REF, filled at its START tick from CLE_OUTA (R368). -/
def State.refFrame (s : State) (bcast : Bool) (node len c w : Nat) : OutFrame :=
  s.ownFrame typeRef bcast node ((List.range (len / 4)).flatMap (fun i => bytesOf 4 (s.io (Reg.CLE_OUTA_Y c (w + i)))))

/-- The first 32-bit word in which two payloads differ. -/
def diffWord : List Byte → List Byte → Nat → Nat
  | a :: as, b :: bs, i => if a = b then diffWord as bs (i + 1) else i / 4
  | _, _, i => i / 4

/-- An idle slot (R374). -/
def State.slotMiss (s : State) (l : Nat) : State := s.raisePost (Reg.NOL_LINK_FLAG_SLOT_MISS l) 202

/-- A frame leaves its slot, behind a frame in progress; a forwarded CYCLE completes its residence time at that departure
(R369, R374). -/
def State.sendSlot (s : State) (l : Nat) (f : OutFrame) : State :=
  if f.type = typeCycle ∧ 0 < f.hops then
    let c := signed 64 (field f.payload 12 8) + (s.toLinkFree l).now16
    s.sendFrame l { f with payload := f.payload.take 12 ++ bytesOf 8 (unsigned 64 c) ++ f.payload.drop 20 }
  else s.sendFrame l f

/-- A queued frame at its START tick, compared with the passive's where a die is PASSIVE (R374, R464). -/
def State.sendQueued (s : State) (l type node : Nat) (bcast : Bool) : State :=
  let x := s.link l
  let w := x.tcQ.find? (inSlot type node bcast)
  let p := x.tcP.find? (inSlot type node bcast)
  let s := s.setLink l { x with tcQ := x.tcQ.eraseP (inSlot type node bcast), tcP := x.tcP.eraseP (inSlot type node bcast) }
  match w with
  | none => s.slotMiss l
  | some f =>
    let own : Bool := f.hops = 0 && (type = typeLadder || type = typeThreshold)
    if !(s.hasPassive && own) then s.sendSlot l f
    else match p with
      | none => { s with red := { s.red with pmissed := true } }.sendSlot l f
      | some g =>
        if g.payload = f.payload then s.sendSlot l f
        else (s.discord 1 0 (diffWord f.payload g.payload 0)).slotMiss l

/-! ## Link states (R382, R387) -/

def linkDown : Nat := 0
def linkFull : Nat := 1
def linkDegraded : Nat := 2
def linkReduced : Nat := 3
def linkPending : Nat := 4

/-- STATE of link `l` from its dealing set, by the table of R382; a PEER link that does not serve is PENDING (R387). -/
def State.linkState (s : State) (l : Nat) (serving : Bool) : Nat :=
  let n := setSize (s.io (Reg.NOL_LINK_STAT_TX_SET l))
  if n = 0 then linkDown
  else if s.io (Reg.NOL_LINK_CFG_DIR l) = dirPeer && !serving then linkPending
  else if s.io (Reg.NOL_LINK_LANES_N l) + 1 ≤ n then linkFull
  else if s.io (Reg.NOL_LINK_CFG_FB_LANES l) ≤ n then linkDegraded
  else linkReduced

/-- A device of its own sends STATUS on this link in every period: a Cell to its Hub, a Hub on DOWN and PEER links
(R370). -/
def State.sendsStatus (s : State) (l : Nat) : Bool :=
  if s.isHub then s.io (Reg.NOL_LINK_CFG_DIR l) ≠ dirUp else s.io (Reg.NOL_LINK_CFG_DIR l) = dirUp

/-- A link at a boundary: slot frames left over are discarded, a STATUS falls due, receive buffers are released, and the
form of the coming period is taken (R370, R374, R378, R382, R387). -/
def State.linkBoundary (s : State) (l : Nat) : State :=
  if s.io (Reg.NOL_LINK_CFG_EN l) = 0 then s else
  let x := s.link l
  let serving := x.stSent && x.stGot && x.cpOk
  let x := { x with tcQ := [], tcP := [], statusDue := s.sendsStatus l, tcOld := x.tcNew, tcNew := 0, bulkUse := 0, serving := serving }
  let st := s.linkState l serving
  let n := setSize (s.io (Reg.NOL_LINK_STAT_TX_SET l))
  let form := b2n (decide (s.io (Reg.NOL_LINK_CFG_FB_LANES l) ≤ n) && decide (1 ≤ n) && decide (n ≤ s.io (Reg.NOL_LINK_LANES_N l)))
  let same : Bool := s.io (Reg.NOL_LINK_STAT_STATE l) = st && s.io (Reg.NOL_LINK_STAT_FORM l) = form
  let s := ((s.setLink l x).setIo (Reg.NOL_LINK_STAT_STATE l) st).setIo (Reg.NOL_LINK_STAT_FORM l) form
  if same then s else s.post 201

/-- Every link at a boundary. -/
def State.nolBoundary (s : State) : State :=
  let s := (List.range 32).foldl State.linkBoundary s
  { s with nol := { s.nol with leftNow := [] } }

end Sys2Proof.Machine
end

