-- ==== Sys2Proof/Machine/PrickRules.lean ====
section
/-! DEFINITION. What the firmware checks on the staging image: targets, topology, timebase, buffers and schedule (R14 to
R19, R70, R122, R135, R139, R157, R170, R181, R184, R197, R202, R205, R230, R238, R245, R249, R275, R309, R330, R337,
R360, R373 to R378, R389 to R397, R414 to R431, R441 to R445, R453, R459, R463, R482, R483). -/

namespace Sys2Proof.Machine

/-- The faults found for every index below `n`. -/
def upTo (n : Nat) (f : Nat → List Breach) : List Breach := (List.range n).flatMap f

/-! ## Cores and Ground (R122, R135, R139, R157) -/

/-- Descriptors and event routes. -/
def Stage.coreRules (x : Stage) : List Breach :=
  let spare := x.v Reg.CORE_CLUSTER_CFG_SPARE
  upTo 4 (fun c =>
    breach (x.v (Reg.BOB_CFG_RUN_LIMIT c) = 0) [Reg.BOB_CFG_RUN_LIMIT c]
    ++ upTo 128 (fun i =>
      breach (x.b (Reg.BOB_DESC_VALID c i) && c = spare) [Reg.BOB_DESC_VALID c i] [Reg.CORE_CLUSTER_CFG_SPARE]
      ++ breach (x.b (Reg.BOB_DESC_VALID c i) && x.v (Reg.BOB_DESC_CORES c i) = 0)
        [Reg.BOB_DESC_VALID c i, Reg.BOB_DESC_CORES c i]))
  ++ upTo 256 (fun e =>
    let c := x.v (Reg.EVC_ROUTE_CLUSTER e)
    let i := x.v (Reg.EVC_ROUTE_DESC e)
    breach (x.b (Reg.EVC_ROUTE_EN e) && c = spare) [Reg.EVC_ROUTE_EN e, Reg.EVC_ROUTE_CLUSTER e]
      [Reg.CORE_CLUSTER_CFG_SPARE]
    ++ breach (x.b (Reg.EVC_ROUTE_EN e) && !x.b (Reg.BOB_DESC_VALID c i))
      [Reg.EVC_ROUTE_EN e, Reg.EVC_ROUTE_CLUSTER e, Reg.EVC_ROUTE_DESC e] [Reg.BOB_DESC_VALID c i])

/-- Ground (R157). -/
def Stage.groundRules (x : Stage) : List Breach :=
  breach (x.v Reg.GND_CFG_SEED = 0) [Reg.GND_CFG_SEED]
  ++ breach (x.v Reg.GND_CFG_WAIT_CAP < 16) [Reg.GND_CFG_WAIT_CAP]
  ++ ([12, 13, 14, 15, 23].flatMap (fun i => breach (x.v (Reg.GND_TKT_CTL i) = 0) [Reg.GND_TKT_CTL i]))

/-! ## Measurement and signals (R16, R170, R181, R184, R197, R202) -/

/-- Channel settings. -/
def Stage.measRules (x : Stage) : List Breach :=
  upTo 144 (fun i =>
    breach (x.v (Reg.MEAS_CFG_RATIO i) < 3) [Reg.MEAS_CFG_RATIO i]
    ++ breach (x.v (Reg.MEAS_CFG_OW i) = 3) [Reg.MEAS_CFG_OW i]
    ++ breach (i < 128 && x.v (Reg.MEAS_CFG_LOSS_LIMIT i) = 0) [Reg.MEAS_CFG_LOSS_LIMIT i]
    ++ breach (x.b (Reg.MEAS_CFG_TSRC i) && (128 ≤ i || x.b (Reg.MEAS_CFG_AUX_KIND i)))
      [Reg.MEAS_CFG_TSRC i, Reg.MEAS_CFG_AUX_KIND i]
    ++ breach (x.v (Reg.MEAS_FP_FILT i) = 0) [Reg.MEAS_FP_FILT i])

/-- First byte of the signal table (R201). -/
def signalBase : Nat := 0x200FC000

/-- The words of a 16-byte table entry. -/
def entryWords (a : Nat) : List Field := [memWord a, memWord (a + 4), memWord (a + 8), memWord (a + 12)]

/-- A binary32 that is positive, normal and finite. -/
def normalPositive (w : Nat) : Bool := w / 2 ^ 31 = 0 && 0 < w / 2 ^ 23 % 256 && w / 2 ^ 23 % 256 < 255

/-- The used entries of the signal table: number and bytes. -/
def Stage.signals (x : Stage) : List (Nat × List Byte) :=
  ((List.range 1024).map (fun j => (j, x.st.ramBytes 0 (signalBase + 16 * j) 16))).filter (fun e => bitOf (field e.2 3 1) 0)

/-- The signal table (R202). -/
def Stage.signalRules (x : Stage) : List Breach :=
  let es := x.signals
  es.flatMap (fun e =>
    let bs := e.2
    let meas := bitOf (field bs 3 1) 1
    let src := field bs 8 2
    let bad : Bool := 0x0C < field bs 2 1 || !normalPositive (field bs 4 4)
      || bitOf (field bs 0 2) 13 || 4 ≤ field bs 3 1 || !allZero (bs.drop 10)
      || es.any (fun f => f.1 < e.1 && field f.2 0 2 = field bs 0 2)
      || (meas && (144 ≤ src || !x.b (Reg.MEAS_CFG_EN src)))
    breach bad (entryWords (signalBase + 16 * e.1)) (if meas && src < 144 then [Reg.MEAS_CFG_EN src] else []))

/-! ## Control-law engines (R205, R230, R238, R245, R249) -/

/-- One of the ENDs runs in every situation of the loops they name. -/
def endsCover (es : List CleInstr) : Bool :=
  (situations (dedup ((es.filter (·.cond ≠ 0)).map (·.cloop)))).all (fun sit => es.any (runsIn sit))

/-- What a run can reach from ENTRY: to the first END at which, with those before it, every run has ended, or where the
conditional ENDs leave a run on to the end of program memory (log entry 143): index and the instruction, none where it is
illegal; none where no END follows. -/
def progScan (fetch : Nat → Nat) : (fuel p : Nat) → (ends : List CleInstr) → Option (List (Nat × Option CleInstr))
  | 0, _, ends => if ends.isEmpty then none else some []
  | n + 1, p, ends =>
    match cleDecode (fetch p) with
    | some i =>
      let e := (p, if i.legal then some i else none)
      if i.op = .stop then
        (if endsCover (i :: ends) then some [e] else (progScan fetch n (p + 1) (i :: ends)).map (e :: ·))
      else (progScan fetch n (p + 1) ends).map (e :: ·)
    | none => (progScan fetch n (p + 1) ends).map ((p, none) :: ·)

/-- The program of CLE `c`. -/
def Stage.prog (x : Stage) (c : Nat) : Option (List (Nat × Option CleInstr)) :=
  let e := x.v (Reg.CLE_CFG_ENTRY c)
  progScan (x.st.pm .d0 c) (4096 - e) e []

/-- Its legal instructions. -/
def Stage.instrs (x : Stage) (c : Nat) : List (Nat × CleInstr) :=
  ((x.prog c).getD []).filterMap (fun p => p.2.map (fun i => (p.1, i)))

/-- Run time in ns (R230). The last END itself takes no unit. -/
def Stage.runTime (x : Stage) (c : Nat) : Nat :=
  cleRunTime (x.st.fbkWords .d0 c) (x.st.outWord .d0 c) (x.instrs c).dropLast

/-- The state words the program writes, with the cycle from which each range may be read. -/
def Stage.written (x : Stage) (c : Nat) : List (Nat × Nat × Nat) :=
  ((x.instrs c).foldl (fun y i => y.issueInstr (x.st.fbkWords .d0 c) (x.st.outWord .d0 c) i.2) ({} : Sched)).words

/-- The fault of an instruction. -/
def instrBreach (c : Bool) (k p : Nat) : List Breach :=
  breach c [memWord (pmAddr k p), memWord (pmAddr k p + 4)] [Reg.CLE_CFG_ENTRY k]

/-- The FBKs of a program that name a loop. -/
def fbksOf (is : List (Nat × CleInstr)) (n : Nat) : List CleInstr :=
  (is.map (·.2)).filter (fun i => i.op = .fbk && i.loop = n)

/-- One program with EN = 1 (R205, R230). -/
def Stage.progRules (x : Stage) (c : Nat) : List Breach :=
  let is := x.instrs c
  breach (x.prog c).isNone [Reg.CLE_CFG_ENTRY c] [Reg.CLE_CFG_EN c]
  ++ ((x.prog c).getD []).flatMap (fun p => instrBreach p.2.isNone c p.1)
  ++ is.flatMap (fun p =>
    instrBreach (p.2.cond ≠ 0 && !x.b (Reg.LOOP_CFG_EN c p.2.cloop)) c p.1
    ++ (if p.2.op = .mac then
        ((List.range p.2.n).flatMap (fun j =>
          breach (!coefOk (x.st.sm .d0 c (p.2.b + j))) [memWord (smAddr c (p.2.b + j))]))
      else []))
  ++ upTo 8 (fun l =>
    let ls := is.filter (fun p => (p.2.op.onLane && p.2.lane = l) || p.2.op = .stop)
    breach (!laneOrderOk (ls.map (·.2))) (ls.map (fun p => memWord (pmAddr c p.1))) [Reg.CLE_CFG_ENTRY c])
  ++ upTo 32 (fun n =>
    let fs := fbksOf is n
    breach (x.v (Reg.LOOP_SRC_KIND c n) ≠ 0 && !(fs.length = 1 && fs.all (·.cond = 0))) [Reg.LOOP_SRC_KIND c n])
  ++ breach (2 * (x.v Reg.TB_PERIOD_CP - x.v Reg.TB_GUARD_GUARD) < x.runTime c + 60)
    (Reg.CLE_CFG_ENTRY c :: is.map (fun p => memWord (pmAddr c p.1))) [Reg.TB_PERIOD_CP, Reg.TB_GUARD_GUARD]

/-- Control-law engines and their loops. -/
def Stage.cleRules (x : Stage) : List Breach :=
  upTo 4 (fun c =>
    breach (x.v (Reg.CLE_CFG_MISS_LIMIT c) = 0) [Reg.CLE_CFG_MISS_LIMIT c]
    ++ (if x.b (Reg.CLE_CFG_EN c) then x.progRules c else [])
    ++ upTo 32 (fun n =>
      breach (x.v (Reg.LOOP_SRC_KIND c n) = 3) [Reg.LOOP_SRC_KIND c n]
      ++ breach (x.v (Reg.LOOP_TIME_TIMER c n) = 0) [Reg.LOOP_TIME_TIMER c n]
      ++ breach (8 < x.v (Reg.LOOP_ACT_RAMP_LOG2 c n)) [Reg.LOOP_ACT_RAMP_LOG2 c n]
      ++ breach (x.v (Reg.LOOP_ACT_ENDING c n) = actSubst) [Reg.LOOP_ACT_ENDING c n]))

/-! ## Balancing (R16, R275) -/

/-- Whether CLE `c` writes word `w` before tick `q` (R275). -/
def Stage.writesBefore (x : Stage) (c w q : Nat) : Bool :=
  x.b (Reg.CLE_CFG_EN c) && (x.written c).any (fun r => r.1 ≤ w && w < r.1 + r.2.1 && 17 + r.2.2 ≤ 2 * q)

/-- A Cell whose ladder engine runs. -/
def Stage.balCell (x : Stage) : Bool := !x.hub && x.b Reg.BAL_CFG_EN

/-- R275, result TARGET. -/
def Stage.balRules (x : Stage) : List Breach :=
  breach (8 < x.v Reg.BAL_KEY_SHIFT) [Reg.BAL_KEY_SHIFT]
  ++ breach (x.v Reg.BAL_HYST0_H_MAX < x.v Reg.BAL_HYST0_H_MIN) [Reg.BAL_HYST0_H_MIN, Reg.BAL_HYST0_H_MAX]
  ++ breach (0x7FFF < x.v Reg.BAL_HYST0_H_MAX) [Reg.BAL_HYST0_H_MAX]
  ++ breach (x.v Reg.BAL_HYST1_CEIL = 0) [Reg.BAL_HYST1_CEIL]
  ++ breach (x.v Reg.BAL_HYST1_WIN_LOG2 < 8 || 16 < x.v Reg.BAL_HYST1_WIN_LOG2) [Reg.BAL_HYST1_WIN_LOG2]
  ++ breach (x.v Reg.BAL_CFG_MISS_LIMIT = 0) [Reg.BAL_CFG_MISS_LIMIT]
  ++ upTo 6 (fun a =>
    let lo := signed 14 (x.v (Reg.BAL_ARM_CFG_N_MIN a))
    let c := x.v (Reg.BAL_ARM_SRC_CLE a)
    let q := x.v (Reg.BAL_ARM_QS_Q_START a)
    breach (x.v (Reg.BAL_ARM_QS_LMISS_LIMIT a) = 0) [Reg.BAL_ARM_QS_LMISS_LIMIT a]
    ++ breach ((x.v (Reg.BAL_ARM_CFG_N_MAX a) : Int) < lo) [Reg.BAL_ARM_CFG_N_MIN a, Reg.BAL_ARM_CFG_N_MAX a]
    ++ breach (4096 < x.v (Reg.BAL_ARM_CFG_N_MAX a)) [Reg.BAL_ARM_CFG_N_MAX a]
    ++ breach (lo < 0 && !x.b (Reg.BAL_ARM_CFG_FB a)) [Reg.BAL_ARM_CFG_N_MIN a, Reg.BAL_ARM_CFG_FB a]
    ++ (if x.hub && x.b (Reg.BAL_ARM_CFG_EN a) then
        breach (!x.writesBefore c (x.v (Reg.BAL_ARM_SRC_V_WORD a)) q) [Reg.BAL_ARM_SRC_V_WORD a]
          [Reg.BAL_ARM_SRC_CLE a, Reg.BAL_ARM_QS_Q_START a]
        ++ breach (!x.writesBefore c (x.v (Reg.BAL_ARM_SRC_I_WORD a)) q) [Reg.BAL_ARM_SRC_I_WORD a]
          [Reg.BAL_ARM_SRC_CLE a, Reg.BAL_ARM_QS_Q_START a]
      else []))
  ++ breach (x.balCell && x.v Reg.BAL_HLT_CFG_K_MAD = 0) [Reg.BAL_HLT_CFG_K_MAD]
  ++ breach (x.balCell && x.v Reg.BAL_HLT_KC_KC = 0) [Reg.BAL_HLT_KC_KC]

/-! ## Gates and trips (R16, R309, R330) -/

/-- A channel in use (R16). -/
def Stage.used (x : Stage) (n : Nat) : Bool := x.v (Reg.GEN_CH_CFG_MODE n) ≠ 0

/-- Ticks a period may be short of CP (R377, R309). -/
def Stage.slack (x : Stage) : Nat := ceilDiv (x.v Reg.TB_PERIOD_CP) 10000 + 1

/-- A word of CLE `c`'s output block is written by an OUT of its program. -/
def Stage.outWritten (x : Stage) (c w : Nat) : Bool :=
  x.b (Reg.CLE_CFG_EN c) && (x.instrs c).any (fun p => p.2.op = .out && p.2.b ≤ w && w < p.2.b + p.2.n)

/-- Adaptive dead time of channel `n` is out of its limits. -/
def Stage.adaptBad (x : Stage) (n : Nat) : Bool :=
  x.v Reg.GEN_ADAPT_ECHO_WIN = 0
  || 16 * x.v (Reg.GEN_DT_BND_RISE_LO n) ≤ 16 * x.v Reg.GEN_ADAPT_ECHO_WIN + x.v (Reg.GEN_FALL_FALL n)
  || x.v Reg.GEN_ADAPT_DT_LOG2 < 4 || 12 < x.v Reg.GEN_ADAPT_DT_LOG2 || x.v Reg.GEN_ADAPT_STEP = 0

/-- A channel in use (R16, R309). -/
def Stage.genRules (x : Stage) (n : Nat) : List Breach :=
  let mode := x.v (Reg.GEN_CH_CFG_MODE n)
  let lo := x.v (Reg.GEN_DT_BND_RISE_LO n)
  let hi := x.v (Reg.GEN_DT_BND_RISE_HI n)
  let fall := x.v (Reg.GEN_FALL_FALL n)
  let rise := x.v (Reg.GEN_RISE_RISE n)
  breach (x.balCell && !x.b (Reg.MEAS_CFG_EN n)) [Reg.MEAS_CFG_EN n] [Reg.GEN_CH_CFG_MODE n]
  ++ breach (mode = 3 || (mode = 2 && x.balCell)) [Reg.GEN_CH_CFG_MODE n]
  ++ breach (hi < lo) [Reg.GEN_DT_BND_RISE_LO n, Reg.GEN_DT_BND_RISE_HI n]
  ++ breach (16 * lo ≤ fall) [Reg.GEN_DT_BND_RISE_LO n, Reg.GEN_FALL_FALL n]
  ++ breach (rise < 16 * lo) [Reg.GEN_RISE_RISE n, Reg.GEN_DT_BND_RISE_LO n]
  ++ breach (16 * hi < rise) [Reg.GEN_RISE_RISE n, Reg.GEN_DT_BND_RISE_HI n]
  ++ breach (mode = 1 && x.v Reg.TB_PERIOD_CP < x.v (Reg.GEN_CH_CFG_STAGGER n) + hi + 1 + x.slack)
    [Reg.GEN_CH_CFG_STAGGER n, Reg.GEN_DT_BND_RISE_HI n] [Reg.TB_PERIOD_CP]
  ++ breach (x.b (Reg.GEN_CH_CFG_ADAPT n) && x.adaptBad n)
    [Reg.GEN_ADAPT_ECHO_WIN, Reg.GEN_ADAPT_DT_LOG2, Reg.GEN_ADAPT_STEP] [Reg.GEN_CH_CFG_ADAPT n]

/-- A device with a channel in carrier mode (R309). -/
def Stage.carrierRules (x : Stage) : List Breach :=
  let ns := (List.range 128).filter (fun n => x.v (Reg.GEN_CH_CFG_MODE n) = 2)
  if ns = [] then [] else
  let p := x.v Reg.GEN_CAR_CFG_P
  let mp := x.v Reg.GEN_MINPW_MIN_PW
  breach (p < 1000 || 500000 < p) [Reg.GEN_CAR_CFG_P]
  ++ ns.flatMap (fun n =>
    breach (p ≤ x.v (Reg.GEN_CAR_PH_PHASE n)) [Reg.GEN_CAR_PH_PHASE n] [Reg.GEN_CAR_CFG_P]
    ++ breach (!x.outWritten (x.v (Reg.GEN_CAR_CLE n)) (x.v (Reg.GEN_CAR_WORD n))) [Reg.GEN_CAR_CLE n, Reg.GEN_CAR_WORD n]
    ++ breach (mp < x.v (Reg.GEN_DT_BND_RISE_HI n) + 2) [Reg.GEN_MINPW_MIN_PW, Reg.GEN_DT_BND_RISE_HI n])
  ++ breach (mp < ceilDiv p 10000 + 2) [Reg.GEN_MINPW_MIN_PW, Reg.GEN_CAR_CFG_P]
  ++ breach (p < 4 * mp) [Reg.GEN_MINPW_MIN_PW, Reg.GEN_CAR_CFG_P]
  ++ breach (x.b Reg.GEN_CAR_CFG_SRC && (p < 2 * x.v Reg.GEN_SYNC_COMP || x.v Reg.GEN_SYNC_WIN = 0
      || x.v Reg.GEN_SYNC_MISS_LIMIT = 0))
    [Reg.GEN_SYNC_COMP, Reg.GEN_SYNC_WIN, Reg.GEN_SYNC_MISS_LIMIT] [Reg.GEN_CAR_CFG_SRC, Reg.GEN_CAR_CFG_P]

/-- Gates and trips. SYNC_OUT = 3 is the value R298 fails. -/
def Stage.gateRules (x : Stage) : List Breach :=
  upTo 128 (fun n => if x.used n then x.genRules n else [])
  ++ x.carrierRules
  ++ breach (x.v Reg.GEN_CAR_CFG_SYNC_OUT = 3) [Reg.GEN_CAR_CFG_SYNC_OUT]
  ++ upTo 16 (fun g => breach (x.v (Reg.TRIP_GRP_CFG_HOLD g) = 0) [Reg.TRIP_GRP_CFG_HOLD g])
  ++ ([Reg.TRIP_BOS_FWD_LANES, Reg.TRIP_BOS_TX_LANES].flatMap (fun f =>
    upTo 32 (fun k => breach (bitOf (x.v f) k && x.v (Reg.LANE_CFG_USE k) ≠ 1) [f] [Reg.LANE_CFG_USE k])))
  ++ upTo 8 (fun p => breach (bitOf (x.v Reg.TRIP_IN_CFG_EN) p && x.v (Reg.TRIP_IN_MASK_MASK p) = 0)
    [Reg.TRIP_IN_CFG_EN, Reg.TRIP_IN_MASK_MASK p])
  ++ upTo 128 (fun n => breach (!x.used n && x.b (Reg.TRIP_CH_CFG_ACTION n))
    [Reg.TRIP_CH_CFG_ACTION n, Reg.GEN_CH_CFG_MODE n])

/-! ## Lanes, ports and links (R337, R357, R360, R389, R391, R393, R397) -/

/-- Ethernet port `p` is in use: an Ethernet lane names it. -/
def Stage.portLanes (x : Stage) (p : Nat) : List Nat :=
  (List.range 32).filter (fun k => x.v (Reg.LANE_CFG_USE k) = 2 && x.v (Reg.LANE_CFG_PORT k) = p)

/-- Numbers in a list, repeats left out. -/
def distinct (l : List Nat) : Nat := (dedup l).length

/-- Lanes (R337, R357). -/
def Stage.laneRules (x : Stage) : List Breach :=
  upTo 32 (fun k =>
    let use := x.v (Reg.LANE_CFG_USE k)
    let r := x.v (Reg.LANE_CFG_RATE k)
    breach (use = 3) [Reg.LANE_CFG_USE k]
    ++ breach ((use ≠ 0 && (r = 6 || 7 < r)) || (use = 2 && r ≠ 0 && r ≠ 5 && r ≠ 7) || (use = 1 && r = 0))
      [Reg.LANE_CFG_USE k, Reg.LANE_CFG_RATE k]
    ++ breach (x.v (Reg.LANE_EQ_CTLE_HI k) < x.v (Reg.LANE_EQ_CTLE_LO k)) [Reg.LANE_EQ_CTLE_LO k, Reg.LANE_EQ_CTLE_HI k])
  ++ upTo 8 (fun q =>
    let ks := [4 * q, 4 * q + 1, 4 * q + 2, 4 * q + 3].filter (fun k => x.v (Reg.LANE_CFG_USE k) ≠ 0)
    breach (2 < distinct (ks.map (fun k => x.v (Reg.LANE_CFG_RATE k)))) (ks.map Reg.LANE_CFG_RATE))
  ++ breach (16 < x.v Reg.LANE_GLB_CFG_RETRIES) [Reg.LANE_GLB_CFG_RETRIES]
  ++ breach (x.v Reg.LANE_GLB_CFG_RETRAIN_LIMIT = 0) [Reg.LANE_GLB_CFG_RETRAIN_LIMIT]

/-- Ethernet ports and their pairs (R393, R397). -/
def Stage.portRules (x : Stage) : List Breach :=
  let rate := fun p => ((x.portLanes p).map (fun k => x.v (Reg.LANE_CFG_RATE k))).head?
  upTo 4 (fun p =>
    let ks := x.portLanes p
    breach (1 < ks.length) (ks.map Reg.LANE_CFG_PORT)
    ++ breach (ks ≠ [] && x.b (Reg.ETH_PORT_CFG_FEC p) && rate p ≠ some 7)
      (Reg.ETH_PORT_CFG_FEC p :: ks.map Reg.LANE_CFG_RATE)
    ++ breach (ks ≠ [] && x.b (Reg.ETH_PORT_CFG_AN p) && rate p ≠ some 0)
      (Reg.ETH_PORT_CFG_AN p :: ks.map Reg.LANE_CFG_RATE))
  ++ ([(Reg.ETH_RED_CFG_MODE_A, 0), (Reg.ETH_RED_CFG_MODE_B, 2)].flatMap (fun m =>
    breach (x.v m.1 = 3 || (x.v m.1 ≠ 0 && (rate m.2 = none || rate (m.2 + 1) ≠ rate m.2))) [m.1]
      ((x.portLanes m.2 ++ x.portLanes (m.2 + 1)).map Reg.LANE_CFG_RATE)))

/-- The links in use. -/
def Stage.linksOn (x : Stage) : List Nat := (List.range 32).filter (fun l => x.b (Reg.NOL_LINK_CFG_EN l))

/-- N of a link. -/
def Stage.bond (x : Stage) (l : Nat) : Nat := x.v (Reg.NOL_LINK_LANES_N l) + 1

/-- The LANE fields of a link, in bond position. -/
def Stage.bondFields (x : Stage) (l : Nat) : List Field :=
  [Reg.NOL_LINK_LANES_LANE0 l, Reg.NOL_LINK_LANES_LANE1 l, Reg.NOL_LINK_LANES_LANE2 l,
    Reg.NOL_LINK_LANES_LANE3 l].take (x.bond l)

/-- Links (R360, R389, R391). -/
def Stage.linkRules (x : Stage) : List Breach :=
  let dirs := fun d => x.linksOn.filter (fun l => x.v (Reg.NOL_LINK_CFG_DIR l) = d)
  upTo 32 (fun l => breach (x.v (Reg.NOL_LINK_CFG_DIR l) = 3) [Reg.NOL_LINK_CFG_DIR l])
  ++ breach (x.v Reg.NOL_CFG_TIMEOUT = 0) [Reg.NOL_CFG_TIMEOUT]
  ++ (if x.hub then (dirs dirUp).flatMap (fun l => breach true [Reg.NOL_LINK_CFG_DIR l] [Reg.NOL_LINK_CFG_EN l])
    else
      ((dirs dirPeer).flatMap (fun l => breach true [Reg.NOL_LINK_CFG_DIR l]))
      ++ breach ((dirs dirUp).length ≠ 1) ((dirs dirUp).map Reg.NOL_LINK_CFG_DIR) ((dirs dirUp).map Reg.NOL_LINK_CFG_EN)
      ++ breach (3 < (dirs dirDown).length) ((dirs dirDown).map Reg.NOL_LINK_CFG_DIR))
  ++ x.linksOn.flatMap (fun l =>
    let fs := x.bondFields l
    breach (distinct (fs.map (fun f => x.v f / 4)) ≠ 1) fs
    ++ fs.flatMap (fun f => breach (x.v (Reg.LANE_CFG_USE (x.v f)) ≠ 1) [f, Reg.LANE_CFG_USE (x.v f)])
    ++ breach (distinct (fs.map x.v) ≠ fs.length) fs
    ++ (x.linksOn.filter (· < l)).flatMap (fun m =>
      let gs := x.bondFields m
      breach (fs.any (fun f => gs.any (fun g => x.v f = x.v g))) fs gs)
    ++ breach (x.v (Reg.NOL_LINK_CFG_FB_LANES l) = 0 || x.bond l < x.v (Reg.NOL_LINK_CFG_FB_LANES l))
      [Reg.NOL_LINK_CFG_FB_LANES l, Reg.NOL_LINK_LANES_N l])

/-! ## Station network and time (R414, R417, R421, R426, R430 to R433) -/

/-- The number of ports does not suit TYPE, or one is not in use (R417). A copy with EN = 0 that names no port has no PTP clock
(log entry 111). -/
def Stage.ptpBad (x : Stage) : Bool :=
  let ps := bitsBelow 4 (x.v Reg.PTP_CFG_PORTS)
  (if x.b Reg.PTP_CFG_TYPE then ps.length < 2 else ps.length ≠ 1) || ps.any (fun p => (x.portLanes p).isEmpty)

/-- Station network and time. -/
def Stage.stationRules (x : Stage) : List Breach :=
  upTo 8 (fun b =>
    let t0 := x.v (Reg.GOOSE_PUB_T_T0 b)
    let t1 := x.v (Reg.GOOSE_PUB_T_T1 b)
    breach (t1 = 0 || t0 < t1 || 60000 < t0) [Reg.GOOSE_PUB_T_T0 b, Reg.GOOSE_PUB_T_T1 b]
    ++ upTo 32 (fun e => breach (x.v (Reg.GOOSE_PUB_ENT_TYPE b e) = 3) [Reg.GOOSE_PUB_ENT_TYPE b e])
    ++ breach (x.v (Reg.PICOT_CFG_MODE b) = 3) [Reg.PICOT_CFG_MODE b])
  ++ breach ((x.b Reg.PTP_CFG_EN || x.v Reg.PTP_CFG_PORTS ≠ 0) && x.ptpBad) [Reg.PTP_CFG_TYPE, Reg.PTP_CFG_PORTS] [Reg.PTP_CFG_EN]
  ++ breach (x.v Reg.SERVO_CFG_SRC = 3 || (x.hub && x.v Reg.SERVO_CFG_SRC ≠ 0)) [Reg.SERVO_CFG_SRC]
  ++ breach (12 < x.v Reg.SERVO_CFG_NAVG) [Reg.SERVO_CFG_NAVG]
  ++ upTo 32 (fun i =>
    breach (x.v (Reg.SV_CFG_RATE i) = 3) [Reg.SV_CFG_RATE i]
    ++ breach (x.b (Reg.SV_CFG_EN i) && x.v (Reg.SV_LIM_ID_LEN i) = 0) [Reg.SV_LIM_ID_LEN i, Reg.SV_CFG_EN i])

/-! ## Adaptive supply, placement, redundancy (R441 to R445, R453, R459, R482, R483) -/

/-- Regions, temperature and placement settings. -/
def Stage.adaptRules (x : Stage) : List Breach :=
  upTo 2 (fun r =>
    let lo := x.v (Reg.AVS_CFG_S_LO r)
    breach (x.v (Reg.AVS_CFG_S_CRIT r) = 0 || lo ≤ x.v (Reg.AVS_CFG_S_CRIT r)) [Reg.AVS_CFG_S_CRIT r, Reg.AVS_CFG_S_LO r]
    ++ breach (x.v (Reg.AVS_CFG_S_HI r) < lo + 8) [Reg.AVS_CFG_S_HI r, Reg.AVS_CFG_S_LO r])
  ++ breach (x.v Reg.THM_CFG_T_HOT ≤ x.v Reg.THM_CFG_T_WARN) [Reg.THM_CFG_T_WARN, Reg.THM_CFG_T_HOT]
  ++ breach (115 < x.v Reg.THM_CFG_T_HOT) [Reg.THM_CFG_T_HOT]
  ++ breach (x.v Reg.PL_CFG_BUDGET < 10 || 95 < x.v Reg.PL_CFG_BUDGET) [Reg.PL_CFG_BUDGET]
  ++ breach (x.v Reg.PL_CFG_DWELL = 0) [Reg.PL_CFG_DWELL]

/-- The placement table (R444, R445). -/
def Stage.placeRules (x : Stage) : List Breach :=
  let spare := x.v Reg.CORE_CLUSTER_CFG_SPARE
  upTo 128 (fun i =>
    let e := x.st.place .d0 i
    let ds := (List.range 4).filter (fun c => e.desc.getD c 0xFF ≠ 0xFF)
    let bad : Bool := ds.any (fun c => 128 ≤ e.desc.getD c 0xFF || !x.b (Reg.BOB_DESC_VALID c (e.desc.getD c 0xFF)))
      || (e.movable && ds.length < 2) || e.home = spare || ds.contains spare
    breach (e.used && bad) (entryWords (placeBase + 16 * i)))
  ++ upTo 4 (fun c => breach (!x.st.costFits .d0 c (x.st.costOn .d0 c))
    ((x.st.entriesOn .d0 c).map (fun i => memWord (placeBase + 16 * i + 8))) [Reg.PL_CFG_BUDGET, Reg.TB_PERIOD_CP])

/-- First byte of the couching table, and its entries: ADDR, LEN, USED and PERIOD (R459). -/
def couchBase : Nat := 0x200F5000

def State.couchEntry (s : State) (d : Die) (i : Nat) : Nat × Nat × Bool × Bool :=
  let bs := s.ramBytes d.toNat (couchBase + 16 * i) 16
  (field bs 0 4, field bs 4 4, bitOf (field bs 8 1) 0, bitOf (field bs 8 1) 1)

/-- The used entries of the couching table with their numbers. -/
def State.couchEntries (s : State) (d : Die) : List (Nat × Nat × Nat × Bool) :=
  (List.range 64).filterMap (fun i =>
    let e := s.couchEntry d i
    if e.2.2.1 then some (i, e.1, e.2.1, e.2.2.2) else none)

/-- Where a couched entry may lie: cluster SRAM, region SRAM, CLE state memory. -/
def couchRanges : List (Nat × Nat) :=
  [(0x10000000, 0x10100000), (0x20000000, 0x20200000)]
    ++ (List.range 4).map (fun c => (0x30008000 + 0x10000 * c, 0x30010000 + 0x10000 * c))

/-- What it must not overlap: the couching table, the event queue (R480), the trip ring (R329). -/
def couchForbidden : List (Nat × Nat) :=
  [(couchBase, couchBase + 0x400), (0x200F6000, 0x200F8000), (0x200F8000, 0x200FC000)]

/-- Two address ranges overlap. -/
def overlap (a n b m : Nat) : Bool := a < b + m && b < a + n

/-- The couching table (R459). -/
def Stage.couchRules (x : Stage) : List Breach :=
  let es := x.st.couchEntries .d0
  es.flatMap (fun e =>
    let a := e.2.1
    let n := e.2.2.1
    let bad : Bool := !inRanges couchRanges a n || couchForbidden.any (fun r => overlap a n r.1 (r.2 - r.1))
      || es.any (fun f => f.1 < e.1 && overlap a n f.2.1 f.2.2.1)
    breach bad (entryWords (couchBase + 16 * e.1)))
  ++ breach (0x100000 < es.foldl (fun m e => m + e.2.2.1) 0) (es.map (fun e => memWord (couchBase + 16 * e.1 + 4)))

/-- Redundancy settings (R482, R483). -/
def Stage.redRules (x : Stage) : List Breach :=
  breach (x.v Reg.RED_CFG_DISC_LIMIT = 0) [Reg.RED_CFG_DISC_LIMIT]
  ++ breach (x.v Reg.RED_CFG_PMISS_LIMIT = 0) [Reg.RED_CFG_PMISS_LIMIT]
  ++ breach (x.v Reg.MEM_SPARE_CFG_CE_LIM = 0) [Reg.MEM_SPARE_CFG_CE_LIM]

/-! ## TARGET (0x0E): targets of records, and the limits that name it -/

def Stage.targetRules (x : Stage) : List Breach :=
  x.coreRules ++ x.groundRules ++ x.measRules ++ x.signalRules ++ x.cleRules ++ x.balRules ++ x.gateRules
    ++ x.laneRules ++ x.portRules ++ x.linkRules ++ x.stationRules ++ x.adaptRules ++ x.placeRules ++ x.couchRules
    ++ x.redRules

/-! ## TOPOLOGY (0x0F): R14, R19, and ROLE -/

/-- TOPOLOGY of an image. A Hub's SM_COUNT is held against 4 096 and the arms in use, and not against CELLS: which count its
Cells could own no rule says (log entries 110 and 127). -/
def Stage.topologyRules (x : Stage) : List Breach :=
  let arm := x.v Reg.SYS_NODE_ARM
  let own := x.v Reg.SYS_NODE_PARENT = x.v Reg.SYS_NODE_NODE_ID
  let cells := x.v Reg.SYS_TOPO_CELLS
  let arms := x.v Reg.SYS_TOPO_ARMS
  let sm := x.v Reg.SYS_TOPO_SM_COUNT
  let on := (List.range 6).filter (fun a => x.b (Reg.BAL_ARM_CFG_EN a))
  breach (x.b Reg.SYS_NODE_ROLE != x.hub) [Reg.SYS_NODE_ROLE]
  ++ (if x.hub then
      breach (arm ≠ 7) [Reg.SYS_NODE_ARM]
      ++ breach (!own) [Reg.SYS_NODE_PARENT, Reg.SYS_NODE_NODE_ID]
      ++ breach (arms < 1 || 6 < arms) [Reg.SYS_TOPO_ARMS]
      ++ breach (32 < cells) [Reg.SYS_TOPO_CELLS]
      ++ breach (4096 < sm) [Reg.SYS_TOPO_SM_COUNT]
      ++ on.flatMap (fun a => breach (arms ≤ a) [Reg.BAL_ARM_CFG_EN a, Reg.SYS_TOPO_ARMS])
      ++ breach (on = [] && (cells ≠ 0 || sm ≠ 0)) [Reg.SYS_TOPO_CELLS, Reg.SYS_TOPO_SM_COUNT]
      ++ breach (cells < on.length || sm < on.length) [Reg.SYS_TOPO_CELLS, Reg.SYS_TOPO_SM_COUNT]
        (on.map Reg.BAL_ARM_CFG_EN)
    else
      breach (5 < arm) [Reg.SYS_NODE_ARM]
      ++ breach own [Reg.SYS_NODE_PARENT, Reg.SYS_NODE_NODE_ID]
      ++ breach (cells ≠ 0) [Reg.SYS_TOPO_CELLS]
      ++ breach (arms ≠ 0) [Reg.SYS_TOPO_ARMS]
      ++ breach (sm < 1 || 128 < sm || sm ≠ ((List.range 128).filter x.used).length) [Reg.SYS_TOPO_SM_COUNT])

/-! ## TIMEBASE (0x10): R70 -/

def Stage.timebaseRules (x : Stage) : List Breach :=
  let cp := x.v Reg.TB_PERIOD_CP
  let g := x.v Reg.TB_GUARD_GUARD
  breach (cp < 2500 || 500000 < cp) [Reg.TB_PERIOD_CP]
  ++ breach (g < 50 || 1000 < g) [Reg.TB_GUARD_GUARD]
  ++ breach (g < ceilDiv cp 10000 + 2) [Reg.TB_GUARD_GUARD, Reg.TB_PERIOD_CP]

/-! ## The slot schedule (R372, R373) -/

/-- An entry in use of NOL_SCHED. -/
structure SlotEnt where
  e : Nat
  rx : Bool
  type : Nat
  start : Nat
  node : Nat
  len : Nat
  arm : Nat

/-- The entries in use of a form of a link. -/
def Stage.slots (x : Stage) (l f : Nat) : List SlotEnt :=
  ((List.range 32).filter (fun e => x.b (Reg.NOL_SCHED0_EN l f e))).map (fun e =>
    { e := e, rx := x.b (Reg.NOL_SCHED0_RX l f e), type := x.v (Reg.NOL_SCHED0_TYPE l f e)
      start := x.v (Reg.NOL_SCHED0_START l f e), node := x.v (Reg.NOL_SCHED1_NODE l f e)
      len := x.v (Reg.NOL_SCHED1_LEN_MAX l f e), arm := x.v (Reg.NOL_SCHED2_ARM l f e) })

/-- Word time of a rate in units of 10 ps, and bytes per word (R373). -/
def wordTime (rate : Nat) : Nat × Nat :=
  if rate = 1 then (800, 2) else if rate = 2 then (640, 2) else if rate = 3 then (400, 2)
  else if rate = 4 then (320, 2) else if rate = 7 then (256, 8) else (640, 8)

/-- Reserved ticks R of a frame of LEN_MAX bytes over `n` lanes at a rate (R373). -/
def reserved (rate n len : Nat) : Nat :=
  let w := wordTime rate
  ceilDiv ((ceilDiv (1 + ceilDiv (16 + 4 * ceilDiv len 4) w.2) n + 2) * w.1) 200

/-- R of an entry of a form of a link. -/
def Stage.slotTicks (x : Stage) (l f : Nat) (e : SlotEnt) : Nat :=
  reserved (x.v (Reg.LANE_CFG_RATE (x.v (Reg.NOL_LINK_LANES_LANE0 l))))
    (if f = 0 then x.bond l else max 1 (x.v (Reg.NOL_LINK_CFG_FB_LANES l))) e.len

/-- Latest arrival A of a receive window (R377). -/
def Stage.arrival (x : Stage) (l f : Nat) (e : SlotEnt) : Nat := e.start + x.slotTicks l f e + 25

/-- The fields of an entry that fix when it ends. -/
def slotFields (l f : Nat) (e : SlotEnt) : List Field := [Reg.NOL_SCHED0_START l f e.e, Reg.NOL_SCHED1_LEN_MAX l f e.e]

/-! ## BUFFER (0x11): R378 -/

/-- 64-byte units of the receive windows of a form. -/
def Stage.windowUnits (x : Stage) (l f : Nat) : Nat :=
  ((x.slots l f).filter (·.rx)).foldl (fun m e => m + ceilDiv (16 + 4 * ceilDiv e.len 4) 64) 0

def Stage.bufferRules (x : Stage) : List Breach :=
  let total := fun l => x.v (Reg.NOL_LINK_BUF_TC l) + x.v (Reg.NOL_LINK_BUF_OPEN l) + x.v (Reg.NOL_LINK_BUF_BULK l)
  x.linksOn.flatMap (fun l =>
    let f := if x.windowUnits l 0 < x.windowUnits l 1 then 1 else 0
    breach (x.v (Reg.NOL_LINK_BUF_TC l) < 2 * x.windowUnits l f) (Reg.NOL_LINK_BUF_TC l ::
      ((x.slots l f).filter (·.rx)).map (fun e => Reg.NOL_SCHED1_LEN_MAX l f e.e))
    ++ breach (x.v (Reg.NOL_LINK_BUF_OPEN l) < 8) [Reg.NOL_LINK_BUF_OPEN l]
    ++ breach (x.v (Reg.NOL_LINK_BUF_BULK l) < 33) [Reg.NOL_LINK_BUF_BULK l])
  ++ breach (4096 < x.linksOn.foldl (fun m l => m + total l) 0)
    (x.linksOn.flatMap (fun l => [Reg.NOL_LINK_BUF_TC l, Reg.NOL_LINK_BUF_OPEN l, Reg.NOL_LINK_BUF_BULK l]))

/-! ## SCHEDULE (0x12): R275, R377, R463 -/

/-- A slot's TYPE suits the link's direction (R377). -/
def typeSuits (dir type : Nat) : Bool :=
  if dir = dirUp then type = typeLadder
  else if dir = dirDown then type = typeCycle || type = typeThreshold
  else type = typeRef

/-- One form of a link (R377). -/
def Stage.formRules (x : Stage) (l f : Nat) : List Breach :=
  let dir := x.v (Reg.NOL_LINK_CFG_DIR l)
  let es := x.slots l f
  let tx := es.filter (fun e => !e.rx)
  tx.flatMap (fun e =>
    let fin := e.start + x.slotTicks l f e
    let before := fun (a b : SlotEnt) => a.start < b.start || (a.start = b.start && a.e < b.e)
    ((tx.filter (before e)).flatMap (fun g => breach (g.start < fin) (slotFields l f e ++ slotFields l f g)))
    ++ breach (x.v Reg.TB_PERIOD_CP < fin + x.slack) (slotFields l f e) [Reg.TB_PERIOD_CP]
    ++ breach (!typeSuits dir e.type) [Reg.NOL_SCHED0_TYPE l f e.e, Reg.NOL_LINK_CFG_DIR l])
  ++ (es.filter (·.rx)).flatMap (fun e =>
    if x.hub then
      breach (e.type = typeLadder && e.arm < 6 && x.v (Reg.BAL_ARM_QS_Q_START e.arm) < x.arrival l f e)
        (slotFields l f e) [Reg.BAL_ARM_QS_Q_START e.arm]
    else
      breach (e.type = typeThreshold && x.v Reg.BAL_TSEL_T_SEL < x.arrival l f e) (slotFields l f e) [Reg.BAL_TSEL_T_SEL])

/-- Nodes whose ladders of arm `a` a Hub receives. -/
def Stage.armNodes (x : Stage) (a : Nat) : List Nat :=
  dedup (x.linksOn.flatMap (fun l => [0, 1].flatMap (fun f =>
    ((x.slots l f).filter (fun e => e.rx && e.type = typeLadder && e.arm = a)).map (·.node))))

/-- ns from Q_START to the completion of arm `a`, arms that share its Q_START served before it (R265). -/
def Stage.armTime (x : Stage) (a : Nat) : Nat :=
  ((List.range (a + 1)).filter (fun b => x.b (Reg.BAL_ARM_CFG_EN b)
      && x.v (Reg.BAL_ARM_QS_Q_START b) = x.v (Reg.BAL_ARM_QS_Q_START a))).foldl
    (fun t b => t + 100 + 10 * (x.armNodes b).length) 0

/-- Thresholds of an arm in use against their slots (R275). -/
def Stage.thresholdRules (x : Stage) : List Breach :=
  upTo 6 (fun a =>
    if !x.hub || !x.b (Reg.BAL_ARM_CFG_EN a) then [] else
    let ns := x.armNodes a
    x.linksOn.flatMap (fun l => [0, 1].flatMap (fun f =>
      ((x.slots l f).filter (fun e => !e.rx && e.type = typeThreshold && ns.contains e.node)).flatMap (fun e =>
        breach (2 * e.start < 2 * x.v (Reg.BAL_ARM_QS_Q_START a) + x.armTime a)
          [Reg.BAL_ARM_QS_Q_START a, Reg.NOL_SCHED0_START l f e.e]))))

/-- The Cell's own ladder slots (R275). -/
def Stage.sortRules (x : Stage) : List Breach :=
  if x.hub then [] else
  x.linksOn.flatMap (fun l =>
    if x.v (Reg.NOL_LINK_CFG_DIR l) ≠ dirUp then [] else
    [0, 1].flatMap (fun f =>
      ((x.slots l f).filter (fun e => !e.rx && e.type = typeLadder && e.node = x.v Reg.SYS_NODE_NODE_ID)).flatMap
        (fun e => breach (e.start < x.v Reg.BAL_TSORT_T_SORT + 250) [Reg.BAL_TSORT_T_SORT, Reg.NOL_SCHED0_START l f e.e])))

/-- Bytes couched in every period: the entries with PERIOD and the ladder image of a Cell that balances (R458, R463). -/
def Stage.couchBytes (x : Stage) : Nat :=
  ((x.st.couchEntries .d0).filter (fun e => e.2.2.2)).foldl (fun m e => m + e.2.2.1)
    (if x.b Reg.BAL_CFG_EN then 2048 else 0)

def Stage.scheduleRules (x : Stage) : List Breach :=
  let cp := x.v Reg.TB_PERIOD_CP
  let g := x.v Reg.TB_GUARD_GUARD
  let ts := x.v Reg.RED_COUCH_T_START
  x.linksOn.flatMap (fun l => x.formRules l 0 ++ x.formRules l 1)
  ++ x.sortRules ++ x.thresholdRules
  ++ breach (2 * (cp - g) < 2 * x.v Reg.BAL_TSEL_T_SEL + 1030) [Reg.BAL_TSEL_T_SEL] [Reg.TB_PERIOD_CP, Reg.TB_GUARD_GUARD]
  ++ upTo 4 (fun c => breach (x.b (Reg.CLE_CFG_EN c) && 2 * ts < x.runTime c) [Reg.RED_COUCH_T_START]
    [Reg.CLE_CFG_ENTRY c])
  ++ breach (16 * (cp - g) < 16 * ts + 5 * x.couchBytes + 1600) [Reg.RED_COUCH_T_START]
    [Reg.TB_PERIOD_CP, Reg.TB_GUARD_GUARD]

/-! ## The checks in order (R485) -/

/-- The first check that finds a fault, 0x0E to 0x12, with FAIL_OFFSET. A record whose target is illegal is a fault of its
own (R84). -/
def Stage.semantic (x : Stage) : Option (Nat × Nat) :=
  let targets := (x.recs.filter (fun r => !r.targetOk)).map (·.off)
  let t := targets ++ x.targetRules.map x.offsetOf
  if t ≠ [] then some (0x0E, earliest t)
  else if x.topologyRules ≠ [] then some (0x0F, earliest (x.topologyRules.map x.offsetOf))
  else if x.timebaseRules ≠ [] then some (0x10, earliest (x.timebaseRules.map x.offsetOf))
  else if x.bufferRules ≠ [] then some (0x11, earliest (x.bufferRules.map x.offsetOf))
  else if x.scheduleRules ≠ [] then some (0x12, earliest (x.scheduleRules.map x.offsetOf))
  else none

end Sys2Proof.Machine
end

