-- ==== Sys2Proof/Machine/Redund.lean ====
section
/-! DEFINITION. The commands of the redundancy block: couching, verdicts, the role change, rejoining, spare banks, the
controlled stop's end and the event log (R458 to R480). -/

namespace Sys2Proof.Machine

/-! ## Couching (R458 to R462) -/

/-- Addresses of the words of entry lists, in order. -/
def entryAddrs (es : List (Nat × Nat × Nat × Bool)) : List Nat :=
  es.flatMap (fun e => (List.range (e.2.2.1 / 4)).map (fun i => e.2.1 + 4 * i))

/-- The words couched in every period. -/
def State.couchWords (s : State) (d : Die) : List Nat := entryAddrs ((s.couchEntries d).filter (fun e => e.2.2.2))

/-- Words of a die with their values. -/
def State.snapWords (s : State) (d : Die) (as : List Nat) : List (Nat × Nat) :=
  as.map (fun a => (a, s.ram32 d.toNat a))

/-- The die couched by the worker: PASSIVE or SYNCING (R461, R462); none by a worker whose writes are discarded (R467). -/
def State.couchPair (s : State) : Option (Die × Die) :=
  match s.worker with
  | none => none
  | some d => if s.mayWrite d && (s.dieState d.other = 1 || s.dieState d.other = 2) then some (d, d.other) else none

/-- Tick at which the engine reads word `i` of its snapshot, at 1 600 MB/s (R461). -/
def State.couchTick (s : State) (i : Nat) : Nat := s.red.couchAt + 5 * i / 4

/-- A couching flag sets, with event 254 and a COUCH record. -/
def State.couchFlag (s : State) (f : Field) (d : Die) (word : Nat) : State :=
  (s.raisePost f 254).logEvent recCouch d.toNat 0 0 word

/-- One word compared: a word read as uncorrectable is skipped, a differing word that the passive has not written since
takes the worker's value and is counted. -/
def State.couchWord (bad : List Word) (d p : Die) (s : State) (w : (Nat × Nat) × (Nat × Nat)) : State :=
  let a := w.1.1
  if bad.contains (BitVec.ofNat 32 a) then
    (s.eccUncorrectable d a).couchFlag Reg.RED_COUCH_STAT_COUCH_UE d a
  else if w.1.2 = w.2.2 || s.red.dirty.any (fun q => q.1 = ramKey p.toNat a) then s
  else ({ s.extWord p a w.1.2 with red := s.red }).countIo Reg.RED_COUCH_FIX_COUNT Reg.RED_COUCH_STAT_FIX_SAT

/-- The words of the health records. -/
def healthWords : List ImageItem := (List.range 512).map .health

/-- The items of the ladder engine's image of a pair of dies, in the model's order (log entry 40). -/
def State.imageItems (s : State) : List ImageItem :=
  (List.range 128).map .band ++ (List.range 6).map .arm
    ++ ((List.range 0x1000).filter (fun n => (s.hubMember .d0 n).isSome || (s.hubMember .d1 n).isSome)).map .member
    ++ healthWords

/-- An item of a die's image; a member that the die does not hold reads empty. -/
def State.imageRead (s : State) (d : Die) : ImageItem → List Int
  | .band n => [s.rd d (Reg.BAL_CH_H n), s.rd d (Reg.BAL_CH_CHANGES n), s.rd d (Reg.BAL_CH_PIN n)]
  | .arm a => [(s.arm d a).err, if (s.arm d a).s then 1 else 0]
  | .member node => ((s.hubMember d node).map (fun m => m.hc)).toList
  | .health i => [s.ram32 d.toNat (healthAddr 0 + 4 * i)]

/-- An item written into a die. -/
def State.imageWrite (s : State) (d : Die) (it : ImageItem) (v : List Int) : State :=
  match it, v with
  | .band n, [h, c, p] =>
    ((s.wr d (Reg.BAL_CH_H n) h.toNat).wr d (Reg.BAL_CH_CHANGES n) c.toNat).wr d (Reg.BAL_CH_PIN n) p.toNat
  | .arm a, [err, up] =>
    (s.setArm d a { s.arm d a with err := err, s := up = 1 }).wrInt d (Reg.BAL_ARM_Q_ERR a) err
  | .member node, [hc] =>
    let x := (s.hubMember d node).getD ((s.hubMember d.other node).getD {})
    s.setHubMember d node (some { x with hc := hc })
  | .health i, [w] => s.setRam32 d.toNat (healthAddr 0 + 4 * i) w.toNat
  | _, _ => s

/-- Both dies' images as they stand, where the ladder engine runs (R458). -/
def State.snapImage (s : State) (d p : Die) : List (ImageItem × List Int × List Int) :=
  if s.bit d Reg.BAL_CFG_EN then s.imageItems.map (fun it => (it, s.imageRead d it, s.imageRead p it)) else []

/-- The tick of a die's first write of an item since the snapshot, of its last where the item has no word of memory (R461). -/
def State.imageAt (s : State) (d : Die) : ImageItem → Option Nat
  | .health i => (s.red.dirty.find? (fun q => q.1 = ramKey d.toNat (healthAddr 0 + 4 * i))).map (·.2)
  | .arm a => some (s.arm d a).at_
  | .member node => (s.hubMember d node).map (·.hcAt)
  | .band _ => none

/-- The passive has written an item since the snapshot: a noted write of it, or another value. -/
def State.imageWritten (s : State) (p : Die) (it : ImageItem) (v : List Int) : Bool :=
  match it with
  | .health _ => (s.imageAt p it).isSome
  | _ => s.imageRead p it ≠ v || (s.imageAt p it).any (s.red.couchAt < ·)

/-- The ticks at which a write-aside buffer took a word of die `d`: couched words, and words of the image behind them, written
before they were read (R461). -/
def State.asideTicks (s : State) (d : Die) : List Nat :=
  s.red.dirty.filterMap (fun p =>
    match s.red.snapW.findIdx? (fun w => ramKey d.toNat w.1 = p.1) with
    | some i => if p.2 < s.couchTick i then some p.2 else none
    | none => none)
  ++ ((List.range s.red.snapI.length).zip s.red.snapI).filterMap (fun e =>
    (s.imageAt d e.2.1).filter (fun t => s.red.couchAt < t && t < s.couchTick (s.red.snapW.length + e.1)))

/-- The tick at which a buffer of 512 words overflows, if one does. -/
def State.asideOverflow (s : State) : Option Nat :=
  ([Die.d0, .d1].flatMap (fun d =>
    let ts := s.asideTicks d
    ts.filter (fun t => 512 < (ts.filter (· ≤ t)).length))).min?

/-- The address of an item that lies in memory. -/
def ImageItem.address : ImageItem → Option Nat
  | .health i => some (healthAddr 0 + 4 * i)
  | _ => none

/-- One item compared, as `couchWord` compares a word; the number of items rewritten so far is kept. -/
def State.couchItem (bad : List Word) (d p : Die) (x : State × Nat) (e : ImageItem × List Int × List Int) : State × Nat :=
  let s := x.1
  match e.1.address.filter (fun a => bad.contains (BitVec.ofNat 32 a)) with
  | some a => ((s.eccUncorrectable d a).couchFlag Reg.RED_COUCH_STAT_COUCH_UE d a, x.2)
  | none =>
    if e.2.1 = e.2.2 || s.imageWritten p e.1 e.2.2 then x
    else ({ s.imageWrite p e.1 e.2.1 with red := s.red }, x.2 + 1)

/-- The image of the snapshots compared, its first `n` items (R461); where anything differs a free number of its 512 words
is counted, since the spec gives the image no layout (log entry 40). -/
def State.couchImage (s : State) (bad : List Word) (d p : Die) (n : Nat) : State :=
  let x := (s.red.snapI.take n).foldl (State.couchItem bad d p) (s, 0)
  if x.2 = 0 then x.1
  else (x.1.draw 1).count .d0 Reg.RED_COUCH_FIX_COUNT Reg.RED_COUCH_STAT_FIX_SAT (1 + Config.free x.1.freeCtr % 512)

/-- The image of the worker written whole into the other die (R462). -/
def State.copyImage (s : State) (d p : Die) : State :=
  if s.bit d Reg.BAL_CFG_EN then s.imageItems.foldl (fun t it => t.imageWrite p it (s.imageRead d it)) s else s

/-- Words of `lost` do not come through the crossing (R60). Couching of the period ends with the first `n` words, and the first `m` items of the image behind them, compared. -/
def State.couchEnd (s : State) (bad lost : List Word) (d p : Die) (n m : Nat) : State :=
  let ws := ((s.red.snapW.zip s.red.snapP).take n).filter (fun w => !lost.contains (BitVec.ofNat 32 w.1.1))
  let s := (ws.foldl (State.couchWord bad d p) s).couchImage bad d p m
  let s := if lost = [] then s else s.post 255
  { s with red := { s.red with couching := false, dirty := [] } }

/-- COUCH_START (R461): at T_START after the boundary both dies' couched state is snapshot. -/
def execCouchStart (s : State) : Result :=
  match (if s.inPeriod (s.io Reg.RED_COUCH_T_START) then s.couchPair else none) with
  | none => .next s
  | some (d, p) =>
    let s := s.runTo (s.tb.bTick + s.io Reg.RED_COUCH_T_START)
    let as := s.couchWords d
    .next { s with red := { s.red with couching := true, couchAt := s.tb.ticks, dirty := []
                                       snapW := s.snapWords d as, snapP := s.snapWords p as, snapI := s.snapImage d p } }

/-- Words read before tick `t`, and items of the image. -/
def State.wordsBefore (s : State) (t : Nat) : Nat :=
  ((List.range s.red.snapW.length).filter (fun i => s.couchTick i < t)).length
def State.itemsBefore (s : State) (t : Nat) : Nat :=
  ((List.range s.red.snapI.length).filter (fun j => s.couchTick (s.red.snapW.length + j) < t)).length

/-- COUCH_STREAM_DONE (R461): the stream has ended; with a buffer overflowed on its way, the words not yet read by then are
left as they are. -/
def execCouchStreamDone (bad lost : List Word) (s : State) : Result :=
  if !s.red.couching then .next s else
  match s.couchPair with
  | none => .next { s with red := { s.red with couching := false, dirty := [] } }
  | some (d, p) =>
    match s.asideOverflow with
    | some t => .next ((s.couchEnd bad lost d p (s.wordsBefore t) (s.itemsBefore t)).couchFlag Reg.RED_COUCH_STAT_COUCH_ABORT p 0)
    | none =>
      let s := s.couchEnd bad lost d p s.red.snapW.length s.red.snapI.length
      .next { s with red := { s.red with couched := true } }

/-- Couching still under way at the guard tick is abandoned: of its words and then of the image a free number has been
compared by then, not all (R461, log entry 41). -/
def State.couchLate (s : State) (bad : List Word) : State :=
  if !s.red.couching then s else
  match s.couchPair with
  | none => { s with red := { s.red with couching := false, dirty := [] } }
  | some (d, p) =>
    match s.asideOverflow with
    | some t => (s.couchEnd bad [] d p (s.wordsBefore t) (s.itemsBefore t)).couchFlag Reg.RED_COUCH_STAT_COUCH_ABORT p 0
    | none =>
      let n := Config.free s.freeCtr % (s.red.snapW.length + s.red.snapI.length)
      ((s.draw 1).couchEnd bad [] d p n (n - s.red.snapW.length)).couchFlag Reg.RED_COUCH_STAT_COUCH_LATE p 0

/-- A die enters SYNCING: its full pass and a couching period are still to come (R462). -/
def State.toSyncing (s : State) (d : Die) : State :=
  let s := s.setDieState d 2
  { s with red := { s.red with passDone := false, couched := false } }

/-- FULL_PASS_DONE (R462): every used entry and the ladder image are in the SYNCING die; a word that reads back
differently fails it with cause COUCH. -/
def execFullPassDone (readBackOk : Bool) (s : State) : Result :=
  match s.couchPair with
  | none => .next s
  | some (d, p) =>
    if s.dieState p ≠ 2 then .next s
    else if !readBackOk then .next (s.putOut p causeCouch)
    else
      let t := (entryAddrs (s.couchEntries d)).foldl (fun t a => t.extWord p a (t.ram32 d.toNat a)) s
      let t := t.copyImage d p
      .next { t with red := { s.red with passDone := true } }

/-- FULL_PASS_TIMEOUT (R462): the pass did not end within 1 s. -/
def execFullPassTimeout (s : State) : Result :=
  match s.couchPair with
  | none => .next s
  | some (_, p) => .next (if s.dieState p = 2 && !s.red.passDone then s.putOut p causeCouch else s)

/-! ## Verdicts (R465, R466, R481) -/

/-- The discord counter rises, and sticks at its limit with event 253 (R12, R13, R466). -/
def State.countDiscord (s : State) : State :=
  let lim := s.io Reg.RED_CFG_DISC_LIMIT
  let n := s.io Reg.RED_DISC_CNT_COUNT
  if lim ≤ n then s
  else
    let s := s.setIo Reg.RED_DISC_CNT_COUNT (n + 1)
    if n + 1 = lim then (s.setIo Reg.RED_DISC_STAT_AT_LIMIT 1).post 253 else s

/-- The failed worker leaves, and the other die takes over where it is fit. -/
def State.verdictTakeover (s : State) (d : Die) (cause : Nat) (fit : Bool) : State :=
  if fit then ((s.setDieState d.other 1).putOut d cause).startTakeover d
  else s.raiseGrade 4 causeNoDie

/-- What the verdicts of worker `d` and of the other die decide (R466, R481). A passive that has left service meanwhile
cannot take over. -/
def State.verdict (s : State) (d : Die) (wp pp : Bool) : State :=
  let p := d.other
  let there : Bool := s.dieState p = 3
  match s.red.workerFault with
  | some cause => { s with red := { s.red with workerFault := none } }.verdictTakeover d cause (pp && there)
  | none =>
    if !there then (if wp then s.setDieState d 0 else s.raiseGrade 4 causeNoDie)
    else if wp && pp then ((s.setDieState d 0).toSyncing p).countDiscord
    else if pp then s.verdictTakeover d causeSelfCheck true
    else if wp then (s.setDieState d 0).putOut p causeSelfCheck
    else s.raiseGrade 4 causeBothCheck

/-- RUN_LIMIT has not counted during the stall: the dispatch of each core moves on by what of the stall has come after it (R465). -/
def State.resumeRuns (s : State) : State :=
  [Die.d0, .d1].foldl (fun s d => (List.range 12).foldl (fun s c =>
    s.setCore d c { s.core d c with since := (s.core d c).since.map (fun t => t + (s.tb.ticks - max t s.red.checkAt)) }) s) s

/-- DIE_SELF_CHECK_VERDICT (R466): both verdicts stand, and the stall ends. -/
def execDieSelfCheckVerdict (workerPass passivePass : Bool) (s : State) : Result :=
  if !s.red.checking then .next s else
  match s.worker with
  | none => .next s
  | some d =>
    let s := { s.resumeRuns with red := { s.red with checking := false } }
    let s := (s.logEvent recVerdict 0xFF 0 0 (b2n workerPass + 2 * b2n passivePass)).post 253
    .next (s.verdict d workerPass passivePass)

/-! ## The role change (R467) -/

/-- The copies of the shadow sets change roles: the new worker's becomes the shadow, the other is reloaded from the active
values, and what the new worker has staged in time stands. -/
def State.swapShadows (s : State) : State :=
  let fs := ioSets.flatMap s.activeVals
  let old := s
  let s := fs.foldl (fun s p => (s.setSideSh true p.1 (old.sideSh false p.1)).setSideSh false p.1 p.2) s
  let s := fs.foldl (fun s p => s.setStaged true p.1 (old.staged false p.1)) s
  ioSets.foldl (fun s n => s.setSet n { staged := (s.setOf n).pStaged }) s

/-- The slot queues of every link pass to the new worker's frames; the frames forwarded in them stay (R374, R467). -/
def State.swapQueues (s : State) : State :=
  (List.range 32).foldl (fun s l => s.setLink l { s.link l with
    tcQ := (s.link l).tcP ++ (s.link l).tcQ.filter (fun f => f.hops ≠ 0), tcP := [] }) s

/-- ROLE_CHANGE (R467, R480): the passive holds the worker role; event 253 is posted to it, the CLE trip sources follow its
loops, and the records since t_v stand in its queue. -/
def execRoleChange (s : State) : Result :=
  match s.red.takeover with
  | none => .next s
  | some t =>
    let d := t.from_
    let w := d.other
    let sync := s.red.takeoverSync
    let s := (s.setIo (Reg.RED_DIE_WORKER d.toNat) 0).setIo (Reg.RED_DIE_WORKER w.toNat) 1
    let s := (s.setIo (Reg.RED_DIE_STATE w.toNat) 0).setIo Reg.RED_DISC_STAT_PMISS 0
    let s := { s with red := { s.red with takeover := none, takeoverSync := false, pmissed := false, couching := false
                                          dirty := [] } }
    let s := s.red.logq.foldl State.placeRecord s
    let s := (s.logEvent recTakeover w.toNat (s.io (Reg.RED_DIE_CAUSE d.toNat)) 0 0).postEventDie w 253
    let s := (s.swapShadows.swapQueues)
    let s := (List.range 4).foldl (fun s c => s.formRequest w c) s
    .next (if sync then s.toSyncing d else s)

/-! ## Die faults detected by commands (R468) -/

/-- BRIDE_CRC_FAULT (R468). -/
def execBrideCrcFault (d : Die) (s : State) : Result := .next (s.dieFault d causeBride)

/-- HEARTBEAT_FAULT (R468). -/
def execHeartbeatFault (d : Die) (s : State) : Result := .next (s.dieFault d causeHeartbeat)

/-! ## Rejoining (R470) -/

/-- A table without the keys of die `d`, each die holding `n` of them. -/
def dropDie {α : Type} (n : Nat) (d : Die) (t : Tab α) : Tab α :=
  t.filter (fun p => !(n * d.toNat ≤ p.1 && p.1 < n * (d.toNat + 1)))

/-- Keys of one location in the register tables, and in RAM. -/
def regSpan : Nat := 2 ^ 37
def ramSpan : Nat := 2 ^ 32

/-- A table whose keys of die `d` are those of another. -/
def takeDie {α : Type} (n : Nat) (d : Die) (t u : Tab α) : Tab α :=
  t.filter (fun p => p.1 < n * d.toNat) ++ u.filter (fun p => n * d.toNat ≤ p.1 && p.1 < n * (d.toNat + 1))
    ++ t.filter (fun p => n * (d.toNat + 1) ≤ p.1)

/-- Registers of a die that its reset keeps: what lasts until PORST_N, the straps, which PORST_N samples (R47, R51), and the
spares in use, which the loader re-applies (R473). -/
def keptFields : List Field :=
  porstDie ++ [Reg.SYS_STRAP_SAMPLE_UP, Reg.SYS_STRAP_SAMPLE_DN, Reg.SYS_STRAP_OPEN, Reg.SYS_STRAP_TEST_EN, Reg.PL_MAP_PHYS, Reg.PL_MAP_SPARE_USED, Reg.MEM_SPARE_USED 0, Reg.MEM_SPARE_USED 1, Reg.MEM_SPARE_BANK 0,
    Reg.MEM_SPARE_BANK 1]

/-- Everything a die holds beyond its memories is reset; its cores' records name the reset (R147, R470). -/
def State.resetDie (s : State) (d : Die) : State :=
  let old := s
  let s := { s with
    regs := s.regs.filter (fun p => hardwired (keyAddr p.1) || !(regSpan * d.toNat ≤ p.1 && p.1 < regSpan * (d.toNat + 1)))
    shadow := dropDie regSpan d s.shadow, stagedW := dropDie regSpan d s.stagedW
    sets := s.sets.filter (fun p => p.1 / 0x10000 ≠ 1 + d.toNat)
    bobs := dropDie 4 d s.bobs, cores := dropDie 16 d s.cores, locks := dropDie 64 d s.locks
    lockLast := dropDie 64 d s.lockLast, latched := s.latched.filter (fun e => e / 256 ≠ d.toNat)
    faultTicks := dropDie 8 d s.faultTicks, gnd := dropDie 64 d s.gnd, lfsr := dropDie 4 d s.lfsr
    gndClk := dropDie 4 d s.gndClk, gndEm := dropDie 8 d s.gndEm, cleReq := dropDie 4 d s.cleReq, regions := dropDie 2 d s.regions
    placed := dropDie 128 d s.placed, movedAt := dropDie 128 d s.movedAt, cles := dropDie 4 d s.cles
    balCh := dropDie 128 d s.balCh, balCell := dropDie 1 d s.balCell, hubMem := dropDie 0x1000 d s.hubMem
    hubArm := dropDie 8 d s.hubArm, adapt := dropDie 1 d s.adapt
    tb := { s.tb with snap := dropDie 32 d s.tb.snap } }
  let s := keptFields.foldl (fun s f => s.wr d f (old.rd d f)) s
  let s := s.setAdapt d { replaced := (old.adaptOf d).replaced }
  let s := (List.range 2).foldl (fun s r => s.setRegion d r { cycAt := s.tb.ticks }) s
  let s := (List.range 12).foldl (fun s c => s.setCore d c { resetAt := s.tb.ticks }) s
  (List.range 12).foldl (fun s c => s.wr d (Reg.CORE_FAULT_REC0_CAUSE c) causeReset) s

/-- DIE_REJOIN_RESET (R470): a die that is OUT with attempts left is reset. -/
def execDieRejoinReset (d : Die) (s : State) : Result :=
  let n := s.io (Reg.RED_DIE_REJOINS d.toNat)
  if s.dieState d = 4 ∧ n < s.io Reg.RED_CFG_REJOIN_MAX ∧ s.phase ≠ phaseMaint then
    .next (((s.resetDie d).setIo (Reg.RED_DIE_REJOINS d.toNat) (n + 1)).setDieState d 5)
  else .next s

/-- The records of the applied copy, none where they do not parse. -/
def State.appliedRecs (s : State) : List PrickRec :=
  let base := copyBase (s.rd (s.worker.getD .d0) Reg.BOOT_STAT_COPY)
  let len := field (s.flashBytes base 64) 0x14 4
  (parseRecs len ((s.flashBytes base len).drop 64) 64 (len - 4)).1

/-- Records applied to one die alone. -/
def State.applyTo (s : State) (d : Die) (rs : List PrickRec) : State :=
  let x := rs.foldl State.putRecord s
  { s with regs := takeDie regSpan d s.regs x.regs, shadow := takeDie regSpan d s.shadow x.shadow
           ram := takeDie ramSpan d s.ram x.ram }

/-- The boot and firmware registers of the other die, and the straps (R47, R100, R119). -/
def State.copyBoot (s : State) (d : Die) : State :=
  (0x50000018 :: (List.range 13).map (fun i => 0x50000100 + 4 * i)).foldl (fun s a =>
    ((Reg.fieldsAt a).getD []).foldl (fun s f => s.wr d f (s.rd d.other f)) s) s

/-- DIE_REJOIN_READY (R470): the die has booted with the copy and slot the worker runs; equal results make it SYNCING. In the
test state no die leaves its boot ROM (R52). -/
def execDieRejoinReady (d : Die) (agrees : Bool) (s : State) : Result :=
  if s.dieState d ≠ 5 || s.testState || s.phase = phaseMaint then .next s
  else if !agrees then .next (s.putOut d causeBoot)
  else
    let s := ((s.applyTo d s.appliedRecs).copyBoot d).seedLottery d
    let s := [0, 1, 2, 3].foldl (fun s c => s.showModes d c) s
    let s := (s.wr d Reg.BOOT_STAT_WORKER 0).wr d Reg.BOOT_STAT_PHASE phaseReady
    let s := (List.range 4).foldl (fun s c => s.setCle d c { sup := s.tb.released }) s
    .next (s.toSyncing d)

/-- REJOIN_TIMEOUT (R470): READY did not come within 500 ms. -/
def execRejoinTimeout (d : Die) (s : State) : Result :=
  .next (if s.dieState d = 5 then s.putOut d causeBoot else s)

/-! ## Spare banks (R471, R472) -/

/-- SPARE_BANK_COPY_DONE (R472): the spare takes the bank's place. -/
def execSpareBankCopyDone (d : Die) (r : Region) (s : State) : Result :=
  let i := r.toNat
  if s.bit d (Reg.MEM_SPARE_COPYING i) then
    let s := ((s.wr d (Reg.MEM_SPARE_COPYING i) 0).wr d (Reg.MEM_SPARE_USED i) 1).post 254
    .next (s.useSpare d (1 + i) (0x100 * i + s.rd d (Reg.MEM_SPARE_BANK i)))
  else .next s

/-- CE_WINDOW_END (R471): every MEM_BANK_CE of the die is zeroed. -/
def execCeWindowEnd (d : Die) (s : State) : Result :=
  .next ((List.range 32).foldl (fun s i => s.wr d (Reg.MEM_BANK_CE_COUNT (i / 16) (i % 16)) 0) s)

/-! ## The controlled stop and the log (R478 to R480) -/

/-- The LEAVE of the stop still waits in its queue, and fewer than 2 periods have passed since the stop began (R23, R385). -/
def State.awaitsLeave (s : State) : Bool :=
  s.nol.leaving && (match s.red.stopAt with
    | some t => decide (s.tb.ticks < t + 2 * s.io Reg.TB_PERIOD_CP)
    | none => false)

/-- STOP_HALT (R478): cores and CLEs halt, PHASE is STOPPED, and records not yet written are lost. The stop waits for the
departure of a Cell's LEAVE (R385). -/
def execStopHalt (s : State) : Result :=
  if s.red.stopAt.isNone ∨ s.red.stopped ∨ s.awaitsLeave then .next s else
  let s := [Die.d0, .d1].foldl (fun s d =>
    let s := (List.range 12).foldl (fun s c => s.setCore d c { s.core d c with mode := .halted }) s
    (List.range 4).foldl (fun s c => s.wr d (Reg.CLE_STAT_STATE c) cleStopped) s) s
  .next { s.setPhase phaseStopped with
    red := { s.red with stopped := true, logq := [] }, trip := { s.trip with stopSend := false } }

/-- The oldest trip record the log has not taken yet, where the ring still holds it. -/
def State.tripToCopy (s : State) : Option Nat :=
  if s.red.tripCopied < s.trip.seq then some (max s.red.tripCopied (s.trip.seq - 512)) else none

/-- LOG_RECORD_WRITE (R479, R480): the oldest event record, or else the oldest trip record not yet copied, is written to
flash. With no die in service the stop record alone is written (R478). Between t_v and the role change the records wait for the new
worker (R467). -/
def execLogRecordWrite (full : Bool) (s : State) : Result :=
  if s.red.takeover.isSome then .next s else
  match s.red.logq with
  | r :: rs =>
    let s := { s with red := { s.red with logq := rs } }
    let served : Bool := match s.worker with | some d => s.inService d | none => false
    .next (if s.boot.flashOk && (served || r.type = recStop) then
      if full then s.post 255 else s.logWrite (logBytes r) else s)
  | [] =>
    match s.worker, s.tripToCopy with
    | some d, some i =>
      let s := { s with red := { s.red with tripCopied := i + 1 } }
      .next (if s.boot.flashOk then if full then s.post 255 else s.logWrite (s.ramBytes d.toNat (tripRing + 32 * (i % 512)) 32) else s)
    | _, _ => .next s

end Sys2Proof.Machine
end

