-- ==== Sys2Proof/Machine/Subst.lean ====
section
/-! DEFINITION. The substitution of a cluster after its remap, and the move of a lost cluster's CLE program (R449, R475). -/

namespace Sys2Proof.Machine

/-- Every record of the applied copy that targets cluster `c`, in its bits within it, applied again to die `d` (R449). -/
def State.reapplyCluster (s : State) (d : Die) (c : Nat) : State :=
  let x := s.appliedRecs.foldl State.putRecord s
  (s.takeRanges x d (pairRanges clusterMem c c) (pairRanges clusterWords c c)).showModes d c

/-- The CLE program of cluster `c`, its loops and its state memory as the pricking gives them, at CLE `c'` (R475). -/
def State.moveProgram (s : State) (d : Die) (c c' : Nat) : State :=
  let x := s.appliedRecs.foldl State.putRecord State.reset
  let mem := [((0x30000000 + 0x10000 * c', 0x10000), 0x30000000 + 0x10000 * c)]
  let t := (s.takeRanges x d mem (pairRanges cleWords c c')).showModes d c'
  t.setCle d c' { firstNext := BitVec.allOnes 32, sup := t.tb.released }

/-- SUBST_REAPPLY_DONE (R449, R475): the re-application of the records of a substituted cluster, or of a moved CLE program.
A read-back that fails marks the spare faulty, and the cluster is declared faulty with none left; a move that fails
leaves no place for the program. -/
def execSubstReapplyDone (d : Die) (readBackOk : Bool) (s : State) : Result :=
  let a := s.adaptOf d
  match a.subst, a.moveCle with
  | some c, _ =>
    if readBackOk then .next (s.reapplyCluster d c)
    else
      let s := (s.setAdapt d { a with subst := none, substReady := false }).wr d Reg.PL_MAP_SUBST 0
      .next ((s.liftRequest d).declareCluster d c)
  | none, some (c, c') =>
    let s := s.setAdapt d { a with moveCle := none }
    .next (if readBackOk then (s.moveProgram d c c').liftRequest d else s.raiseGrade 4 causeFit)
  | none, none => .next s

/-- Words of a die copied from the other through the couching window. -/
def State.copyWords (s : State) (d : Die) (as : List Nat) : State :=
  as.foldl (fun t a => t.extWord d a (t.ram32 d.other.toNat a)) s

/-- Addresses of CLE `c`'s state memory, and of the couched words in cluster `c`'s SRAM. -/
def State.stateWords (s : State) (d : Die) (c : Nat) : List Nat :=
  (List.range 8192).map (fun w => 0x30008000 + 0x10000 * c + 4 * w)
    ++ (entryAddrs (s.couchEntries d)).filter (fun a => 0x10000000 + 0x40000 * c ≤ a && a < 0x10040000 + 0x40000 * c)

/-- SUBST_STATE_COPY_DONE (R449): the state comes from the other die where it is in service; the cluster restarts at the
next boundary. -/
def execSubstStateCopyDone (d : Die) (s : State) : Result :=
  match (s.adaptOf d).subst with
  | none => .next s
  | some c =>
    let s := if s.inService d.other then s.copyWords d (s.stateWords d.other c) else s
    .next (s.setAdapt d { s.adaptOf d with substReady := true })

/-- The posters a cluster holds enter its ready list while it has room. -/
def State.admitAll (s : State) (d : Die) (c : Nat) : Nat → State
  | 0 => s
  | n + 1 => if (s.bob d c).held = [] then s else State.admitAll (s.admitHeld d c) d c n

/-- The boundary that ends a substitution: the spare's cores wait for tasks, held events are posted in order, the CLE runs
with FIRST for every loop, SUBST is 0, the held trip request lifts, and event 252 (R449, R469). -/
def State.substResume (s : State) (d : Die) : State :=
  let a := s.adaptOf d
  match a.subst with
  | none => s
  | some c =>
    if !a.substReady then s else
    let s := (s.setAdapt d { a with subst := none, substReady := false }).wr d Reg.PL_MAP_SUBST 0
    let s := (List.range 3).foldl (fun s i =>
      s.setCore d (3 * c + i) { s.freshCore d (3 * c + i) with mode := .waiting, pc := 2 * s.rd d Reg.CORE_RESTART_VECTOR }) s
    let s := (s.admitAll d c 256).dispatch d c 3
    let s := s.setCle d c { sup := s.tb.released }
    let s := (s.loops d c).foldl (fun s n => s.wr d (Reg.LOOP_STAT_FIRST c n) 1) s
    (s.liftRequest d).post 252

end Sys2Proof.Machine
end

