-- ==== Sys2Proof/Machine/Boundary.lean ====
section
/-! DEFINITION. The period boundary and its guard: shadow sets, level-mode commands, dead times, snapshots, gate release,
re-arming, and what couching and substitution leave for the boundary (R65 to R69, R96, R190, R234, R284, R290 to R293,
R302, R303, R307, R308, R323, R324, R449, R462, R464). -/

namespace Sys2Proof.Machine

/-! ## The guard (R69, R461, R464) -/

/-- The set has the worker's commit alone, or the passive's alone, at the guard tick; the first makes the passive's
missing (R464). -/
def State.guardMissing (s : State) : Bool := ioSets.any s.passiveMissing

/-- COMMIT_GUARD_TICK (R69, R461, R464): the clock runs to the guard tick, and from now on no commit of the period is
accepted; a passive commit that has not come is missing, and couching that has not ended is late. -/
def execCommitGuardTick (couchBad : List Word) (s : State) : Result :=
  let s := s.runTo s.guardTick
  let s := { s with tb := { s.tb with guarded := true }
                    red := { s.red with pmissed := s.red.pmissed || s.guardMissing } }
  .next (s.couchLate couchBad)

/-! ## The timebase at a boundary (R65 to R67) -/

/-- The number of ticks by which a period may differ from CP (R66). -/
def periodSlack (cp : Nat) : Nat := ceilDiv cp 10000 + 1

/-- A stepped period of `n` ticks lasts less or more than R66 allows (R67); a new CP alone is no step (log entry 172). -/
def State.shortPeriod (s : State) (n : Nat) : Bool :=
  let cp := s.io Reg.TB_PERIOD_CP
  s.tb.stepped && (n + periodSlack cp < cp || cp + periodSlack cp < n)

/-- The boundary tick: the first at which the time value has reached the boundary's instant; its number, and SHORT. -/
def State.enterPeriod (s : State) : State :=
  let s := s.runToTime s.tb.nextB
  let k := s.tb.nextB / s.cpUnits % 2 ^ 32
  let old := s.io Reg.TB_PERIOD_NUM_K
  let s := if s.shortPeriod (s.tb.ticks - s.tb.bTick) then s.raiseIo Reg.TB_STAT_SHORT else s
  let s := (s.setIo Reg.TB_PERIOD_NUM_K k).anchorEpochs
  { s with tb := { s.tb with prevK := old, pTick := s.tb.bTick, bTick := s.tb.ticks, nextB := s.tb.nextB + s.cpUnits
                             guarded := false, stepped := false } }

/-! ## Shadow sets (R69, R464, R467) -/

/-- Set `n` takes effect. While a self-check or a takeover is under way, or before t_v + 2 µs, only a set on which the dies
agreed does (R464, R467). -/
def State.takesEffect (s : State) (n : Nat) : Bool :=
  s.applies n && (!(s.red.checking || s.red.takeover.isSome || decide (s.tb.bTick < s.red.newFrom)) || (s.setOf n).agreed)

/-- A picot set that no agreement has let act yet acts at the boundary (R464, R467). -/
def State.picotBoundary (s : State) (p : Nat) : State :=
  if s.takesEffect (setPicot p) && !(s.setOf (setPicot p)).done then s.picotTake p else s

/-- The staged copy becomes active, field by field (R188, R250). -/
def State.applySet (s : State) (n : Nat) : State :=
  (setFields n).foldl (fun s p => s.setIo p.2 (s.staged true p.1)) s

/-- The worker left set `n` uncommitted (R69): a late commit, the passive's commit alone, or an END that did not come in
time for a CLE's set (R244, R246). -/
def State.setMissed (s : State) (n : Nat) : Bool :=
  s.misses n || (match s.worker with
    | some d => (List.range 4).any (fun c => n = setOut c && s.runUncommitted d c)
    | none => false)

/-- What the misses of the period come to: MISS for each set, and the passive's count, which puts it OUT at PMISS_LIMIT
(R69, R464). -/
def State.passiveMiss (s : State) : State :=
  let w := s.worker
  match w with
  | none => s
  | some d =>
    if s.dieState d.other ≠ 1 then s
    else if s.red.pmissed || s.guardMissing then
      let n := s.io Reg.RED_DISC_STAT_PMISS + 1
      let s := s.setIo Reg.RED_DISC_STAT_PMISS n
      if s.io Reg.RED_CFG_PMISS_LIMIT ≤ n then s.putOut d.other causeLate else s
    else s.setIo Reg.RED_DISC_STAT_PMISS 0

/-! ## Level-mode commands (R284, R290, R291, R307, R308) -/

/-- The reference instant of a command change of channel `n` at a boundary, in sixteenths (R290, R324). -/
def State.boundaryRef (s : State) (n : Nat) : Nat :=
  if s.io (Reg.GEN_CH_CFG_MODE n) = 1 then 16 * s.io (Reg.GEN_CH_CFG_STAGGER n) else 0

/-- The command committed for channel `n`; code 0b11 without a full bridge is NOT_INSERTED (R284). -/
def State.levelCmd (s : State) (n k : Nat) : State :=
  let c := s.staged true (Reg.GEN_CMD_CMD n)
  let s := s.setGenCh n ((s.genCh n).each (fun x => { x with staged := c }))
  let bad : Bool := c = 3 && s.io (Reg.GEN_CH_CFG_FB n) = 0
  let s := if bad then s.raisePost (Reg.GEN_STAT_CMD_BAD n) n else s
  s.placeCmd n (if bad then 1 else c) s.tb.bTick (s.boundaryRef n) k

/-- A disable takes effect: the command is OFF from this boundary; a turn-on still pending goes ahead where it comes before the
falling edge, and is cut by it otherwise (R288, R308). The
dither index of a carrier channel is that of its cycle (R286). -/
def State.disableCh (s : State) (n k : Nat) : State :=
  let g := s.genCh n
  (s.setGenCh n { g with disabled := true, chg := [] }).placeCmd n 0
    s.tb.bTick (s.boundaryRef n) (if s.io (Reg.GEN_CH_CFG_MODE n) = 2 then g.maj.cyc else k)

/-- The bit of GEN_DIS that the boundary of the present tick takes (R293). -/
def State.disBefore (s : State) (n : Nat) : Bool :=
  match (s.genCh n).disWas with
  | some (t, b) => if t = s.tb.ticks then b else bitOf (s.io (Reg.GEN_DIS_DIS (n / 32))) (n % 32)
  | none => bitOf (s.io (Reg.GEN_DIS_DIS (n / 32))) (n % 32)

/-- Channel `n` at boundary `k`: disabling, re-enabling, or the staged command where its set takes effect. -/
def State.chBoundary (s : State) (cmds : Bool) (n k : Nat) : State :=
  if !s.inUse n then s else
  let s := s.settleTo n s.tb.bTick
  let g := s.genCh n
  let dis := s.disBefore n
  let asserted := s.chAsserted n
  let s := s.setGenCh n { g with mute := asserted || (g.disabled && !dis), disabled := dis }
  if dis && !g.disabled && !asserted then s.disableCh n k
  else if asserted || dis || g.disabled || g.faulty || !cmds || s.io (Reg.GEN_CH_CFG_MODE n) ≠ 1 then s
  else s.levelCmd n k

/-! ## Dead times (R293, R301 to R303) -/

/-- The dead time of channel `n` at boundary `k`: a committed value, which set 0x301 brings to every channel (R292), wins over the
loop's window. -/
def State.riseBoundary (s : State) (committed : Bool) (n k : Nat) : State :=
  if committed then
    let v := s.staged true (Reg.GEN_RISE_RISE n)
    if s.io (Reg.GEN_CH_CFG_ADAPT n) = 1 then
      let v := min (max v (16 * s.io (Reg.GEN_DT_BND_RISE_LO n))) (16 * s.io (Reg.GEN_DT_BND_RISE_HI n))
      (s.setRise n v).setGenCh n { s.genCh n with emax := none, lapsed := [] }
    else s.setRise n v
  else if s.inUse n && k % 2 ^ s.io Reg.GEN_ADAPT_DT_LOG2 = 0 then s.deadTime n
  else s

/-! ## Gate release and re-arming (R28, R96, R323, R324) -/

/-- The conditions of a gate release. -/
def State.releases (s : State) : Bool :=
  !s.tb.released && s.phase = phaseReady && s.ioBit Reg.TB_STAT_TIME_VALID && s.io Reg.SERVO_STAT_STATE = servoLocked
    && (s.isHub || s.io Reg.NOL_MEMB_STAT_STATE = 3) && !s.testState && s.red.stopAt.isNone && !s.power.shutdown

/-- The gate release boundary: the package source goes, groups with no other source re-arm and the others pass to their safe
action, every command stays OFF, the
pins leave their reset states (R32), and PHASE is RUN. -/
def State.releaseGates (s : State) (k : Nat) : State :=
  let s := { s with trip := { s.trip with package := false }, tb := { s.tb with released := true }
                    pins := { s.pins with live := true } }.setPhase phaseRun
  let s := (List.range 16).foldl (fun s g =>
    if s.io (Reg.TRIP_GRP_STAT_STATE g) = grpTripped && (s.tickSrcs g).all (· = 0x18E) then s.rearmGroup g k else s) s
  let s := (List.range 16).foldl (fun s g =>
    if s.io (Reg.TRIP_GRP_STAT_STATE g) = grpArmed then s else s.safeGroup g) s
  let s := [Die.d0, .d1].foldl (fun s d => (List.range 4).foldl (fun s c => s.cleRelease d c) (s.balRelease d)) s
  let s := (List.range 8).foldl State.drivePicot s
  let s := if s.io Reg.GEN_CAR_CFG_SYNC_OUT = 2 then s.setSyncOut s.pins.syncIn else s
  s.tripScan.showGrade

/-- Re-arming of group `g` at a boundary once its quiet time has reached HOLD (R323). -/
def State.rearmBoundary (k : Nat) (s : State) (g : Nat) : State :=
  let x := s.grp g
  if s.io (Reg.TRIP_GRP_STAT_STATE g) = grpHold && !x.busy && !s.sourceNow g
      && s.io (Reg.TRIP_GRP_CFG_HOLD g) * 500 ≤ s.tb.ticks - x.quiet then
    (s.rearmGroup g k).post (160 + g)
  else s

/-! ## A die at a boundary -/

/-- The loop modes committed for CLE `c` of die `d` take effect (R234). -/
def State.modeSets (s : State) (d : Die) (c : Nat) : State :=
  let n := dieSetKey d (setMode c)
  if (s.setOf n).staged then
    ((dieSetFields (setMode c)).foldl (fun s f => s.wr d f (tabGet 0 s.stagedW (fieldKey d f) ^^^ f.reset)) s).setSet n {}
  else s

/-- The control-law engines and the ladder engine of a die, and a substitution that is ready or a placement that is due (R234, R254,
R449, R475). -/
def State.dieBoundary (k : Nat) (s : State) (d : Die) : State :=
  if !s.inService d then s else
  let s := s.placeNow d
  let s := (List.range 4).foldl (fun s c => (s.modeSets d c).cleBoundary d c) s
  (s.cellBoundary d k).substResume d

/-! ## The boundary -/

/-- What an output block that no boundary applies had staged goes from its shadow copies: the values of a run take effect at the
boundary after it or never (R224). -/
def State.dropStaged (s : State) (n : Nat) : State :=
  let x := s.setOf n
  let s := if x.staged then s.restoreSet true n else s
  if x.pStaged then s.restoreSet false n else s

/-- Shadow sets, dead times and commands of boundary `k`: a new RISE_DLY is active for the changes of its own boundary
(R292, R301, R303). -/
def State.setsBoundary (s : State) (k : Nat) : State :=
  let missed := ioSets.filter s.setMissed
  let unmet := ([0, 1, 2, 3].map setOut).filter (fun n => !s.takesEffect n)
  let s := (s.channels.filter (fun n => s.io (Reg.GEN_CH_CFG_MODE n) = 2)).foldl
    (fun s n => s.setGenCh n { s.genCh n with dutyWas := s.dutyWord n }) s
  let cmds := s.takesEffect setCmd
  let rises := s.takesEffect Machine.setRise
  let s := missed.foldl (fun s _ => s.missSet) s
  let s := (setTrim :: [0, 1, 2, 3].map setOut).foldl (fun s n => if s.takesEffect n then s.applySet n else s) s
  let s := (List.range 128).foldl (fun s n => ((s.settleTo n (s.tb.bTick - 1)).riseBoundary rises n k).chBoundary cmds n k) s
  let s := (List.range 8).foldl State.picotBoundary s.passiveMiss
  let s := ioSets.foldl (fun s n => s.setSet n {}) (unmet.foldl State.dropStaged s)
  { s with red := { s.red with pmissed := false } }

/-- A SYNCING die that has had its full pass and one couching period becomes PASSIVE (R462). -/
def State.syncBoundary (s : State) : State :=
  [Die.d0, .d1].foldl (fun s d =>
    if s.dieState d = 2 && s.red.passDone && s.red.couched then
      let s := (s.setDieState d 1).setIo Reg.RED_DISC_STAT_PMISS 0
      { s with red := { s.red with passDone := false, couched := false } }
    else s) s

/-- PERIOD_BOUNDARY (R65), with the echo marks that the frames under way have shown before its tick, each by its channel and the ticks
it began before (R301); the Ethernet ports have sent what they could by then (R396, log entry 145). -/
def execPeriodBoundary (marks : List (Fin 128 × Nat)) (s : State) : Result :=
  if !(s.pins.porstN && s.power.railsOk) then .next s else
  let tk := s.tb.nextB
  let s := s.enterPeriod
  let s := (marks.foldl (fun s p => s.echoSeen p.1 (s.tb.bTick - p.2)) s).post 176
  let k := s.io Reg.TB_PERIOD_NUM_K
  let s := ((s.setsBoundary k).snapshot k).svBoundary k tk
  let s := [Die.d0, .d1].foldl (State.dieBoundary k) s
  let s := if s.releases then s.releaseGates k else (List.range 16).foldl (State.rearmBoundary k) s
  let s := (List.range 128).foldl State.tmrBoundary s
  .next ((List.range 4).foldl State.ethRun s.nolBoundary.syncBoundary)

end Sys2Proof.Machine
end

