-- ==== Sys2Proof/Machine/Maint.lean ====
section
/-! DEFINITION. The commands of the maintenance path (R117, R118, R402 to R408): a request joins the queue, and
MAINT_REQUEST_ANSWERED carries out the one at its head. -/

namespace Sys2Proof.Machine

/-- READ (R404, R406). -/
def execRead (h : MaintHeader) (addr : Word) (count : BitVec 16) (passive : Bool) (s : State) : Result :=
  .next (s.mntArrive h (.read addr.toNat count.toNat passive))

/-- READ_SIGNAL (R404). -/
def execReadSignal (h : MaintHeader) (index : BitVec 16) (s : State) : Result :=
  .next (s.mntArrive h (.readSignal index.toNat))

/-- IDENTITY (R404, R117). -/
def execIdentity (h : MaintHeader) (offset : Word) (count : BitVec 16) (s : State) : Result :=
  .next (s.mntArrive h (.identity offset.toNat count.toNat))

/-- ATTEST (R117, R118, R408): the request waits its turn, and the signing of its report starts when it is the next; while a
report is being signed the answer is BUSY, and nothing is queued. -/
def execAttest (h : MaintHeader) (nonce : BitVec 128) (s : State) : Result :=
  .next (s.mntArrive h (.attest nonce.toNat))

/-- ATTEST_REPORT_SIGNED (R118): the report and its signature are returned, and the request leaves the queue. -/
def execAttestReportSigned (full : Bool) (s : State) : Result :=
  match s.maint.signing with
  | none => .next s
  | some (port, mac, tag, bs) =>
    .next (ethFifo full s <| { s with maint := { s.maint with signing := none } }.popRequest.respond port mac
      (maintBytes opAttest tag mntOk (bs ++ Config.falconSign bs)))

/-- DELIVER_BEGIN (R407). -/
def execDeliverBegin (h : MaintHeader) (kind : Byte) (total : Word) (s : State) : Result :=
  .next (s.mntArrive h (.begin kind.toNat total.toNat))

/-- DELIVER_DATA (R407). -/
def execDeliverData (h : MaintHeader) (offset : Word) (bytes : List Byte) (s : State) : Result :=
  .next (s.mntArrive h (.data offset.toNat bytes))

/-- DELIVER_END (R407). -/
def execDeliverEnd (h : MaintHeader) (crc : Word) (readBack readError : Bool) (s : State) : Result :=
  .next (s.mntArrive h (.finish crc.toNat readBack readError))

/-- DELIVER_STAT (R404). -/
def execDeliverStat (h : MaintHeader) (s : State) : Result := .next (s.mntArrive h .stat)

/-- MAINT_REQUEST_ANSWERED (R60, R408). -/
def execMaintRequestAnswered (full fullFlash : Bool) (s : State) : Result :=
  .next (flashFifo fullFlash s (ethFifo full s s.answerHead))

/-- DELIVERY_TIMEOUT (R407): no request of the delivery for 10 s; one taken in that tick wins (R428). -/
def execDeliveryTimeout (request : Bool) (s : State) : Result :=
  match (if request then none else s.maint.deliv) with
  | none => .next s
  | some x => .next (s.deliverFails x mntTimeout)

/-- REWRITE_SECTOR_DONE (R114): one sector of the rewrite; after the last, REWRITE_END and the staging slot EMPTY. -/
def execRewriteSectorDone (full : Bool) (s : State) : Result :=
  match s.rewrite with
  | none => .next s
  | some r =>
    match r.todo with
    | [] => .next (flashFifo full s (s.rewriteEnd r))
    | i :: is =>
      let t := { s.rewriteSector r i with rewrite := some { r with todo := is } }
      .next (flashFifo full s (if is = [] then (t.rewriteEnd r) else t))

end Sys2Proof.Machine
end

