-- ==== Sys2Proof/Machine/Nolri.lean ====
section
/-! DEFINITION. The commands of the Nolri link (R360 to R392), the block order set (R320, R321), and the frames of
balancing (R260, R267). -/

namespace Sys2Proof.Machine

/-! ## Frames received -/

/-- The Cell takes a CYCLE that began to arrive `age` ago: its period number is checked and the servo gets its offset (R371,
R421, R424). -/
def State.takeCycle (s : State) (l : Nat) (h : NolHeader) (p : CyclePayload) (age : Nat) : State :=
  let t1 : Int := ts16 p.t1 + signed 64 p.corr.toNat
  let s := if h.period.toNat = s.io Reg.TB_PERIOD_NUM_K then s else s.raisePost (Reg.NOL_LINK_FLAG_PERIOD_SLIP l) 204
  s.servoCycle (t1 + age) (p.flags.getLsbD 0) (s.io (Reg.NOL_LINK_MDLY_DLY l) * 2 ^ 8)

/-- CYCLE (R369, R371): forwarded, its residence runs from the arrival of its SOF. -/
def execCycle (l : Fin 32) (h : NolHeader) (p : CyclePayload) (age : Nat) (s : State) : Result :=
  let r := s.nolReceive l typeCycle h true (cycleBytes { p with corr := p.corr + BitVec.ofNat 64 age })
  .next (if r.2 && !r.1.isHub then r.1.takeCycle l h p age else r.1)

/-- REF (R368): the payload is written to NOL_REF_RX of the arriving link. -/
def execRef (l : Fin 32) (h : NolHeader) (ws : List Word) (s : State) : Result :=
  let r := s.nolReceive l typeRef h (1 ≤ ws.length && ws.length ≤ 64) (ws.flatMap (fun w => bytesOf 4 w.toNat))
  .next (if r.2 then
    (ws.zip (List.range 64)).foldl (fun s e => s.setIo (Reg.NOL_REF_RX_Y l e.2) e.1.toNat) r.1 else r.1)

/-- THRESHOLD (R266, R267): each die's ladder engine takes it. -/
def execThreshold (l : Fin 32) (h : NolHeader) (p : ThresholdPayload) (s : State) : Result :=
  let r := s.nolReceive l typeThreshold h true (thresholdBytes p)
  .next (if r.2 then (r.1.cellThreshold .d0 p).cellThreshold .d1 p else r.1)

/-- LADDER (R260, R272): each die's ladder engine takes it. -/
def execLadder (l : Fin 32) (h : NolHeader) (p : LadderPayload) (s : State) : Result :=
  let r := s.nolReceive l typeLadder h (p.keys.length = 128) (ladderBytes p)
  .next (if r.2 && r.1.isHub then (r.1.hubLadder .d0 h.src.toNat p).hubLadder .d1 h.src.toNat p else r.1)

/-- Address of member `j`'s record in region A SRAM (R408). -/
def memberRecord (j : Nat) : Nat := 0x200F0000 + 0x80 * j

/-- Bytes of a member's record written in every die in service (R408). -/
def State.writeMember (s : State) (j off : Nat) (bs : List Byte) : State :=
  [Die.d0, Die.d1].foldl (fun s d => if s.lost d then s else s.setRamBytes d.toNat (memberRecord j + off) bs) s

/-- A peer's announcement that a position will sleep: seen twice in a row, the lane may lose its signal (R380). -/
def State.takeSleep (s : State) (l sleep : Nat) : State :=
  (s.positions l).foldl (fun s b =>
    let x := s.link l
    if bitOf sleep (tabGet (b, 0, 0) x.claims b).1 then
      let n := tabGet 0 x.sleepSeen b + 1
      let s := s.setLink l { x with sleepSeen := tabSet 0 x.sleepSeen b n }
      if 2 ≤ n then s.setIo (Reg.LANE_CTL_PEER_SLEEP_OK (s.laneAt l b)) 1 else s
    else s.setLink l { x with sleepSeen := tabSet 0 x.sleepSeen b 0 }) s

/-- What every STATUS that passes its check tells of its link: the link delay, the peer's credit, sleeps, and on a PEER
link the peer's CP (R371, R376, R380, R387). -/
def State.takeStatus (s : State) (l : Nat) (p : StatusPayload) : State :=
  let x := s.link l
  let t1 := ts16 p.echo
  let t4 := s.now16
  let m := (t4 - t1 - signed 64 p.turn.toNat) / 2
  let s := if x.sentTx.contains t1 then s.setIo (Reg.NOL_LINK_MDLY_DLY l) ((max m 0).toNat / 2 ^ 8) else s
  let cp := p.cpHi.toNat % 8 * 2 ^ 16 + p.cpLo.toNat
  let ok : Bool := cp = s.io Reg.TB_PERIOD_CP
  let peer : Bool := s.io (Reg.NOL_LINK_CFG_DIR l) = dirPeer
  let x := { x with echo := ts16 p.txTime, echoAt := t4.toNat, credit := p.bulkCredit.toNat, creditAt := ts16 p.txTime,
                    stGot := true, cpOk := ok, bulkSent := x.bulkSent.filter (fun e => decide (ts16 p.txTime ≤ e.1)) }
  let s := (s.setLink l x).takeSleep l p.sleep.toNat
  if peer && !ok then s.raisePost (Reg.NOL_LINK_FLAG_PEER_CP l) 204 else s

/-- STATUS (R370, R371, R387, R408). -/
def execStatus (l : Fin 32) (h : NolHeader) (p : StatusPayload) (s : State) : Result :=
  let r := s.nolReceive l typeStatus h true (statusBytes p)
  let passed := s.nolPasses l typeStatus h (statusBytes p).length
  let s := if passed then r.1.takeStatus l p else r.1
  if r.2 && s.isHub then
    match s.memberOf h.src.toNat with
    | some j => .next ((s.writeMember j 0 (statusBytes p)).writeMember j 0x30 (bytesOf 4 (s.io Reg.TB_PERIOD_NUM_K)))
    | none => .next s
  else .next s

/-- The flag bitmaps of a HEALTH frame: bit n of 16 bytes for channel n. -/
def flagMap (es : List HealthEntry) (b : Nat) : Nat :=
  es.foldl (fun m e => if e.flags.getLsbD b then withBit m e.channel.toNat true else m) 0

/-- HEALTH (R367, R408): a further frame of one evaluation adds to the member's record, another replaces it. -/
def execHealth (l : Fin 32) (h : NolHeader) (grade : Byte) (es : List HealthEntry) (s : State) : Result :=
  let r := s.nolReceive l typeHealth h (es.length ≤ 24) (healthBytes grade es)
  let s := r.1
  match (if r.2 && s.isHub then s.memberOf h.src.toNat else none) with
  | none => .next s
  | some j =>
    let more : Bool := tabGet 0 s.nol.healthPer j = h.period.toNat + 1
    let old := fun off => if more then natOf (s.ramBytes (s.worker.getD .d0).toNat (memberRecord j + off) 16) else 0
    let c := Nat.lor (old 0x40) (flagMap es 0)
    let e := Nat.lor (old 0x50) (flagMap es 1)
    let s := { s with nol := { s.nol with healthPer := tabSet 0 s.nol.healthPer j (h.period.toNat + 1) } }
    .next ((s.writeMember j 0x40 (bytesOf 16 c)).writeMember j 0x50 (bytesOf 16 e))

/-- BULK (R367): the payload is the firmware's own. -/
def execBulk (l : Fin 32) (h : NolHeader) (bytes : List Byte) (s : State) : Result :=
  .next (s.nolReceive l typeBulk h (bytes.length ≤ 2048) bytes).1

/-! ## Membership at the Hub (R384, R386, R388) -/

/-- The first check a JOIN fails, 0 where it passes them all (R384). -/
def State.joinReason (s : State) (h : NolHeader) (p : JoinPayload) : Nat :=
  let members := (List.range 32).filter (fun j => s.io (Reg.NOL_MEMBER0_VALID j) = 1)
  let chs := (members.map (fun j => s.io (Reg.NOL_MEMBER0_CH j))).sum
  if bcastOf h || h.dst.toNat ≠ s.nodeId then 1
  else if p.cp.toNat ≠ s.io Reg.TB_PERIOD_CP then 2
  else if h.src.toNat = s.nodeId || members.any (fun j => s.io (Reg.NOL_MEMBER0_NODE j) = h.src.toNat) then 3
  else if s.sys Reg.SYS_TOPO_ARMS ≤ p.arm.toNat || s.sys (Reg.BAL_ARM_CFG_EN p.arm.toNat) = 0 then 4
  else if s.sys Reg.SYS_TOPO_CELLS ≤ members.length || s.sys Reg.SYS_TOPO_SM_COUNT < chs + p.ch.toNat then 5
  else 0

/-- The member of a UID. -/
def State.memberUid (s : State) (uid : Nat) : Option Nat :=
  (List.range 32).find? (fun j => s.io (Reg.NOL_MEMBER0_VALID j) = 1
    && s.io (Reg.NOL_MEMBER2_UID j) * 2 ^ 32 + s.io (Reg.NOL_MEMBER1_UID j) = uid)

/-- A Cell enters NOL_MEMBER; its FROM follows at the departure of the ACCEPT (R384). -/
def State.enterMember (s : State) (node : Nat) (p : JoinPayload) : State :=
  match (List.range 32).find? (fun j => s.io (Reg.NOL_MEMBER0_VALID j) = 0) with
  | none => s
  | some j =>
    let s := ((s.setIo (Reg.NOL_MEMBER0_VALID j) 1).setIo (Reg.NOL_MEMBER0_ARM j) p.arm.toNat).setIo (Reg.NOL_MEMBER0_CH j) p.ch.toNat
    let s := (s.setIo (Reg.NOL_MEMBER0_NODE j) node).setIo (Reg.NOL_MEMBER1_UID j) p.uid.toNat
    let s := s.setIo (Reg.NOL_MEMBER2_UID j) (p.uid.toNat / 2 ^ 32)
    s.setIo Reg.NOL_MEMB_STAT_MEMBERS (s.io Reg.NOL_MEMB_STAT_MEMBERS + 1)

/-- A Hub decides a JOIN (R384, R388). -/
def State.decideJoin (s : State) (l : Nat) (h : NolHeader) (p : JoinPayload) : State :=
  if s.nol.leftNow.contains p.uid.toNat then s else
  let s := match s.memberUid p.uid.toNat with
    | some j => (s.removeMember j).raiseIo Reg.NOL_MEMB_STAT_REJOIN
    | none => s
  let why := s.joinReason h p
  let node := h.src.toNat
  if why = 0 then
    ((s.enterMember node p).learnRoute node l).post 200 |>.queueMemb l
      (s.ownFrame typeAccept false node (acceptBytes p.uid.toNat 0))
  else
    let s := if why = 3 then s.raisePost Reg.NOL_MEMB_STAT_ID_CONFLICT 204 else s
    s.queueMemb l (s.ownFrame typeRefuse false node (reasonBytes p.uid.toNat why))

/-- A JOIN is put before the first one of a greater UID. -/
def insertJoin (a : JoinArrival) : List JoinArrival → List JoinArrival
  | [] => [a]
  | b :: bs => if a.p.uid.toNat < b.p.uid.toNat then a :: b :: bs else b :: insertJoin a bs

/-- JOINs arrive; those this device takes are kept in ascending order of UID (R384). -/
def State.receiveJoins (s : State) : List JoinArrival → List JoinArrival → State × List JoinArrival
  | [], taken => (s, taken)
  | a :: as, taken =>
    let r := s.nolReceive a.l typeJoin a.h true (joinBytes a.p)
    State.receiveJoins r.1 as (if r.2 then insertJoin a taken else taken)

/-- JOIN (R384): a Hub decides it, with the others of its tick in ascending order of UID; a Cell forwards it. -/
def execJoin (l : Fin 32) (h : NolHeader) (p : JoinPayload) (others : List JoinArrival) (s : State) : Result :=
  let r := s.receiveJoins (⟨l, h, p⟩ :: others) []
  .next (if r.1.isHub then r.2.foldl (fun s a => s.decideJoin a.l a.h a.p) r.1 else r.1)

/-! ## Membership at the Cell (R385) -/

def membDetached : Nat := 0
def membJoining : Nat := 1
def membRefused : Nat := 2
def membAccepted : Nat := 3
def membLeaving : Nat := 4

def State.memb (s : State) : Nat := s.io Reg.NOL_MEMB_STAT_STATE

/-- ACCEPT (R385): the Cell it names, in JOINING, is accepted. -/
def execAccept (l : Fin 32) (h : NolHeader) (uid : BitVec 64) (fromPeriod : Word) (s : State) : Result :=
  let r := s.nolReceive l typeAccept h true (acceptBytes uid.toNat fromPeriod.toNat)
  let s := r.1
  .next (if r.2 && !s.isHub && uid.toNat = s.uid && s.memb = membJoining then
    ((s.setIo Reg.NOL_MEMB_STAT_STATE membAccepted).setIo Reg.NOL_MEMB_FROM_FROM fromPeriod.toNat).post 200 else s)

/-- REFUSE (R385). -/
def execRefuse (l : Fin 32) (h : NolHeader) (uid : BitVec 64) (reason : Byte) (s : State) : Result :=
  let r := s.nolReceive l typeRefuse h true (reasonBytes uid.toNat reason.toNat)
  let s := r.1
  .next (if r.2 && !s.isHub && uid.toNat = s.uid && s.memb = membJoining then
    ((s.setIo Reg.NOL_MEMB_STAT_STATE membRefused).setIo Reg.NOL_MEMB_STAT_REASON reason.toNat).post 200 else s)

/-- A Cell leaves ACCEPTED: a Nolri source of its servo is lost with it (R385, R423). -/
def State.detach (s : State) : State :=
  let s := (s.setIo Reg.NOL_MEMB_STAT_STATE membDetached).post 200
  if s.servoSource = 1 then s.servoLost else s

/-- LEAVE (R385, R386, R388): a member leaves its Hub; a Cell is left by its Hub. -/
def execLeave (l : Fin 32) (h : NolHeader) (uid : BitVec 64) (reason : Byte) (s : State) : Result :=
  let r := s.nolReceive l typeLeave h true (reasonBytes uid.toNat reason.toNat)
  let s := r.1
  if !r.2 then .next s
  else if s.isHub then
    let s := { s with nol := { s.nol with leftNow := uid.toNat :: s.nol.leftNow } }
    match s.memberUid uid.toNat with
    | some j => .next (s.removeMember j)
    | none => .next s
  else .next (if h.src.toNat = s.sys Reg.SYS_NODE_PARENT ∧ s.memb = membAccepted then s.detach else s)

/-- NOLRI_FRAME_BAD (R367). -/
def execNolriFrameBad (l : Fin 32) (full : Bool) (s : State) : Result :=
  .next (if full then (s.nolBad l).post 255 else s.nolBad l)

/-- A JOIN joins the queue of the UP link (R383, R384). -/
def State.sendJoin (s : State) : State :=
  let p : JoinPayload := { uid := BitVec.ofNat 64 s.uid, cp := BitVec.ofNat 32 (s.io Reg.TB_PERIOD_CP), arm := BitVec.ofNat 8 (s.sys Reg.SYS_NODE_ARM), ch := BitVec.ofNat 8 (s.sys Reg.SYS_TOPO_SM_COUNT), grade := BitVec.ofNat 8 (s.io Reg.RED_GRADE_GRADE), prickSeq := BitVec.ofNat 32 (s.sys Reg.BOOT_STAT_SEQ_SEQ) }
  match s.linksOf dirUp with
  | l :: _ => s.queueMemb l (s.ownFrame typeJoin false (s.sys Reg.SYS_NODE_PARENT) (joinBytes p))
  | [] => s

/-- The UP link carries frames: FULL, DEGRADED or REDUCED. -/
def State.upLinkServes (s : State) : Bool :=
  match s.linksOf dirUp with
  | l :: _ => 1 ≤ s.io (Reg.NOL_LINK_STAT_STATE l) && s.io (Reg.NOL_LINK_STAT_STATE l) ≤ 3
  | [] => false

/-- JOIN_START (R385): PHASE is MEMBERSHIP or later and the UP link carries frames. -/
def execJoinStart (s : State) : Result :=
  let phase : Bool := decide (phaseMembership ≤ s.phase) && decide (s.phase ≤ phaseRun)
  .next (if !s.isHub && s.memb = membDetached && phase && s.upLinkServes then
    (s.setIo Reg.NOL_MEMB_STAT_STATE membJoining).sendJoin else s)

/-- JOIN_RETRY (R385): 1.0 ms after the last JOIN. -/
def execJoinRetry (s : State) : Result := .next (if !s.isHub && s.memb = membJoining then s.sendJoin else s)

/-- REFUSED_RETRY (R385): 1.0 s after the REFUSE. -/
def execRefusedRetry (s : State) : Result :=
  .next (if !s.isHub && s.memb = membRefused then (s.setIo Reg.NOL_MEMB_STAT_STATE membJoining).sendJoin else s)

/-- MEMBERSHIP_TIMEOUT (R385). -/
def execMembershipTimeout (s : State) : Result :=
  .next (if !s.isHub && s.memb = membAccepted then (s.raiseIo Reg.NOL_MEMB_STAT_MEMB_LOST).detach else s)

/-- MEMBER_TIMEOUT (R386): a frame from the Cell in the tick in which its TIMEOUT ends counts, and the member stays (R388). -/
def execMemberTimeout (j : Fin 32) (frame : Bool) (s : State) : Result :=
  .next (if s.isHub && !frame && s.io (Reg.NOL_MEMBER0_VALID j) = 1 then
    (s.raiseIo Reg.NOL_MEMB_STAT_MEMB_TIMEOUT).removeMember j else s)

/-- ROUTE_EXPIRY (R362). -/
def execRouteExpiry (j : Fin 32) (s : State) : Result :=
  let s := ((s.setIo (Reg.NOL_ROUTE_VALID j) 0).setIo (Reg.NOL_ROUTE_LINK j) 0).setIo (Reg.NOL_ROUTE_NODE j) 0
  .next { s with nol := { s.nol with routeOrder := s.nol.routeOrder.filter (· ≠ j.val) } }

/-! ## Block order sets and markers -/

/-- Lane `k` recognises block order sets: a Nolri lane aligned in PHASE 3, UP, or HALF with receive in service (R349). -/
def State.seesBos (s : State) (k : Nat) : Bool :=
  s.io (Reg.LANE_CFG_USE k) = 1
    && (s.rxServes k || (s.laneState k = laneTrain && s.io (Reg.LANE_STAT_PHASE k) = phaseHandshake))

/-- BLOCK_ORDER_SET (R318, R320, R321, R364): counted, forwarded on every other lane of TRIP_BOS_FWD, and a trip source
from now on. -/
def execBlockOrderSet (k : Fin 32) (s : State) : Result :=
  if !s.seesBos k then .next s
  else
    let s := s.countIo Reg.TRIP_BOS_RX_COUNT Reg.TRIP_CNT_SAT_BOS_SAT
    let s := s.sendSets (withBit (s.io Reg.TRIP_BOS_FWD_LANES) k false) true
    .next { s with trip := { s.trip with bos := true } }.tripScan

/-- The last markers of the other lanes of the bond: those that receive in service and are not kept out. -/
def State.markPeers (s : State) (l b : Nat) : List (Nat × Nat × Nat) :=
  ((s.positions l).filter (fun c => c ≠ b && s.rxServes (s.laneAt l c) && !(s.link l).keptOut.getLsbD c)).filterMap
    (fun c => ((s.link l).claims.find? (fun e => e.1 = c)).map (·.2))

/-- The lowest position of a link that receives in service. -/
def State.lowestRx (s : State) (l : Nat) : Option Nat := (s.positions l).find? (fun b => bitOf (s.io (Reg.NOL_LINK_STAT_RX_SET l)) b)

/-- BOND_MARKER (R380, R381, R389): a lane whose skew, node, position or set size does not fit is kept out of the bond, and so
is a lane whose peer is not PEER where that is checked (log entry 167). Set sizes are compared with the lanes' last markers, but
for those of the count before or after, which stand for another dealing set of the same sender; while all the others are such, a
lane that is kept out stays so. -/
def execBondMarker (k : Fin 32) (a b : Byte) (skew : Nat) (s : State) : Result :=
  match (if s.rxServes k then s.linksOn k else []) with
  | [] => .next s
  | l :: _ =>
    let pos := ((s.positions l).find? (fun c => s.laneAt l c = k.val)).getD 0
    let claim := a.toNat / 64
    let size := a.toNat / 16 % 4
    let others := s.markPeers l pos
    let near := fun c => (c + 1) % 256 = b.toNat || (b.toNat + 1) % 256 = c
    let same := others.filter (fun e => !near e.2.2)
    let wrongNode : Bool := match s.lowestRx l with
      | some c => s.io (Reg.LANE_PEER_NODE (s.laneAt l c)) ≠ s.io (Reg.LANE_PEER_NODE k)
      | none => false
    let wrongPeer : Bool := s.io (Reg.NOL_LINK_CFG_PEER_ANY l) = 0 && s.io (Reg.LANE_PEER_NODE k) ≠ s.io (Reg.NOL_LINK_CFG_PEER l)
    let wiring : Bool := wrongNode || wrongPeer || others.any (fun e => e.1 = claim) || same.any (fun e => e.2.1 ≠ size)
    let late : Bool := decide (32 < skew)
    let x := s.link l
    let stays : Bool := x.keptOut.getLsbD pos && same.isEmpty && !others.isEmpty
    let out := wiring || late || stays
    let x := { x with claims := tabSet (pos, 0, 0) x.claims pos (claim, size, b.toNat), keptOut := setBit x.keptOut pos out }
    let x := if out then x else { x with peerRx := BitVec.ofNat 4 (a.toNat % 16) }
    let s := s.setLink l x
    let s := if wiring then s.raisePost (Reg.NOL_LINK_FLAG_WIRING l) 204 else s
    let s := if late then s.raisePost (Reg.NOL_LINK_FLAG_SKEW l) 204 else s
    .next (s.relink l)

/-- MARKER_DUE (R363, R380, R388): markers replace IDLE on every lane of the dealing set, behind a frame in progress. -/
def execMarkerDue (l : Fin 32) (s : State) : Result :=
  .next (if s.io (Reg.NOL_LINK_CFG_EN l) = 0 then s else s.sendMarkers l)

/-! ## Sending -/

/-- Frames sent from `s` to `t` through the FIFO of the lanes: found full by an internal fault, it loses them, and event 255 is
posted (R60). -/
def txFifo (full : Bool) (s t : State) : State :=
  if full && decide (s.out.length < t.out.length) then { t with out := s.out }.post 255 else t

/-- The START tick of transmit slot `e` of link `l` in form `f` (R368, R374). -/
def State.slotStart (s : State) (l f e : Nat) : State :=
  let s := s.setLink l { s.link l with slotAt := s.psNow }
  let type := s.io (Reg.NOL_SCHED0_TYPE l f e)
  let node := s.io (Reg.NOL_SCHED1_NODE l f e)
  let bcast : Bool := s.ioBit (Reg.NOL_SCHED1_BCAST l f e)
  if type = typeRef then
    if s.io (Reg.NOL_LINK_STAT_STATE l) = linkPending then s
    else s.sendSlot l (s.refFrame bcast node (s.io (Reg.NOL_SCHED1_LEN_MAX l f e)) (s.io (Reg.NOL_SCHED2_CLE l f e)) (s.io (Reg.NOL_SCHED2_WORD l f e)))
  else if type = typeCycle && s.isHub then s.sendSlot l (s.cycleFrame l)
  else s.sendQueued l type node bcast

/-- SLOT_START (R66, R368, R372, R374): the START tick of a transmit slot of the form in force. Nothing leaves a link whose
dealing set is empty (R382). -/
def execSlotStart (l e : Fin 32) (full : Bool) (s : State) : Result :=
  let f := s.io (Reg.NOL_LINK_STAT_FORM l)
  let start := s.io (Reg.NOL_SCHED0_START l f e)
  if s.io (Reg.NOL_LINK_CFG_EN l) = 0 ∨ s.io (Reg.NOL_LINK_STAT_STATE l) = linkDown ∨ s.io (Reg.NOL_LINK_STAT_TX_SET l) = 0
      ∨ s.io (Reg.NOL_SCHED0_EN l f e) = 0 ∨ s.io (Reg.NOL_SCHED0_RX l f e) = 1 ∨ s.inPeriod start = false then .next s
  else
    let s := s.runTo (s.tb.bTick + start)
    .next (txFifo full s (s.slotStart l f e))

/-- An ACCEPT departs: FROM is the Hub's period number plus 2, and the Cell's ladders count from then (R384). -/
def State.departAccept (s : State) (f : OutFrame) : State × OutFrame :=
  let k := (s.io Reg.TB_PERIOD_NUM_K + 2) % 2 ^ 32
  let uid := field f.payload 0 8
  let f := { f with payload := acceptBytes uid k }
  match (if s.isHub then s.memberUid uid else none) with
  | none => (s, f)
  | some j =>
    let m : HubMem := { arm := s.io (Reg.NOL_MEMBER0_ARM j), from_ := k }
    let s := { s with nol := { s.nol with memberFrom := tabSet 0 s.nol.memberFrom j k } }
    ((s.setHubMember .d0 f.dst (some m)).setHubMember .d1 f.dst (some m), f)

/-- The Cell's own LEAVE has departed: its stop waits no longer (R385). -/
def State.leaveGone (s : State) (f : OutFrame) : State :=
  if f.type = typeLeave ∧ f.hops = 0 then { s with nol := { s.nol with leaving := false } } else s

/-- The next open frame of a link in the order membership, STATUS, HEALTH leaves (R370, R375). -/
def State.sendOpen (s : State) (l sleep : Nat) : State :=
  let x := s.link l
  match x.membQ, x.statusDue, x.statusQ, x.healthQ with
  | f :: fs, _, _, _ =>
    let s := (s.setLink l { x with membQ := fs }).leaveGone f
    let r := if f.type = typeAccept ∧ f.hops = 0 then s.departAccept f else (s, f)
    r.1.sendFrame l r.2
  | [], true, _, _ =>
    let dst := if s.io (Reg.NOL_LINK_CFG_DIR l) = dirUp then s.sys Reg.SYS_NODE_PARENT else s.io (Reg.NOL_LINK_STAT_PEER_NODE l)
    let bcast : Bool := s.io (Reg.NOL_LINK_CFG_DIR l) = dirDown
    (s.setLink l { x with statusDue := false }).sendStatus l (s.ownFrame typeStatus bcast dst (List.replicate 38 0 ++ s.statusTail)) sleep
  | [], false, f :: fs, _ => (s.setLink l { x with statusQ := fs }).sendStatus l f sleep
  | [], false, [], f :: fs => (s.setLink l { x with healthQ := fs }).sendFrame l f
  | [], false, [], [] => s

/-- Payload bytes of the next open frame (R375). -/
def State.openLen (s : State) (l : Nat) : Nat :=
  let x := s.link l
  match x.membQ, x.statusDue, x.statusQ, x.healthQ with
  | f :: _, _, _, _ => f.payload.length
  | [], false, [], f :: _ => f.payload.length
  | _, _, _, _ => 48

/-- START ticks of the transmit slots of the form in force (R372). -/
def State.txStarts (s : State) (l : Nat) : List Nat :=
  let f := s.io (Reg.NOL_LINK_STAT_FORM l)
  ((List.range 32).filter (fun e => s.io (Reg.NOL_SCHED0_EN l f e) = 1 && s.io (Reg.NOL_SCHED0_RX l f e) = 0)).map
    (fun e => s.io (Reg.NOL_SCHED0_START l f e))

/-- A frame of `len` payload bytes may start now, or behind the frame in progress: in this period, with its gap ending before the
START of the next transmit slot, in this period or the next one. A START that comes while the frame in progress is sent goes
first; one of this tick has been served or is still to come, and one past the period's last tick is not reached (R66, R374, R375). -/
def State.openFits (s : State) (l len : Nat) : Bool :=
  let t := s.linkFree l
  let b := s.tickAt s.tb.nextB
  let xs := s.txStarts l
  let starts := (xs.filter s.inPeriod).map (fun x => 2000 * (s.tb.bTick + x)) ++ xs.map (fun x => 2000 * (b + x))
  s.io (Reg.NOL_LINK_CFG_EN l) = 1 && s.io (Reg.NOL_LINK_STAT_STATE l) ≠ linkDown && s.io (Reg.NOL_LINK_STAT_TX_SET l) ≠ 0
    && t < 2000 * b && starts.all (fun x => x < s.psNow || (x = s.psNow && x = (s.link l).slotAt) || t + s.linkPs l len < x)

/-- OPEN_FRAME_SEND (R375): the frame leaves, or waits for the next slot. -/
def execOpenFrameSend (l : Fin 32) (sleep : BitVec 4) (full : Bool) (s : State) : Result :=
  .next (if s.openFits l (s.openLen l) then txFifo full (s.toLinkFree l) ((s.toLinkFree l).sendOpen l sleep.toNat) else s)

/-- BULK_FRAME_SEND (R375, R376): the credit of the last STATUS, less the frames sent since it left the peer, covers the frame
rounded up to 64 bytes. -/
def execBulkFrameSend (l : Fin 32) (full : Bool) (s : State) : Result :=
  let x := s.link l
  match x.bulkQ with
  | [] => .next s
  | f :: fs =>
    let need := frameUnits f.payload.length * 64
    let used := (x.bulkSent.map (·.2)).sum
    if s.openFits l f.payload.length ∧ used + need ≤ x.credit then
      let s := s.toLinkFree l
      .next (txFifo full s ((s.setLink l { x with bulkQ := fs, bulkSent := (s.now16.toNat, need) :: x.bulkSent }).sendFrame l f))
    else .next s

end Sys2Proof.Machine
end

