-- ==== Sys2Proof/Machine/Pricking.lean ====
section
/-! DEFINITION. Applying a pricking copy (R88 to R92, R185, R306, R327, R338, R443, R485). -/

namespace Sys2Proof.Machine

/-- Checks 0x0C to 0x12 on a copy: its staging image, or result and FAIL_OFFSET (R89, R485). The schema is the running
firmware's. -/
def State.checkCopy (s : State) (c : Nat) : Except (Nat × Nat) Stage :=
  let base := copyBase c
  let h := s.flashBytes base 64
  let len := field h 0x14 4
  let fw := s.flashBytes (imageBase 1 (s.rd .d0 Reg.BOOT_STAT_FW_SLOT)) 64
  let slot := if s.bit .d0 Reg.SEC_FUSE_CFG_PRICK_SIGN then some (field (s.flashBytes (base + len) 1) 0 1) else none
  if field h 0x0E 2 ≠ field fw 0x1A 2 then .error (0x0C, 0x0E)
  else if field fw 0x18 2 < field h 0x0C 2 then .error (0x0C, 0x0C)
  else
    match recordCheck (s.flashBytes base len) len slot with
    | .error off => .error (0x0D, off)
    | .ok recs =>
      let x := s.stage (field h 0x10 1 = 1) recs
      match x.semantic with
      | some r => .error r
      | none => .ok x

/-- A loadable field takes its value; a test that LANE_TEST selects is taken or refused as a write of it is (R354, R355). -/
def State.loadField (s : State) (f : Field) (v : Nat) : State :=
  let k := (f.addr - 0x40600000) / 0x40
  if f = Reg.LANE_TEST_LOOP k then s.loopWrite k v
  else if f = Reg.LANE_TEST_PRBS k then (if s.testAllowed k then s.prbsWrite k v else s)
  else s.putField f v

/-- The loadable fields of a word take the values of the image. -/
def Stage.copyWord (x : Stage) (s : State) (a : Nat) : State :=
  ((Reg.fieldsAt a).getD []).foldl (fun s f => if f.acc.loadable then s.loadField f (x.v f) else s) s

/-- Step 1 of R91: what the records wrote, at the values of the image. -/
def Stage.write (x : Stage) (s : State) : State :=
  x.recs.foldl (fun s r => if r.type = recField then x.copyWord s (field r.body 0 4) else s.putRecord r) s

/-- Step 3 of R91: one commit of every shadow set, by which its fields' pricking values become active; the active command
of a channel whose group is asserted stays OFF (R291, R307). -/
def State.commitAll (s : State) : State :=
  let s := (ioSets.filter (fun n => n < 0x400)).foldl (fun s n =>
    (setFields n).foldl (fun s p => s.setIo p.2 (s.rdSh .d0 p.1)) s) s
  let s := (List.range 128).foldl (fun s n =>
    let s := (if s.chAsserted n then s.setIo (Reg.GEN_CMD_ACT n) 0 else s).setRise n (s.io (Reg.GEN_RISE_ACT_RISE n))
    let c := s.io (Reg.GEN_CMD_ACT n)
    s.setGenCh n ((s.genCh n).each (fun x => { x with cmd := c, staged := c }))) s
  let s := (List.range 144).foldl (fun s i => s.showLimit i) s
  let s := (List.range 8).foldl (fun s p => (s.stageSet true (setPicot p)).picotTake p) s
  [Die.d0, .d1].foldl (fun s d =>
    let s := (setTickets :: [0, 1, 2, 3].map setMode).foldl (fun s n =>
      (dieSetFields n).foldl (fun s f => s.wr d f (s.rdSh d f)) s) s
    [0, 1, 2, 3].foldl (fun s c => s.showModes d c) s) s

/-- The first copy of a list that passes its checks and reads back as written, with its image; bit `n` of `faults` says
that the `n`-th copy written does not, which shows FAIL_OFFSET 0 (R88, R91, log entry 135). -/
def State.tryCopies (faults : BitVec 2) : State → (n : Nat) → List Nat → State × Option (Nat × Stage)
  | s, _, [] => (s, none)
  | s, n, c :: cs =>
    match s.checkCopy c with
    | .error r => State.tryCopies faults (s.showCopy c r) n cs
    | .ok x =>
      if faults.getLsbD n then
        State.tryCopies faults ((x.recs.foldl State.unputRecord (x.write s)).showCopy c (0x13, 0)) (n + 1) cs
      else ((x.write s).commitAll.showCopy c (0x00, 0), some (c, x))

/-- Copies of a unit that fail its test are fenced, and two or more fenced make the unit faulty (R306, R327). -/
def State.unitTest (s : State) (n : Nat) (m : BitVec 3) : State :=
  let m := Nat.lor (s.io (Reg.GEN_STAT_FENCE n)) m.toNat
  let s := if 2 ≤ (bitsBelow 3 m).length then s.faultUnit n else s
  s.setIo (Reg.GEN_STAT_FENCE n) m

def State.latchTest (s : State) (g : Nat) (m : BitVec 3) : State :=
  let m := Nat.lor (s.io (Reg.TRIP_GRP_STAT_FENCE g)) m.toNat
  let s := if 2 ≤ (bitsBelow 3 m).length then s.faultGroup g else s
  s.setIo (Reg.TRIP_GRP_STAT_FENCE g) m

/-- The tests of the phase, whatever comes of the copies: channel units and latches (R306, R327). -/
def State.copyTests (s : State) (t : ApplyTests) : State :=
  t.latches.foldl (fun s u => s.latchTest u.1 u.2) (t.units.foldl (fun s u => s.unitTest u.1 u.2) s)

/-- The tests of the phase (R306, R327) and the calibration of the local channels (R185). -/
def State.applyTests (s : State) (t : ApplyTests) : State :=
  let s := s.copyTests t
  (List.range 16).foldl (fun s m => s.calRequest (128 + m)) s

/-- What follows the new settings at once: the next boundary from the new CP (R65), the lottery registers (R165), the
servo's source, the picot pins, thermal caps, and the trip sources. -/
def State.settle (s : State) : State :=
  let s := { s with tb := { s.tb with nextB := (s.tb.time / s.cpUnits + 1) * s.cpUnits } }
  let s := (s.seedLottery .d0).seedLottery .d1
  let s := (List.range 8).foldl State.drivePicot s.autoSource
  let s := [Die.d0, .d1].foldl (fun s d => (s.thermalCap d 0).thermalCap d 1) s
  s.tripScan

/-- The key slots the applied copy revokes that are not revoked already, rising (R87). -/
def State.revokeList (s : State) (recs : List PrickRec) : List Nat :=
  (List.range 4).filter (fun k => !bitOf (s.rd .d0 Reg.SEC_FUSE_CFG_KEY_REVOKED) k
    && recs.any (fun r => r.type = recRevoke && field r.body 0 1 = k))

/-- The running firmware reads its settings (R110, R111). -/
def State.readSettings (s : State) : State :=
  let got := s.newestHalf (s.halfReads s.runHeader)
  { s with boot := { s.boot with
    settings := got, settingsLost := got.isNone && (s.halfValid 0 || s.halfValid 1) } }.aimSettings

/-- The copy applied: BOOT_STAT, BOOT_STAT_SEQ and what the report shows of it. -/
def State.showApplied (s : State) (c : Nat) (recs : List PrickRec) : State :=
  let len := field (s.flashBytes (copyBase c) 64) 0x14 4
  let s := (s.wrBoth Reg.BOOT_STAT_COPY c).wrBoth Reg.BOOT_STAT_SEQ_SEQ (s.rd .d0 (Reg.BOOT_SEQ_SEQ c))
  { s with boot := { s.boot with
    prick := ⟨len, Config.shake256 (s.flashBytes (copyBase c) len)⟩, revokes := s.revokeList recs } }

/-- A passive that disagrees is held out of service (R92, R457). -/
def State.passiveCheck (s : State) (agrees : Bool) : State :=
  match s.worker with
  | none => s
  | some d =>
    if agrees || s.dieState d.other ≠ 1 then s
    else { s.putOut d.other causeBoot with red := { (s.putOut d.other causeBoot).red with agreedBoot := false } }

/-- The quads whose calibration fails (R338); every quad calibrates in the phase, whatever comes of the copies. -/
def State.calTests (s : State) (t : ApplyTests) : State :=
  (bitsBelow 8 t.calFail.toNat).foldl (fun s q => s.raiseIo (Reg.LANE_QUAD_STAT_CAL_FAIL q)) s

/-- PRICKING_APPLY (R88 to R92, R110, R111, R338). With REVOKE records in the applied copy the boot waits for their burns
before lane training; with settings the firmware cannot read it waits for its FALLBACK. -/
def execPrickingApply (readBackFaults : BitVec 2) (passiveAgrees : Bool) (tests : ApplyTests) (s : State) : Result :=
  if !s.booting || s.phase ≠ phaseApply then .next s else
  match s.tryCopies readBackFaults 0 s.boot.ranked with
  | (s, none) => .next (((s.calTests tests).copyTests tests).enterMaint .full)
  | (s, some (c, x)) =>
    let s := (((s.showApplied c x.recs).calTests tests).applyTests tests).settle
    let s := (s.passiveCheck passiveAgrees).readSettings
    .next (if s.boot.revokes = [] && !s.boot.settingsLost then s.setPhase phaseLanes else s)

end Sys2Proof.Machine
end

