-- ==== Sys2Proof/Machine/Time.lean ====
section
/-! DEFINITION. The commands of the PTP clock, of the servo and of the picot outputs (R417 to R427). -/

namespace Sys2Proof.Machine

/-! ## PTP messages (R417 to R420) -/

/-- A slave port takes the time of a Sync. -/
def State.slaveSync (s : State) (p : Nat) (t1 t2 c : Int) : State :=
  match (s.ptpOf p).delay with
  | some d => s.ptpSample p (t2 - t1 - c - d)
  | none => s

/-- The port follows a master. -/
def State.follows (s : State) (p : Nat) : Bool := s.ptpState p = ptpSlave || s.ptpState p = ptpUncalibrated

/-- PTP_SYNC (R420): a one-step Sync gives its sample at once, a two-step one waits for its Follow_Up. -/
def execPtpSync (p : Fin 4) (domain : Byte) (seq : BitVec 16) (twoStep : Bool) (t1 t2 corr : Int) (s : State) : Result :=
  let t2 := s.tsIn p t2
  if !s.ptpTakes p domain || !s.follows p then .next s
  else if twoStep then .next (s.setPtp p { s.ptpOf p with sync := some (seq.toNat, t2, corr) })
  else .next ((s.setPtp p { s.ptpOf p with sync := none }).slaveSync p t1 t2 corr)

/-- PTP_FOLLOW_UP (R420). -/
def execPtpFollowUp (p : Fin 4) (domain : Byte) (seq : BitVec 16) (t1 corr : Int) (s : State) : Result :=
  match (if s.ptpTakes p domain && s.follows p then (s.ptpOf p).sync else none) with
  | some (q, t2, c) =>
    if q = seq.toNat then .next ((s.setPtp p { s.ptpOf p with sync := none }).slaveSync p t1 t2 (c + corr)) else .next s
  | none => .next s

/-- Message types of IEEE 1588-2019. -/
def msgSync : Nat := 0
def msgPdelayReq : Nat := 2
def msgPdelayResp : Nat := 3
def msgAnnounce : Nat := 0xB

/-- PTP_PDELAY_REQ (R418): answered one-step, the correction raised by the turnaround t3 - t2. -/
def execPtpPdelayReq (p : Fin 4) (domain : Byte) (seq : BitVec 16) (corr t2 t3 : Int) (full : Bool) (s : State) : Result :=
  .next (ethFifo full s <| if s.ptpTakes p domain then s.ptpSend p rankPtpEvent
      { type := msgPdelayResp, domain := domain.toNat, seq := seq.toNat, corr := corr + (s.tsOut p t3 - s.tsIn p t2) }
    else s)

/-- PTP_PDELAY_RESP (R420): of a one-step responder it gives the mean link delay at once. -/
def execPtpPdelayResp (p : Fin 4) (domain : Byte) (seq : BitVec 16) (twoStep : Bool) (t2 t4 corr : Int) (s : State) :
    Result :=
  match (if s.ptpTakes p domain then (s.ptpOf p).req else none) with
  | some (q, t1) =>
    let t4 := s.tsIn p t4
    if q ≠ seq.toNat then .next s
    else if twoStep then .next (s.setPtp p { s.ptpOf p with resp := some (q, t2, t4, corr) })
    else .next (s.setLinkDelay p ((t4 - t1 - corr) / 2))
  | none => .next s

/-- PTP_PDELAY_RESP_FOLLOW_UP (R420). -/
def execPtpPdelayRespFollowUp (p : Fin 4) (domain : Byte) (seq : BitVec 16) (t3 corr : Int) (s : State) : Result :=
  let x := s.ptpOf p
  match (if s.ptpTakes p domain then x.req else none), x.resp with
  | some (_, t1), some (q, t2, t4, c) =>
    if q = seq.toNat then .next (s.setLinkDelay p ((t4 - t1 - (t3 - t2) - c - corr) / 2)) else .next s
  | _, _ => .next s

/-- An Announce of tick `now` enters the port's foreign masters. -/
def hearForeign (now : Nat) (m : PtpAnnounceMsg) : List Foreign → List Foreign
  | [] => [⟨m, now, none⟩]
  | f :: fs => if f.msg.sender = m.sender then ⟨m, now, some f.at_⟩ :: fs else f :: hearForeign now m fs

/-- PTP_ANNOUNCE (R419). -/
def execPtpAnnounce (p : Fin 4) (m : PtpAnnounceMsg) (s : State) : Result :=
  if !s.ptpTakes p m.domain || s.ptpState p = ptpInit || m.sender.toNat = s.clockId || decide (255 ≤ m.steps.toNat) then
    .next s
  else
    let x := s.ptpOf p
    .next (s.setPtp p { x with foreign := hearForeign s.tb.ticks m x.foreign }).bmca

/-- PTP_MANAGEMENT (R417): management and signaling messages are discarded and counted. -/
def execPtpManagement (p : Fin 4) (s : State) : Result :=
  .next (if s.ptpOn p then s.countIo Reg.PTP_DISC_CNT_COUNT Reg.PTP_CNT_STAT_SAT else s)

/-- The Sync of port `p` that departs at `t`: its origin time is the departure, the part below 1 ns in its correctionField
(R418). -/
def State.syncMsg (s : State) (p : Nat) (t : Int) : PtpOut :=
  { type := msgSync, domain := s.io Reg.PTP_CFG_DOMAIN, seq := (s.ptpOf p).syncSeq, time := s.tsOut p t / 2 ^ 16
    corr := s.tsOut p t % 2 ^ 16 }

/-- PTP_SYNC_SEND (R418): a master sends one-step. -/
def execPtpSyncSend (p : Fin 4) (departure : Nat) (full : Bool) (s : State) : Result :=
  .next (ethFifo full s <| if s.ptpOn p && s.ptpState p = ptpMaster then
    (s.setPtp p { s.ptpOf p with syncSeq := ((s.ptpOf p).syncSeq + 1) % 2 ^ 16 }).ptpSend p rankPtpEvent (s.syncMsg p departure)
  else s)

/-- The Announce of port `p` (R419). -/
def State.announceMsg (s : State) (p : Nat) : PtpOut :=
  { type := msgAnnounce, domain := s.io Reg.PTP_CFG_DOMAIN, seq := (s.ptpOf p).annSeq, data := some s.announced }

/-- PTP_ANNOUNCE_SEND (R419): a port on the way to MASTER arrives; a master announces. -/
def execPtpAnnounceSend (p : Fin 4) (full : Bool) (s : State) : Result :=
  if !s.ptpOn p then .next s
  else
    let s := if s.ptpState p = ptpPreMaster then s.setPtpState p ptpMaster else s
    .next (ethFifo full s <| if s.ptpState p = ptpMaster then
      (s.setPtp p { s.ptpOf p with annSeq := ((s.ptpOf p).annSeq + 1) % 2 ^ 16 }).ptpSend p rankPtp (s.announceMsg p)
    else s)

/-- PTP_PDELAY_REQ_SEND (R419). -/
def execPtpPdelayReqSend (p : Fin 4) (t1 : Int) (full : Bool) (s : State) : Result :=
  if !s.ptpOn p then .next s
  else
    let x := s.ptpOf p
    let q := x.reqSeq
    .next (ethFifo full s <| (s.setPtp p { x with req := some (q, s.tsOut p t1), resp := none, reqSeq := (q + 1) % 2 ^ 16 }).ptpSend p
      rankPtpEvent { type := msgPdelayReq, domain := s.io Reg.PTP_CFG_DOMAIN, seq := q })

/-- PTP_ANNOUNCE_TIMEOUT (R423): the masters of the port are forgotten, a slave's source is lost. -/
def execPtpAnnounceTimeout (p : Fin 4) (s : State) : Result :=
  if !s.ptpOn p || s.ptpState p = ptpInit then .next s
  else
    let s := if s.follows p && s.servoSource = 0 then s.servoLost else s
    let s := s.setPtp p { s.ptpOf p with foreign := [], sync := none }
    .next (s.setPtpState p (if s.ioBit Reg.PTP_CFG_SLAVE_ONLY then ptpListening else ptpMaster)).bmca

/-- PTP_SYNC_TIMEOUT (R423): three Sync intervals passed without a Sync on the port, and no other port takes any. -/
def execPtpSyncTimeout (p : Fin 4) (s : State) : Result :=
  .next (if s.ptpOn p && s.servoSource = 0 && ([0, 1, 2, 3] : List Nat).all (fun q => q = p || !s.follows q) then s.servoLost
    else s)

/-- NOLRI_SOURCE_LOSS (R423): 16 periods passed without a usable CYCLE. -/
def execNolriSourceLoss (s : State) : Result := .next (if s.servoSource = 1 then s.servoLost else s)

/-- SERVO_HOLDOVER_EXPIRY (R423): HOLD_MAX seconds passed without a sample; a sample that comes in that tick wins (R428). -/
def execServoHoldoverExpiry (sample : Bool) (s : State) : Result :=
  .next (if !sample && s.io Reg.SERVO_STAT_STATE = servoHoldover then (s.setTimeValid false).setServo servoFree else s)

/-! ## Picot outputs (R426, R427) -/

/-- A pulse of `w` ticks starts; with NEED_VALID none is emitted while the time is not valid. Integrating units triggered by the
output are triggered (R192, R427). -/
def State.picotPulse (s : State) (p w : Nat) : State :=
  if s.ioBit (Reg.PICOT_CFG_NEED_VALID p) && !s.ioBit Reg.TB_STAT_TIME_VALID then s
  else
    let s := s.setPicotSt p { s.picotOf p with ends := some (s.tb.ticks + w) }
    let s := (s.setIo (Reg.PICOT_STAT_ACTIVE p) 1).drivePicot p
    let s := if s.ioBit (Reg.PICOT_CFG_EVT p) then s.post (184 + p) else s
    (List.range 8).foldl (fun s u =>
      if s.ioBit (Reg.MEAS_INJ_CFG_PICOT_EN u) && s.io (Reg.MEAS_INJ_CFG_PICOT u) = p then s.injTrigger u else s) s

/-- PICOT_PULSE_START (R426, R427): at the first tick at the pulse's time. One that fell due in the tick of a commit starts under
the values the commit replaced (R428). -/
def execPicotPulseStart (p : Fin 8) (s : State) : Result :=
  let x := s.picotOf p
  match x.due.filter (fun e => e.1 = s.tb.ticks), x.next with
  | some e, _ => .next ((s.setPicotSt p { x with due := none }).picotPulse p e.2)
  | none, none => .next s
  | none, some t =>
    let s := s.runToTime t
    let x := s.picotOf p
    let per := 2 * s.io (Reg.PICOT_PER_PER p) * nsUnit
    let next := if s.io (Reg.PICOT_CFG_MODE p) = picotPeriodic then some (nextPulse (t + per) per s.tb.time) else none
    .next ((s.setPicotSt p { x with next := next }).picotPulse p (s.io (Reg.PICOT_WIDTH_WIDTH p)))

/-- PICOT_PULSE_END (R426): after WIDTH ticks. -/
def execPicotPulseEnd (p : Fin 8) (s : State) : Result :=
  match (s.picotOf p).ends with
  | none => .next s
  | some t =>
    let s := s.runTo t
    .next (((s.setPicotSt p { s.picotOf p with ends := none }).setIo (Reg.PICOT_STAT_ACTIVE p) 0).drivePicot p)

end Sys2Proof.Machine
end

