-- ==== Sys2Proof/Machine/Dispatch.lean ====
section
/-! DEFINITION. One arm per command: each a direct call of its meaning. -/

namespace Sys2Proof.Machine

/-- The effect of a command on everything but the queue. -/
def exec (i : Instr) (s : State) : Host.Outcome State Fault Refusal :=
  match i with
  | .registerWrite d addr v full => Sys2Proof.Machine.execRegisterWrite d addr v full s
  | .satClear d addr bit events => Sys2Proof.Machine.execSatClear d addr bit events s
  | .porstAssert lowNs => Sys2Proof.Machine.execPorstAssert lowNs s
  | .porstRelease strapUp testEn iodRailsOk regionRails => Sys2Proof.Machine.execPorstRelease strapUp testEn iodRailsOk regionRails s
  | .strapSecondSample strapDn => Sys2Proof.Machine.execStrapSecondSample strapDn s
  | .bootRomStart readError => Sys2Proof.Machine.execBootRomStart readError s
  | .gatePadPowerOn => Sys2Proof.Machine.execGatePadPowerOn s
  | .railUndervoltage rail => Sys2Proof.Machine.execRailUndervoltage rail s
  | .railRecovery rail => Sys2Proof.Machine.execRailRecovery rail s
  | .regionRailCrossing d r => Sys2Proof.Machine.execRegionRailCrossing d r s
  | .avsVoltageWrite d r a => Sys2Proof.Machine.execAvsVoltageWrite d r a s
  | .avsStatusRead d r a => Sys2Proof.Machine.execAvsStatusRead d r a s
  | .laneRefLoss ref absent => Sys2Proof.Machine.execLaneRefLoss ref absent s
  | .jtagExtest => Sys2Proof.Machine.execJtagExtest s
  | .jtagSamplePreload preload => Sys2Proof.Machine.execJtagSamplePreload preload s
  | .jtagClamp => Sys2Proof.Machine.execJtagClamp s
  | .jtagHighz => Sys2Proof.Machine.execJtagHighz s
  | .jtagIdcode => Sys2Proof.Machine.execJtagIdcode s
  | .jtagBypass code => Sys2Proof.Machine.execJtagBypass code s
  | .overtempStop => Sys2Proof.Machine.execOvertempStop s
  | .periodBoundary marks => Sys2Proof.Machine.execPeriodBoundary marks s
  | .commitGuardTick couchBad => Sys2Proof.Machine.execCommitGuardTick couchBad s
  | .xtalEdgeTimeout => Sys2Proof.Machine.execXtalEdgeTimeout s
  | .xtalWindowEnd edges => Sys2Proof.Machine.execXtalWindowEnd edges s
  | .iodPllUnlock => Sys2Proof.Machine.execIodPllUnlock s
  | .regionPllUnlock d r => Sys2Proof.Machine.execRegionPllUnlock d r s
  | .tbTimeSnapshot d reader => Sys2Proof.Machine.execTbTimeSnapshot d reader s
  | .flashDiscovery table => Sys2Proof.Machine.execFlashDiscovery table s
  | .stage1Verify readError => Sys2Proof.Machine.execStage1Verify readError s
  | .iodsupVerify readError => Sys2Proof.Machine.execIodsupVerify readError s
  | .prickingCopyCheck readErrorA readErrorB => Sys2Proof.Machine.execPrickingCopyCheck readErrorA readErrorB s
  | .firmwareSlotCheck readErrors => Sys2Proof.Machine.execFirmwareSlotCheck readErrors s
  | .prickingApply readBackFaults passiveAgrees tests => Sys2Proof.Machine.execPrickingApply readBackFaults passiveAgrees tests s
  | .revokeFuseBurn slot readsRevoked => Sys2Proof.Machine.execRevokeFuseBurn slot readsRevoked s
  | .laneWindowClose => Sys2Proof.Machine.execLaneWindowClose s
  | .membershipWindowClose => Sys2Proof.Machine.execMembershipWindowClose s
  | .bootRecordWrite full => Sys2Proof.Machine.execBootRecordWrite full s
  | .romSelfCheck d pass => Sys2Proof.Machine.execRomSelfCheck d pass s
  | .fwFallback d key => Sys2Proof.Machine.execFwFallback d key s
  | .slotConfirm full => Sys2Proof.Machine.execSlotConfirm full s
  | .rewriteSectorDone full => Sys2Proof.Machine.execRewriteSectorDone full s
  | .fzTwait d core rd => Sys2Proof.Machine.execFzTwait d core rd s
  | .fzTpost d core rd rs1 rs2 => Sys2Proof.Machine.execFzTpost d core rd rs1 rs2 s
  | .fzTcancel d core rd rs1 => Sys2Proof.Machine.execFzTcancel d core rd rs1 s
  | .fzLock d core rd rs1 => Sys2Proof.Machine.execFzLock d core rd rs1 s
  | .fzUnlock d core rd rs1 => Sys2Proof.Machine.execFzUnlock d core rd rs1 s
  | .fzCommit d core rd rs1 full => Sys2Proof.Machine.execFzCommit d core rd rs1 full s
  | .delayExpiry d cluster => Sys2Proof.Machine.execDelayExpiry d cluster s
  | .taskWatchdog d core => Sys2Proof.Machine.execTaskWatchdog d core s
  | .coreFault d core cause epc tval => Sys2Proof.Machine.execCoreFault d core cause epc tval s
  | .coreLocksBroken d core => Sys2Proof.Machine.execCoreLocksBroken d core s
  | .coreRestart d core => Sys2Proof.Machine.execCoreRestart d core s
  | .coreLoad d core rd addr w ecc full => Sys2Proof.Machine.execCoreLoad d core rd addr w ecc full s
  | .coreStore d core addr w v ecc full settings => Sys2Proof.Machine.execCoreStore d core addr w v ecc full settings s
  | .coreAtomic d core rd op addr v ecc => Sys2Proof.Machine.execCoreAtomic d core rd op addr v ecc s
  | .scrubRead d r addr ecc => Sys2Proof.Machine.execScrubRead d r addr ecc s
  | .bobbinParityError d cluster => Sys2Proof.Machine.execBobbinParityError d cluster s
  | .lockParityError d => Sys2Proof.Machine.execLockParityError d s
  | .groundRequest d target req words cycles xfer full errs => Sys2Proof.Machine.execGroundRequest d target req words cycles xfer full errs s
  | .groundGrant d target cycles => Sys2Proof.Machine.execGroundGrant d target cycles s
  | .requestCapped d target req cycles => Sys2Proof.Machine.execRequestCapped d target req cycles s
  | .gndLongClr d mask => Sys2Proof.Machine.execGndLongClr d mask s
  | .senseFrame ch samples full => Sys2Proof.Machine.execSenseFrame ch samples full s
  | .faultDash ch => Sys2Proof.Machine.execFaultDash ch s
  | .dashEnd ch => Sys2Proof.Machine.execDashEnd ch s
  | .modulatorOverload unit => Sys2Proof.Machine.execModulatorOverload unit s
  | .decimatorOutput unit bits full => Sys2Proof.Machine.execDecimatorOutput unit bits full s
  | .auxOutput ch => Sys2Proof.Machine.execAuxOutput ch s
  | .openWireTestStart m => Sys2Proof.Machine.execOpenWireTestStart m s
  | .openWireTestEnd m => Sys2Proof.Machine.execOpenWireTestEnd m s
  | .measCalReq d mask => Sys2Proof.Machine.execMeasCalReq d mask s
  | .calPeriodExpiry m => Sys2Proof.Machine.execCalPeriodExpiry m s
  | .selfCalEnd m zero ref => Sys2Proof.Machine.execSelfCalEnd m zero ref s
  | .sinc2Output unit bits => Sys2Proof.Machine.execSinc2Output unit bits s
  | .measInjTrig d u => Sys2Proof.Machine.execMeasInjTrig d u s
  | .injWindowEnd u => Sys2Proof.Machine.execInjWindowEnd u s
  | .cleRunStart d c => Sys2Proof.Machine.execCleRunStart d c s
  | .cleNop d c ecc => Sys2Proof.Machine.execCleNop d c ecc s
  | .cleClr d c ecc => Sys2Proof.Machine.execCleClr d c ecc s
  | .cleLdi d c ecc => Sys2Proof.Machine.execCleLdi d c ecc s
  | .cleMac d c ecc => Sys2Proof.Machine.execCleMac d c ecc s
  | .cleAdd d c ecc => Sys2Proof.Machine.execCleAdd d c ecc s
  | .cleAddi d c ecc => Sys2Proof.Machine.execCleAddi d c ecc s
  | .cleSti d c ecc => Sys2Proof.Machine.execCleSti d c ecc s
  | .clePre d c ecc => Sys2Proof.Machine.execClePre d c ecc s
  | .cleWb d c ecc => Sys2Proof.Machine.execCleWb d c ecc s
  | .cleFbk d c ecc => Sys2Proof.Machine.execCleFbk d c ecc s
  | .cleMov d c ecc => Sys2Proof.Machine.execCleMov d c ecc s
  | .cleGet d c ecc word full => Sys2Proof.Machine.execCleGet d c ecc word full s
  | .clePut d c ecc word full => Sys2Proof.Machine.execClePut d c ecc word full s
  | .cleOut d c ecc full => Sys2Proof.Machine.execCleOut d c ecc full s
  | .cleEnd d c full fullIod => Sys2Proof.Machine.execCleEnd d c full fullIod s
  | .loopRelease d c n => Sys2Proof.Machine.execLoopRelease d c n s
  | .cleFault d c cause => Sys2Proof.Machine.execCleFault d c cause s
  | .cleRunMaxClr d c => Sys2Proof.Machine.execCleRunMaxClr d c s
  | .ladderBuild d full => Sys2Proof.Machine.execLadderBuild d full s
  | .balReinstate d n => Sys2Proof.Machine.execBalReinstate d n s
  | .levelQuantiser d a full => Sys2Proof.Machine.execLevelQuantiser d a full s
  | .thresholdDeadline d => Sys2Proof.Machine.execThresholdDeadline d s
  | .healthEvaluation d => Sys2Proof.Machine.execHealthEvaluation d s
  | .gateEdge n upper => Sys2Proof.Machine.execGateEdge n upper s
  | .carrierCycleStart n => Sys2Proof.Machine.execCarrierCycleStart n s
  | .carrierMidReload n => Sys2Proof.Machine.execCarrierMidReload n s
  | .syncInEdge ticks => Sys2Proof.Machine.execSyncInEdge ticks s
  | .syncWindowClose => Sys2Proof.Machine.execSyncWindowClose s
  | .echoWatchTimeout n => Sys2Proof.Machine.execEchoWatchTimeout n s
  | .tmrMismatch n copy => Sys2Proof.Machine.execTmrMismatch n copy s
  | .genDis d w v => Sys2Proof.Machine.execGenDis d w v s
  | .tripInEdge p level pulse => Sys2Proof.Machine.execTripInEdge p level pulse s
  | .bosQuietTimeout => Sys2Proof.Machine.execBosQuietTimeout s
  | .tripFwSet d groups => Sys2Proof.Machine.execTripFwSet d groups s
  | .tripFwClr d groups => Sys2Proof.Machine.execTripFwClr d groups s
  | .tripClr d groups => Sys2Proof.Machine.execTripClr d groups s
  | .bypassTurnOn n => Sys2Proof.Machine.execBypassTurnOn n s
  | .tripRecordWrite => Sys2Proof.Machine.execTripRecordWrite s
  | .latchTmrMismatch g copy => Sys2Proof.Machine.execLatchTmrMismatch g copy s
  | .bosRepeat => Sys2Proof.Machine.execBosRepeat s
  | .laneTrainStart k => Sys2Proof.Machine.execLaneTrainStart k s
  | .laneCdrLock k => Sys2Proof.Machine.execLaneCdrLock k s
  | .laneEqSearchDone k foms => Sys2Proof.Machine.execLaneEqSearchDone k foms s
  | .laneAlignWindowEnd k aligned slip => Sys2Proof.Machine.execLaneAlignWindowEnd k aligned slip s
  | .trainingWord k b1 b2 b3 b4 b5 b6 b7 => Sys2Proof.Machine.execTrainingWord k b1 b2 b3 b4 b5 b6 b7 s
  | .pcsLinkUp k => Sys2Proof.Machine.execPcsLinkUp k s
  | .laneAttemptTimeout k => Sys2Proof.Machine.execLaneAttemptTimeout k s
  | .signalDetectLoss k => Sys2Proof.Machine.execSignalDetectLoss k s
  | .signalDetectRise k => Sys2Proof.Machine.execSignalDetectRise k s
  | .laneBackoffEnd k => Sys2Proof.Machine.execLaneBackoffEnd k s
  | .laneAbsentPoll k => Sys2Proof.Machine.execLaneAbsentPoll k s
  | .laneFomMeasure k h v => Sys2Proof.Machine.execLaneFomMeasure k h v s
  | .dfeUpdate k signs => Sys2Proof.Machine.execDfeUpdate k signs s
  | .laneAlignLoss k invalid => Sys2Proof.Machine.execLaneAlignLoss k invalid s
  | .quadPllUnlock q pll => Sys2Proof.Machine.execQuadPllUnlock q pll s
  | .laneRetrain d k => Sys2Proof.Machine.execLaneRetrain d k s
  | .laneBitslip d k => Sys2Proof.Machine.execLaneBitslip d k s
  | .laneRtClr d k events => Sys2Proof.Machine.execLaneRtClr d k events s
  | .laneTxSleep d k sleep => Sys2Proof.Machine.execLaneTxSleep d k sleep s
  | .laneRxSleep d k sleep => Sys2Proof.Machine.execLaneRxSleep d k sleep s
  | .laneRxRelock k aligned h v => Sys2Proof.Machine.execLaneRxRelock k aligned h v s
  | .laneLoopback d k loop => Sys2Proof.Machine.execLaneLoopback d k loop s
  | .lanePrbs d k prbs => Sys2Proof.Machine.execLanePrbs d k prbs s
  | .cycle l h p age => Sys2Proof.Machine.execCycle l h p age s
  | .ref l h ws => Sys2Proof.Machine.execRef l h ws s
  | .threshold l h p => Sys2Proof.Machine.execThreshold l h p s
  | .ladder l h p => Sys2Proof.Machine.execLadder l h p s
  | .status l h p => Sys2Proof.Machine.execStatus l h p s
  | .health l h grade es => Sys2Proof.Machine.execHealth l h grade es s
  | .bulk l h bytes => Sys2Proof.Machine.execBulk l h bytes s
  | .join l h p others => Sys2Proof.Machine.execJoin l h p others s
  | .accept l h uid fromPeriod => Sys2Proof.Machine.execAccept l h uid fromPeriod s
  | .refuse l h uid reason => Sys2Proof.Machine.execRefuse l h uid reason s
  | .leave l h uid reason => Sys2Proof.Machine.execLeave l h uid reason s
  | .blockOrderSet k => Sys2Proof.Machine.execBlockOrderSet k s
  | .bondMarker k a b skew => Sys2Proof.Machine.execBondMarker k a b skew s
  | .slotStart l e full => Sys2Proof.Machine.execSlotStart l e full s
  | .openFrameSend l sleep full => Sys2Proof.Machine.execOpenFrameSend l sleep full s
  | .bulkFrameSend l full => Sys2Proof.Machine.execBulkFrameSend l full s
  | .markerDue l => Sys2Proof.Machine.execMarkerDue l s
  | .routeExpiry j => Sys2Proof.Machine.execRouteExpiry j s
  | .joinStart => Sys2Proof.Machine.execJoinStart s
  | .joinRetry => Sys2Proof.Machine.execJoinRetry s
  | .refusedRetry => Sys2Proof.Machine.execRefusedRetry s
  | .membershipTimeout => Sys2Proof.Machine.execMembershipTimeout s
  | .memberTimeout j frame => Sys2Proof.Machine.execMemberTimeout j frame s
  | .ethFrameReceive p f full => Sys2Proof.Machine.execEthFrameReceive p f full s
  | .read h addr count passive => Sys2Proof.Machine.execRead h addr count passive s
  | .readSignal h index => Sys2Proof.Machine.execReadSignal h index s
  | .identity h offset count => Sys2Proof.Machine.execIdentity h offset count s
  | .attest h nonce => Sys2Proof.Machine.execAttest h nonce s
  | .deliverBegin h kind total => Sys2Proof.Machine.execDeliverBegin h kind total s
  | .deliverData h offset bytes => Sys2Proof.Machine.execDeliverData h offset bytes s
  | .deliverEnd h crc readBack readError => Sys2Proof.Machine.execDeliverEnd h crc readBack readError s
  | .deliverStat h => Sys2Proof.Machine.execDeliverStat h s
  | .deliveryTimeout request => Sys2Proof.Machine.execDeliveryTimeout request s
  | .prpSupervisionSend pair full => Sys2Proof.Machine.execPrpSupervisionSend pair full s
  | .prpSupervisionFrame p => Sys2Proof.Machine.execPrpSupervisionFrame p s
  | .duplicateEntryExpiry pair => Sys2Proof.Machine.execDuplicateEntryExpiry pair s
  | .svFrame f => Sys2Proof.Machine.execSvFrame f s
  | .gooseSend d b full => Sys2Proof.Machine.execGooseSend d b full s
  | .gooseRepeat b full => Sys2Proof.Machine.execGooseRepeat b full s
  | .gooseFrame f => Sys2Proof.Machine.execGooseFrame f s
  | .gooseStale sub => Sys2Proof.Machine.execGooseStale sub s
  | .ptpSync p domain seq twoStep t1 t2 corr => Sys2Proof.Machine.execPtpSync p domain seq twoStep t1 t2 corr s
  | .ptpFollowUp p domain seq t1 corr => Sys2Proof.Machine.execPtpFollowUp p domain seq t1 corr s
  | .ptpPdelayReq p domain seq corr t2 t3 full => Sys2Proof.Machine.execPtpPdelayReq p domain seq corr t2 t3 full s
  | .ptpPdelayResp p domain seq twoStep t2 t4 corr => Sys2Proof.Machine.execPtpPdelayResp p domain seq twoStep t2 t4 corr s
  | .ptpPdelayRespFollowUp p domain seq t3 corr => Sys2Proof.Machine.execPtpPdelayRespFollowUp p domain seq t3 corr s
  | .ptpAnnounce p m => Sys2Proof.Machine.execPtpAnnounce p m s
  | .ptpManagement p => Sys2Proof.Machine.execPtpManagement p s
  | .ptpSyncSend p departure full => Sys2Proof.Machine.execPtpSyncSend p departure full s
  | .ptpAnnounceSend p full => Sys2Proof.Machine.execPtpAnnounceSend p full s
  | .ptpPdelayReqSend p t1 full => Sys2Proof.Machine.execPtpPdelayReqSend p t1 full s
  | .ptpAnnounceTimeout p => Sys2Proof.Machine.execPtpAnnounceTimeout p s
  | .ptpSyncTimeout p => Sys2Proof.Machine.execPtpSyncTimeout p s
  | .nolriSourceLoss => Sys2Proof.Machine.execNolriSourceLoss s
  | .servoHoldoverExpiry sample => Sys2Proof.Machine.execServoHoldoverExpiry sample s
  | .picotPulseStart p => Sys2Proof.Machine.execPicotPulseStart p s
  | .picotPulseEnd p => Sys2Proof.Machine.execPicotPulseEnd p s
  | .cpmEmergency d r path => Sys2Proof.Machine.execCpmEmergency d r path s
  | .avsUpdate d r sCore sCle => Sys2Proof.Machine.execAvsUpdate d r sCore sCle s
  | .freqStepDone d r => Sys2Proof.Machine.execFreqStepDone d r s
  | .sensorConversion sensor t => Sys2Proof.Machine.execSensorConversion sensor t s
  | .thermalCapLift d r => Sys2Proof.Machine.execThermalCapLift d r s
  | .placementEval d => Sys2Proof.Machine.execPlacementEval d s
  | .spareSelfTest d pass => Sys2Proof.Machine.execSpareSelfTest d pass s
  | .substReapplyDone d readBackOk => Sys2Proof.Machine.execSubstReapplyDone d readBackOk s
  | .substStateCopyDone d => Sys2Proof.Machine.execSubstStateCopyDone d s
  | .couchStart => Sys2Proof.Machine.execCouchStart s
  | .couchStreamDone bad lost => Sys2Proof.Machine.execCouchStreamDone bad lost s
  | .fullPassDone readBackOk => Sys2Proof.Machine.execFullPassDone readBackOk s
  | .fullPassTimeout => Sys2Proof.Machine.execFullPassTimeout s
  | .dieSelfCheckVerdict workerPass passivePass => Sys2Proof.Machine.execDieSelfCheckVerdict workerPass passivePass s
  | .roleChange => Sys2Proof.Machine.execRoleChange s
  | .brideCrcFault d => Sys2Proof.Machine.execBrideCrcFault d s
  | .heartbeatFault d => Sys2Proof.Machine.execHeartbeatFault d s
  | .dieRejoinReset d => Sys2Proof.Machine.execDieRejoinReset d s
  | .dieRejoinReady d agrees => Sys2Proof.Machine.execDieRejoinReady d agrees s
  | .rejoinTimeout d => Sys2Proof.Machine.execRejoinTimeout d s
  | .spareBankCopyDone d r => Sys2Proof.Machine.execSpareBankCopyDone d r s
  | .ceWindowEnd d => Sys2Proof.Machine.execCeWindowEnd d s
  | .stopHalt => Sys2Proof.Machine.execStopHalt s
  | .logRecordWrite full => Sys2Proof.Machine.execLogRecordWrite full s
  | .redCntClr d events => Sys2Proof.Machine.execRedCntClr d events s
  | .lastRailInTolerance => Sys2Proof.Machine.execLastRailInTolerance s
  | .deviceEpoch => Sys2Proof.Machine.execDeviceEpoch s
  | .syncOutPulseEnd => Sys2Proof.Machine.execSyncOutPulseEnd s
  | .prbsCheckerLock k bits lost => Sys2Proof.Machine.execPrbsCheckerLock k bits lost s
  | .nolriFrameBad l full => Sys2Proof.Machine.execNolriFrameBad l full s
  | .attestReportSigned full => Sys2Proof.Machine.execAttestReportSigned full s
  | .maintRequestAnswered full fullFlash => Sys2Proof.Machine.execMaintRequestAnswered full fullFlash s

end Sys2Proof.Machine
end

