-- ==== Sys2Proof/Safety.lean ====
section
/-! DEFINITION. What counts as safe on this block, and the terms claims are made in: completion, frames, and what memory
and registers keep. -/

namespace Sys2Proof.Machine

/-! ## Safety -/

/-- Both gate outputs of channel `n` are low. -/
def State.gatesLow (s : State) (n : Nat) : Bool := !s.pins.gu.getLsbD n && !s.pins.gl.getLsbD n

/-- Group `g` is asserted: TRIP_STATE shows it. -/
def State.asserted (s : State) (g : Nat) : Bool := bitOf (s.io Reg.TRIP_STATE_ASSERTED) g

/-- Group `g` is ARMED or in HOLD, and neither cleared nor re-armed in the present tick (R323, R328). -/
def State.armedOrHeld (s : State) (g : Nat) : Prop :=
  (s.io (Reg.TRIP_GRP_STAT_STATE g) = grpArmed ∨ s.io (Reg.TRIP_GRP_STAT_STATE g) = grpHold) ∧
  (∀ x, (s.grp g).cleared = some x → x.1 ≠ s.tb.ticks) ∧ ∀ x, (s.grp g).rearmed = some x → x.1 ≠ s.tb.ticks

/-- At most one die holds the worker role (R455). -/
def State.oneWorker (s : State) : Prop := ¬(s.io (Reg.RED_DIE_WORKER 0) = 1 ∧ s.io (Reg.RED_DIE_WORKER 1) = 1)

/-! ## Completion -/

/-- Command `i` completes at `s`: it answers a next state, of which `P` holds. -/
def Completes (i : Instr) (s : State) (P : State → Prop) : Prop := ∃ t, exec i s = .next t ∧ P t

/-! ## Frames -/

/-- The fields of the state, by name. -/
inductive Fld where
  | regs | shadow | shadowP | stagedW | stagedP | sets | ram | flash | tb | pins | power | jtag | boot | rewrite
  | bobs | cores | locks | lockLast | latched | faultTicks | gnd | lfsr | gndClk | gndEm | gen | sync | trip | red
  | adapt | gooseSt | goosePub | cleReq | links | nol | regions | placed | movedAt | cles | meas | inj | balCh
  | balCell | hubMem | hubArm | lanes | servo | ptp | picot | netPair | eth | svSub | gooseSub | maint | freeCtr
  | out | pending
deriving DecidableEq, Repr

/-- Field `f` of `t` is as in `s`. -/
def Fld.same : Fld → State → State → Prop
  | .regs, s, t => t.regs = s.regs
  | .shadow, s, t => t.shadow = s.shadow
  | .shadowP, s, t => t.shadowP = s.shadowP
  | .stagedW, s, t => t.stagedW = s.stagedW
  | .stagedP, s, t => t.stagedP = s.stagedP
  | .sets, s, t => t.sets = s.sets
  | .ram, s, t => t.ram = s.ram
  | .flash, s, t => t.flash = s.flash
  | .tb, s, t => t.tb = s.tb
  | .pins, s, t => t.pins = s.pins
  | .power, s, t => t.power = s.power
  | .jtag, s, t => t.jtag = s.jtag
  | .boot, s, t => t.boot = s.boot
  | .rewrite, s, t => t.rewrite = s.rewrite
  | .bobs, s, t => t.bobs = s.bobs
  | .cores, s, t => t.cores = s.cores
  | .locks, s, t => t.locks = s.locks
  | .lockLast, s, t => t.lockLast = s.lockLast
  | .latched, s, t => t.latched = s.latched
  | .faultTicks, s, t => t.faultTicks = s.faultTicks
  | .gnd, s, t => t.gnd = s.gnd
  | .lfsr, s, t => t.lfsr = s.lfsr
  | .gndClk, s, t => t.gndClk = s.gndClk
  | .gndEm, s, t => t.gndEm = s.gndEm
  | .gen, s, t => t.gen = s.gen
  | .sync, s, t => t.sync = s.sync
  | .trip, s, t => t.trip = s.trip
  | .red, s, t => t.red = s.red
  | .adapt, s, t => t.adapt = s.adapt
  | .gooseSt, s, t => t.gooseSt = s.gooseSt
  | .goosePub, s, t => t.goosePub = s.goosePub
  | .cleReq, s, t => t.cleReq = s.cleReq
  | .links, s, t => t.links = s.links
  | .nol, s, t => t.nol = s.nol
  | .regions, s, t => t.regions = s.regions
  | .placed, s, t => t.placed = s.placed
  | .movedAt, s, t => t.movedAt = s.movedAt
  | .cles, s, t => t.cles = s.cles
  | .meas, s, t => t.meas = s.meas
  | .inj, s, t => t.inj = s.inj
  | .balCh, s, t => t.balCh = s.balCh
  | .balCell, s, t => t.balCell = s.balCell
  | .hubMem, s, t => t.hubMem = s.hubMem
  | .hubArm, s, t => t.hubArm = s.hubArm
  | .lanes, s, t => t.lanes = s.lanes
  | .servo, s, t => t.servo = s.servo
  | .ptp, s, t => t.ptp = s.ptp
  | .picot, s, t => t.picot = s.picot
  | .netPair, s, t => t.netPair = s.netPair
  | .eth, s, t => t.eth = s.eth
  | .svSub, s, t => t.svSub = s.svSub
  | .gooseSub, s, t => t.gooseSub = s.gooseSub
  | .maint, s, t => t.maint = s.maint
  | .freeCtr, s, t => t.freeCtr = s.freeCtr
  | .out, s, t => t.out = s.out
  | .pending, s, t => t.pending = s.pending

/-- Every field of the state but those of `m` is in `t` as in `s`. -/
def Frame (m : List Fld) (s t : State) : Prop := ∀ f, f ∉ m → f.same s t

/-- Every register field but those listed reads in `t` as in `s`, its shadow and comparison copy too. -/
def RegsKept (fs : List (Die × Field)) (s t : State) : Prop :=
  ∀ d f, (∀ p ∈ fs, fieldKey p.1 p.2 ≠ fieldKey d f) → t.rd d f = s.rd d f ∧ t.rdSh d f = s.rdSh d f ∧ t.rdShP d f = s.rdShP d f

/-- Every byte of RAM and flash reads in `t` as in `s`. -/
def MemKept (s t : State) : Prop := (∀ loc a, t.ram8 loc a = s.ram8 loc a) ∧ ∀ off, t.flash8 off = s.flash8 off

/-- The fields of a register word that a write changes by their access codes alone: no command (WO) among them, no counter behind a
W1C bit, no standing cause, and no RW field whose write starts something (GEN_DIS, the lane words, BOB_DESC). -/
def plainWord (fs : List Field) : Bool :=
  fs.all (fun f => f.acc ≠ .wo
    && (f.acc ≠ .w1c || ((satCounter f).isNone && f ≠ Reg.AVS_STAT_AVS_LOST 0 && f ≠ Reg.AVS_STAT_AVS_LOST 1))
    && (f.acc ≠ .rw || !(within f.addr 0x40420010 0x40420020 || within f.addr 0x40600000 0x40600800
      || within f.addr 0x50004000 0x50004800)))

/-! ## Ground -/

/-- Every request that waits at a Ground target of die `d`, or holds one, is of one of the 24 requesters (R151). -/
def State.groundOk (s : State) (d : Die) : Prop :=
  ∀ g, g < 38 → (∀ q ∈ (s.gndTarget d g).waiting, q.req < 24) ∧ ∀ h ∈ (s.gndTarget d g).hold, h.rq.req < 24

/-- No error waits in what the grants of die `d` still move (R126). -/
def State.groundClean (s : State) (d : Die) : Prop := ∀ g, g < 38 → ∀ h ∈ (s.gndTarget d g).hold, h.rq.errs = []

/-! ## Couching (R458) -/

/-- A number from 0 below `n`. -/
def natBelow (n : Nat) (z : Int) : Bool := decide (0 ≤ z) && decide (z < n)

/-- `v` is what an item of the ladder engine's image can hold: of a band its level, changes and pin, of an arm its error and side, of a member
the count held, of the health records a word. -/
def ImageItem.fits : ImageItem → List Int → Bool
  | .band n, [h, c, q] => decide (n < 128) && natBelow (2 ^ (Reg.BAL_CH_H n).width) h
      && natBelow (2 ^ (Reg.BAL_CH_CHANGES n).width) c && natBelow (2 ^ (Reg.BAL_CH_PIN n).width) q
  | .arm a, [_, up] => decide (a < 8) && natBelow 2 up
  | .member node, [_] => decide (node < 0x1000)
  | .health i, [w] => decide (i < 512) && natBelow (2 ^ 32) w
  | _, _ => false

/-! ## Ethernet ports (R396) -/

/-- From `s`, frame `o` of rank `r` for port `p` leaves at once where the port is free with nothing waiting, and joins what waits
while a frame is in progress that does not give way to it. -/
def SendsOn (s t : State) (p r : Nat) (o : Output) : Prop :=
  ((s.ethOf p).queue = [] → (s.ethOf p).busyTo ≤ s.tb.ticks → t.out = s.ethFrame p o :: s.out) ∧
  (s.tb.ticks < (s.ethOf p).busyTo → s.ethYields p r = none → t.out = s.out ∧ (t.ethOf p).queue = (s.ethOf p).queue ++ [(r, s.ethFrame p o)])

/-- Frame `o` of rank `r` has left port `p` or waits there. -/
def State.handed (s : State) (p r : Nat) (o : Output) : Prop :=
  ∃ tci seq lan, .eth p tci seq lan o ∈ s.out ∨ (r, .eth p tci seq lan o) ∈ (s.ethOf p).queue

/-! ## What shared operations touch -/

/-- What posting an event touches. -/
def mPost : List Fld := [.bobs, .cores, .latched, .out]
/-- What a frame sent on an Ethernet port touches. -/
def mEth : List Fld := [.eth, .out]
/-- What a GOOSE publication touches. -/
def mGoose : List Fld := [.regs, .netPair, .goosePub, .gooseSt, .eth, .out]
/-- What the trip fabric touches. -/
def mTrip : List Fld := [.regs, .gen, .pins, .trip, .bobs, .cores, .latched, .out, .eth, .netPair, .goosePub, .gooseSt, .links]
/-- What a rise of the grade touches. -/
def mGrade : List Fld := mTrip ++ [.ram, .red, .tb, .nol, .servo]
/-- What a change of a lane's state touches: the lane, and what its user learns of it. -/
def mLane : List Fld := [.regs, .lanes, .links, .ptp, .servo, .tb] ++ mPost
/-- What the reception of a Nolri frame touches before anyone takes it. -/
def mNol : List Fld := [.regs, .links, .nol] ++ mPost

/-! ## Where commands find something to do -/

/-- The device takes a Nolri frame for itself: it finds room, passes its check, and is meant for the device (R361, R367). -/
def State.takesFrame (s : State) (l type : Nat) (h : NolHeader) (payload : List Byte) : Prop :=
  (s.nolReceive l type h true payload).2 = true

/-- It is the turn of CLE instruction `i`: the engine runs, the instruction stands at its program counter, and its condition
holds (R226, R227). -/
def State.cleTurn (s : State) (d : Die) (c : Nat) (i : CleInstr) : Prop :=
  s.cleIssues d c = true ∧ s.cleFetch d c = some i ∧ s.executes d c i = true

end Sys2Proof.Machine
end

