-- ==== Sys2Proof/Certificates/Slice0/Obligations.lean ====
section
/-! DEFINITION. The statements of this row, for the provers. `Completes i s P` says that command `i` answers a next state at `s`
and that this state meets `P`; `Frame m s t` says that of the parts of State only those in `m` may differ. -/

open Sys2Proof Sys2Proof.Machine

/-! ### The step, the queue, the memories -/

/-- A step takes the command at the front of the queue and is that command's effect with the queue's rest; on an empty queue
one tick passes: the time value takes the addend of the present tick (R61, R422), and nothing else changes (log entry 1). -/
def Obligations.StepRunsFront : Prop :=
  (∀ (c : Instr) (cs : List Instr) (s : State), step { s with pending := c :: cs } = exec c { s with pending := cs }) ∧
  ∀ s : State, s.pending = [] →
    step s = .next { s with tb := { s.tb with ticks := s.tb.ticks + 1, time := s.tb.time + s.addend } }

/-- No command changes the queue of waiting commands. The queue is the model's own, a choice of log entries 45 and 117; the spec
speaks of none. -/
def Obligations.QueueUntouched : Prop :=
  ∀ (i : Instr) (s t : State), exec i s = .next t → t.pending = s.pending

/-- Every step keeps the canonical form of RAM and flash: addresses strictly rising, no entry equal to what an unlisted
address reads as. -/
def Obligations.MemoryCanonicalStep : Prop :=
  ∀ s t : State, Memory.wf s = true → step s = .next t → Memory.wf t = true

/-- At reset the memories are canonical, every trip group is asserted, every gate pin is low, the addend is 2 ns (R62), the
grade is 0, and no command waits. -/
def Obligations.ResetState : Prop :=
  Memory.wf State.reset = true ∧ State.reset.io Reg.TRIP_STATE_ASSERTED = 0xFFFF ∧
  (∀ n, State.reset.gatesLow n = true) ∧ State.reset.addend = 0x200000000 ∧ State.reset.io Reg.RED_GRADE_GRADE = 0 ∧
  State.reset.pending = []

/-- Decoding the word of any CLE instruction whose fields fit gives the instruction back, with every operand at every value
its bits allow (R225, R226).
A 64-bit word that decodes to a CLE instruction is the word of that instruction: no two words spell one instruction, and no
bit of an encoding is dropped (R225, R226). -/
def Obligations.CleDecodeEncode : Prop :=
  (∀ i : CleInstr, i.fits = true → cleEncode i < 2 ^ 64 ∧ cleDecode (cleEncode i) = some i) ∧
  ∀ (x : Nat) (i : CleInstr), x < 2 ^ 64 → cleDecode x = some i → i.fits = true ∧ cleEncode i = x

/-! ### Registers and counters (R4, R9, R10, R455) -/

/-- A write of a register word gives each of its fields what its access code says, `x` being the field's bits of the word: RW holds
`x`, W1C loses the bits written as 1, SH holds `x` in its shadow (a bounded one its clamped value) and keeps its active value, RO and
PK stay, and a PK field written with another value posts event 255; every other register is as it was. The words are those whose
fields start nothing by being written (`plainWord`; an event route is one).
A write to the word of a command is that command. A write to a byte table posts event 255 where it would change it, and changes
nothing (R4). A write in the I/O die window by a die whose writes do not take effect leaves every active value, and all else but
the passive's comparison copy (R48, R455). One that finds the FIFO of its crossing filled is lost, with event 255 (R60). -/
def Obligations.RegisterWriteRw : Prop :=
  (∀ (d : Die) (j : Fin 256) (v : Word) (s : State),
    Completes (.registerWrite d (BitVec.ofNat 32 (Reg.EVC_ROUTE_EN j).addr) v false) s (fun t =>
      t.rd d (Reg.EVC_ROUTE_EN j) = v.toNat / 2 ^ 31 ∧ t.rd d (Reg.EVC_ROUTE_CLUSTER j) = v.toNat / 2 ^ 8 % 4 ∧
      t.rd d (Reg.EVC_ROUTE_DESC j) = v.toNat % 2 ^ 7 ∧
      RegsKept [(d, Reg.EVC_ROUTE_EN j), (d, Reg.EVC_ROUTE_CLUSTER j), (d, Reg.EVC_ROUTE_DESC j)] s t ∧ Frame [.regs] s t)) ∧
  (∀ (d : Die) (a v : Word) (s : State) (fs : List Field), Reg.fieldsAt a.toNat = some fs → plainWord fs = true →
    (inIod a.toNat = true → s.mayWrite d = true) → Completes (.registerWrite d a v false) s (fun t =>
      (∀ f ∈ fs,
        (f.acc = .rw → t.rd d f = v.toNat / 2 ^ f.lo % 2 ^ f.width) ∧
        (f.acc = .w1c → t.rd d f = s.rd d f - Nat.land (s.rd d f) (v.toNat / 2 ^ f.lo % 2 ^ f.width)) ∧
        (f.acc = .sh → t.rd d f = s.rd d f ∧ t.rdSh d f =
          (if f.addr < 0x50000000 then f.holds (v.toNat / 2 ^ f.lo % 2 ^ f.width) else v.toNat / 2 ^ f.lo) % 2 ^ f.width) ∧
        (f.acc = .ro ∨ f.acc = .pk → t.rd d f = s.rd d f) ∧
        (f.acc = .pk → v.toNat / 2 ^ f.lo % 2 ^ f.width ≠ s.rd d f →
          ∀ e, s.lost e = false → Output.event e 255 ∈ t.out)) ∧
      RegsKept (fs.map (fun f => (d, f))) s t ∧ Frame (.regs :: .shadow :: mPost) s t)) ∧
  (∀ (d : Die) (a v : Word) (i : Instr) (s : State), (inIod a.toNat = true → s.mayWrite d = true) →
    (a = 0x40500040 ∧ i = .tripFwSet d (BitVec.ofNat 16 v.toNat) ∨ a = 0x40500044 ∧ i = .tripFwClr d (BitVec.ofNat 16 v.toNat) ∨
      a = 0x4050004C ∧ i = .tripClr d (BitVec.ofNat 16 v.toNat) ∨ a = 0x40206084 ∧ i = .measCalReq d (BitVec.ofNat 16 v.toNat) ∨
      a = 0x50000130 ∧ i = .fwFallback d (BitVec.ofNat 8 v.toNat) ∨ a = 0x50008400 ∧ i = .gndLongClr d (BitVec.ofNat 24 v.toNat) ∨
      (v.toNat % 2 = 1 ∧ (a = 0x40D0005C ∧ i = .redCntClr d 0 ∨ ∃ u : Fin 8, a.toNat = 0x40207004 + 0x10 * u ∧ i = .measInjTrig d u))) →
    exec (.registerWrite d a v false) s = exec i s) ∧
  (∀ (d : Die) (a v : Word) (s : State), Reg.fieldsAt a.toNat = none → (inIod a.toNat = true → s.mayWrite d = true) →
    Completes (.registerWrite d a v false) s (fun t => Frame mPost s t ∧
      (inRanges tableRanges a.toNat 4 = true → s.ram32 2 a.toNat ≠ v.toNat → ∀ e, s.lost e = false → Output.event e 255 ∈ t.out))) ∧
  (∀ (d : Die) (a v : Word) (s : State), 0x40000000 ≤ a.toNat → a.toNat < 0x41000000 → s.mayWrite d = false →
    Completes (.registerWrite d a v false) s (fun t => t.regs = s.regs ∧ Frame [.shadowP] s t)) ∧
  ∀ (d : Die) (a v : Word) (s : State), 0x40000000 ≤ a.toNat → a.toNat < 0x41000000 →
    Completes (.registerWrite d a v true) s (fun t => (∀ e, s.lost e = false → Output.event e 255 ∈ t.out) ∧ Frame mPost s t)

/-- Clearing a SAT bit in a cycle that counts `n` events: the counter is zeroed, the events are added, and SAT sets only where
those events alone pass 0xFFFF_FFFF (R10); the grant counters of Ground wrap instead (R164).
RED_CNT_CLR zeroes the discord counter and counts the discords of its tick, which sticks at DISC_LIMIT and shows it
(R466, R481). -/
def Obligations.SatClearCounts : Prop :=
  (∀ (d : Die) (addr : Word) (bit : Fin 32) (n : Nat) (s : State) (p : Field × Field),
    satPairs.find? (fun p => p.1.addr = addr.toNat && p.1.lo = bit.val) = some p →
    (inIod addr.toNat = true → s.mayWrite d = true) →
    Completes (.satClear d addr bit n) s (fun t =>
      (grantOf p.1 = none → t.rd d p.2 = min n 0xFFFFFFFF ∧ t.rd d p.1 = (if n ≤ 0xFFFFFFFF then 0 else 1) ∧
        RegsKept [(d, p.1), (d, p.2)] s t) ∧
      (∀ i, grantOf p.1 = some i → t.rd d (Reg.GND_GRANT_CNT_COUNT i) = n % 2 ^ 32 ∧
        t.rd d (Reg.GND_CNT_STAT_WRAPS i) = min (n / 2 ^ 32) 0xFF) ∧
      Frame [.regs] s t)) ∧
  ∀ (d : Die) (n : Nat) (s : State), s.mayWrite d = true → s.io Reg.RED_CFG_DISC_LIMIT < 2 ^ Reg.RED_DISC_CNT_COUNT.width →
    Completes (.redCntClr d n) s (fun t =>
      t.io Reg.RED_DISC_CNT_COUNT = min n (s.io Reg.RED_CFG_DISC_LIMIT) ∧
      (t.io Reg.RED_DISC_STAT_AT_LIMIT = 1 ↔ s.io Reg.RED_CFG_DISC_LIMIT ≤ n) ∧
      RegsKept [(d, Reg.RED_DISC_CNT_COUNT), (d, Reg.RED_DISC_STAT_AT_LIMIT)] s t ∧
      Frame [.regs, .bobs, .cores, .latched, .out] s t)

/-! ### Reset, supplies, clocks (R37 to R54, R71, R72) -/

/-- PORST_N low for 1 µs or more leaves every gate low, every group asserted and the memories as they were; a pulse below 100 ns
does nothing; between them it does what the long pulse does, or nothing (R39). That the memories stay is the model's choice of log
entry 6. -/
def Obligations.PorstAssert : Prop :=
  ∀ (lowNs : Nat) (s : State),
    (1000 ≤ lowNs → Completes (.porstAssert lowNs) s (fun t => (∀ n, t.gatesLow n = true) ∧
      t.io Reg.TRIP_STATE_ASSERTED = 0xFFFF ∧ MemKept s t)) ∧
    (lowNs < 100 → exec (.porstAssert lowNs) s = .next s) ∧
    (100 ≤ lowNs → lowNs < 1000 → ∃ u, exec (.porstAssert lowNs) s = .next u ∧
      (Frame [.freeCtr] s u ∨ exec (.porstAssert 1000) { s with freeCtr := u.freeCtr } = .next u))

/-- The device leaves reset at the later of PORST_N release and the last rail, with the time value at 0 (R37, R63) and the strap's
first sample shown (R47), and a release with PORST_N high already does nothing (R39); the second sample shows an open strap where it differs (R47); gate pins are
driven low as VDD33_CH rises (R32). -/
def Obligations.LeavingReset : Prop :=
  (∀ (up te : Bool) (rails : BitVec 4) (s : State), s.pins.porstN = false → Completes (.porstRelease up te true rails) s (fun t =>
    t.tb.time = 0 ∧ t.rd .d0 Reg.SYS_STRAP_SAMPLE_UP = b2n up ∧ t.pins.porstN = true ∧ MemKept s t)) ∧
  (∀ (up te ok : Bool) (rails : BitVec 4) (s : State), s.pins.porstN = true → exec (.porstRelease up te ok rails) s = .next s) ∧
  (∀ s : State, s.power.railsOk = false → s.pins.porstN = true → Completes .lastRailInTolerance s (fun t =>
    t.tb.time = 0 ∧ t.power.railsOk = true ∧ MemKept s t)) ∧
  (∀ (dn : Bool) (s : State), Completes (.strapSecondSample dn) s (fun t =>
    t.rd .d0 Reg.SYS_STRAP_SAMPLE_DN = b2n dn ∧ t.rd .d1 Reg.SYS_STRAP_SAMPLE_DN = b2n dn ∧
    t.rd .d0 Reg.SYS_STRAP_OPEN = b2n (decide (s.rd .d0 Reg.SYS_STRAP_SAMPLE_UP = 1) != dn) ∧ Frame [.regs] s t)) ∧
  (∀ s : State, Completes .gatePadPowerOn s (fun t => t.pins.padPower = true ∧ (∀ n, t.gatesLow n = true) ∧
    Frame [.pins] s t))

/-- Out of reset, VDD_IOD, VDD18 or VDD33_CH below its threshold shuts the I/O die down: every gate low, SYNC_OUT and PICOT low, the
package source active; in the test state the boundary register keeps the pins (R40, R41, R52). A device in reset has nothing to shut
down, which it leaves with every rail within tolerance alone (R37). A rail back within its threshold
clears its bit of UV_NOW, whichever rail it is, and powers its pins (R32, R40, R48). The memories stay as they are. -/
def Obligations.RailUndervoltage : Prop :=
  (∀ (rail : IodRail) (s : State), s.pins.porstN = false ∨ s.power.railsOk = false →
    exec (.railUndervoltage rail) s = .next s) ∧
  (∀ (rail : IodRail) (s : State), s.pins.porstN = true → s.power.railsOk = true → Completes (.railUndervoltage rail) s (fun t =>
    ((rail = .vddIod ∨ rail = .vdd18 ∨ rail = .vdd33Ch) → t.power.shutdown = true ∧ t.trip.package = true ∧
      t.tb.released = s.tb.released ∧
      (s.testState = false → (∀ n, t.gatesLow n = true) ∧ t.pins.syncOut = false ∧ t.pins.picot = 0) ∧
      (s.testState = true → t.pins = s.pins)) ∧
    MemKept s t)) ∧
  ∀ (rail : IodRail) (s : State), Completes (.railRecovery rail) s (fun t =>
    bitOf (t.io Reg.IOD_RAIL_STAT_UV_NOW) (railBit rail) = false ∧
    MemKept s t ∧ t.power = { s.power with up := setBit s.power.up (railBit rail) true } ∧
    t.pins = { s.pins with padPower := s.pins.padPower || decide (railBit rail = 2) })

/-- Clock loss: no crystal edge for 2 µs, a window outside 3 920 to 4 080 edges, or a PLL of the I/O die unlocked sets XTAL_LOST
and takes the package to G4; a window within those bounds does nothing; a sensor at 120 °C for 1 ms takes it to G4 with cause
THERMAL (R54, R71, R72). The cause is that of the first rise of its tick (R481). -/
def Obligations.ClockLossAndOvertemp : Prop :=
  (∀ (i : Instr) (s : State), (i = .xtalEdgeTimeout ∨ i = .iodPllUnlock ∨ ∃ n, i = .xtalWindowEnd n ∧ (n < 3920 ∨ 4080 < n)) →
    s.power.clockLost = false → s.io Reg.RED_GRADE_GRADE < 4 →
    Completes i s (fun t => t.power.clockLost = true ∧ t.io Reg.TB_STAT_XTAL_LOST = 1 ∧ t.io Reg.RED_GRADE_GRADE = 4 ∧
      (s.red.gradeAt ≠ some s.tb.ticks → t.io Reg.RED_GRADE_CAUSE = causeClock) ∧ t.trip.package = true)) ∧
  (∀ (n : Nat) (s : State), 3920 ≤ n → n ≤ 4080 → exec (.xtalWindowEnd n) s = .next s) ∧
  ∀ s : State, s.io Reg.RED_GRADE_GRADE < 4 → Completes .overtempStop s (fun t =>
    t.io Reg.RED_GRADE_GRADE = 4 ∧ (s.red.gradeAt ≠ some s.tb.ticks → t.io Reg.RED_GRADE_CAUSE = causeThermal) ∧
    t.trip.package = true ∧ t.tb.released = false)

/-- The test access port: IDCODE shifts out 0x161285CB; SAMPLE shifts out the pins and loads the boundary register; in the test
state EXTEST and CLAMP drive the pins from it, EXTEST shifting out what it captures, and HIGHZ lets them float, and outside it no pin
moves; 0xFF and every unlisted code select bypass, whose bit then is 0. Only the port, the pins and what leaves the block change (R49 to R52).
The order of the cells in the captured word and the bypass bit are the model's choices of log entry 128, the pins that the boundary
register drives and how they return to the device its reading of log entry 120. -/
def Obligations.JtagCommands : Prop :=
  (∀ s : State, Completes .jtagIdcode s (fun t => t.out = .jtag 0x161285CB :: s.out ∧ t.jtag.ir = 0xFE ∧
    Frame [.jtag, .pins, .out] s t ∧ (s.testState = false → t.pins = s.pins))) ∧
  (∀ (b : BoundaryPins) (s : State), Completes (.jtagSamplePreload b) s (fun t => t.jtag.boundary = b ∧ t.jtag.ir = 0x01 ∧
    (∃ w, t.out = .jtag w :: s.out ∧ w % 2 ^ 128 = s.pins.gu.toNat ∧ w / 2 ^ 128 % 2 ^ 128 = s.pins.gl.toNat) ∧
    Frame [.jtag, .pins, .out, .freeCtr] s t ∧ (s.testState = false → t.pins = s.pins))) ∧
  (∀ (i : Instr) (s : State), (i = .jtagExtest ∨ i = .jtagClamp) → Completes i s (fun t =>
    (s.testState = true → t.pins.gu = s.jtag.boundary.gu ∧ t.pins.gl = s.jtag.boundary.gl ∧
      t.pins.syncOut = s.jtag.boundary.syncOut ∧ t.pins.picot = s.jtag.boundary.picot ∧ t.pins.highZ = false) ∧
    (i = .jtagExtest → s.testState = true → ∃ w, t.out = .jtag w :: s.out ∧ w % 2 ^ 128 = s.pins.gu.toNat ∧
      w / 2 ^ 128 % 2 ^ 128 = s.pins.gl.toNat) ∧
    (s.testState = false → t.pins = s.pins ∧ Frame [.jtag] s t) ∧ Frame [.jtag, .pins, .out, .freeCtr] s t)) ∧
  (∀ s : State, Completes .jtagHighz s (fun t => (s.testState = true → t.pins.highZ = true) ∧
    (s.testState = false → t.pins = s.pins) ∧ t.jtag.ir = 0x03 ∧ Frame [.jtag, .pins] s t)) ∧
  ∀ (code : Byte) (s : State), 3 < code.toNat → code.toNat ≠ 0xFE → Completes (.jtagBypass code) s (fun t =>
    t.jtag.ir = code ∧ t.jtag.bypass = false ∧ (s.testState = false → t.pins = s.pins) ∧ Frame [.jtag, .pins] s t)

/-- A fault that R468 lists takes a die in service out where it is not the worker, starts a takeover from the worker to a
PASSIVE die, and takes the package to G4 where none is: rail, PLL, lock parity, bride and heartbeat faults, each with its
cause (R42, R72, R128, R467, R468). The FAULT flag of a die that goes out is set; a die in RESET shows the fault and stays in
RESET; one that is OUT, RETIRED or ABSENT is not touched, though a lock parity error posts its event 241 on the die that serves. -/
def Obligations.DieFaults : Prop :=
  ∀ (i : Instr) (d : Die) (cause : Nat) (s : State),
    ((∃ r, i = .regionRailCrossing d r) ∧ cause = causeRail ∨ (∃ r, i = .regionPllUnlock d r) ∧ cause = causePll ∨
      i = .brideCrcFault d ∧ cause = causeBride ∨ i = .heartbeatFault d ∧ cause = causeHeartbeat ∨
      i = .lockParityError d ∧ cause = causeLockParity) →
    (s.lost d = true → Completes i s (fun t => (i ≠ .lockParityError d → t = s) ∧
      (i = .lockParityError d → ∀ e, s.lost e = false → Output.event e 241 ∈ t.out) ∧ Frame mPost s t)) ∧
    (s.dieState d = 5 → Completes i s (fun t => t.io (Reg.RED_DIE_FAULT d.toNat) = 1 ∧
      t.io (Reg.RED_DIE_CAUSE d.toNat) = cause ∧ t.dieState d = 5 ∧ Frame ([.regs, .ram, .red] ++ mPost) s t)) ∧
    (s.lost d = false → s.dieState d ≠ 5 → s.isWorker d = false → Completes i s (fun t => t.io (Reg.RED_DIE_FAULT d.toNat) = 1 ∧
      t.io (Reg.RED_DIE_CAUSE d.toNat) = cause ∧ (t.dieState d = 4 ∨ t.dieState d = 6))) ∧
    (s.isWorker d = true → s.inService d = true → s.red.checking = false → s.red.takeover = none → s.dieState d.other = 1 →
      Completes i s (fun t => t.red.takeover = some ⟨d, t.tb.ticks⟩ ∧ t.io (Reg.RED_DIE_CAUSE d.toNat) = cause)) ∧
    (s.isWorker d = true → s.inService d = true → s.red.checking = false → s.dieState d.other ≠ 1 →
      s.io Reg.RED_GRADE_GRADE < 4 → Completes i s (fun t => t.io Reg.RED_GRADE_GRADE = 4 ∧
        (s.red.gradeAt ≠ some s.tb.ticks → t.io Reg.RED_GRADE_CAUSE = causeNoDie)))

/-- AVSBus: a voltage write asks for 620 mV + 5 mV × VREQ; a status answer acknowledges the request last issued; any answer clears the
count of failures, and the third failure in a row, of writes and status reads together, stops the requests of the rail and sets
AVS_LOST (R43, R44). That the failures of each rail are counted apart, and that a write that fails leaves nothing to acknowledge, are
the model's choices of log entry 169. -/
def Obligations.AvsBus : Prop :=
  (∀ (d : Die) (r : Region) (a : AvsAnswer) (s : State), s.avsLost d r.toNat = false → Completes (.avsVoltageWrite d r a) s (fun t =>
    (∃ out, t.out = out ++ .avsVoltage d r (620 + 5 * s.rd d (Reg.AVS_STAT_VREQ r.toNat)) :: s.out) ∧
    (t.region d r.toNat).issued = (if a = .ok then some (s.rd d (Reg.AVS_STAT_VREQ r.toNat)) else (s.region d r.toNat).issued) ∧
    (a = .ok → tabGet 0 t.power.avsFail (2 * d.toNat + r.toNat) = 0 ∧ Frame [.out, .regions, .power] s t))) ∧
  (∀ (d : Die) (r : Region) (s : State), s.avsLost d r.toNat = false → Completes (.avsStatusRead d r .ok) s (fun t =>
    (∀ v, (s.region d r.toNat).issued = some v → t.rd d (Reg.AVS_STAT_VACK r.toNat) = v % 2 ^ (Reg.AVS_STAT_VACK r.toNat).width) ∧
    ((s.region d r.toNat).issued = none → t.rd d (Reg.AVS_STAT_VACK r.toNat) = s.rd d (Reg.AVS_STAT_VACK r.toNat)) ∧
    tabGet 0 t.power.avsFail (2 * d.toNat + r.toNat) = 0 ∧ RegsKept [(d, Reg.AVS_STAT_VACK r.toNat)] s t ∧
    Frame [.regs, .power] s t)) ∧
  (∀ (d : Die) (r : Region) (a : AvsAnswer) (i : Instr) (s : State), a ≠ .ok → s.avsLost d r.toNat = false →
    (i = .avsStatusRead d r a ∨ i = .avsVoltageWrite d r a) →
    (tabGet 0 s.power.avsFail (2 * d.toNat + r.toNat) < 2 → Completes i s (fun t =>
      tabGet 0 t.power.avsFail (2 * d.toNat + r.toNat) = tabGet 0 s.power.avsFail (2 * d.toNat + r.toNat) + 1 ∧
      t.avsLost d r.toNat = false ∧ Frame [.power, .out] s t)) ∧
    (2 ≤ tabGet 0 s.power.avsFail (2 * d.toNat + r.toNat) → Completes i s (fun t =>
      t.avsLost d r.toNat = true ∧ t.rd d (Reg.AVS_STAT_AVS_LOST r.toNat) = 1 ∧
      (∀ e, s.lost e = false → Output.event e 250 ∈ t.out) ∧ Frame ([.power, .regs] ++ mPost) s t))) ∧
  ∀ (d : Die) (r : Region) (a : AvsAnswer) (s : State), s.avsLost d r.toNat = true →
    exec (.avsVoltageWrite d r a) s = .next s

/-! ### The timebase (R65 to R69) -/

/-- At a boundary the period takes the number floor(t_b / CP_ns) mod 2^32, the next boundary lies one period later, the guard
opens, and the period before it is remembered (R65, R67, R69); an output set of an engine takes effect where it was committed
in time and agreed, and stays as it was otherwise (R69, R250); a set left uncommitted sets MISS (R69).
The guard of the next boundary begins GUARD ticks before its tick, which the clock reaches at the latest now; from then on no
commit of the period is accepted (R69). The echo marks that frames under way have shown by the boundary come with it (R301).
A read of TB_TIME_SEC_HI takes the whole time value for its reader, whose other words of the timebase then read from it;
the snapshots of other readers stay (R73). -/
def Obligations.PeriodBoundary : Prop :=
  (∀ (marks : List (Fin 128 × Nat)) (s : State), s.pins.porstN = true → s.power.railsOk = true →
    Completes (.periodBoundary marks) s (fun t =>
    t.io Reg.TB_PERIOD_NUM_K = s.tb.nextB / s.cpUnits % 2 ^ 32 ∧ t.tb.nextB = s.tb.nextB + s.cpUnits ∧
    t.tb.guarded = false ∧ t.tb.pTick = s.tb.bTick ∧ t.flash = s.flash ∧
    (∀ c : Fin 4, ∀ p ∈ setFields (setOut c), t.io p.2 = if s.enterPeriod.takesEffect (setOut c) then s.staged true p.1 % 2 ^ p.2.width
      else s.io p.2) ∧
    ((∃ n ∈ ioSets, s.misses n = true) → t.ioBit Reg.TB_STAT_MISS = true))) ∧
  (∀ (bad : List Word) (s : State), Completes (.commitGuardTick bad) s (fun t => t.inGuard = true ∧
    t.tb.ticks = max s.tb.ticks s.guardTick ∧ t.tb.time = s.tb.time + s.elapsed (t.tb.ticks - s.tb.ticks) ∧ t.flash = s.flash ∧
    (s.red.couching = false → Frame [.tb, .red] s t))) ∧
  ∀ (d : Die) (r : Fin 13) (s : State), Completes (.tbTimeSnapshot d r) s (fun t =>
    t.timeWord d r 0x40100008 = some (secOf s.tb.time / 2 ^ 32) ∧ t.timeWord d r 0x4010000C = some (secOf s.tb.time % 2 ^ 32) ∧
    t.timeWord d r 0x40100010 = some (nsOf s.tb.time) ∧ t.timeWord d r 0x40100014 = some (fracOf s.tb.time) ∧
    (∀ (e : Die) (q : Fin 13) (a : Nat), (e, q) ≠ (d, r) → t.timeWord e q a = s.timeWord e q a) ∧
    Frame [.tb] s t)

/-! ### Boot and field update (R77 to R119) -/

/-- The boot goes through its phases in their order: the ROM drives QSPI_RST_N high; a readable flash is noted with its size; a flash
with no table, of a size below 128 Mbit, or of one above 128 Mbit without 4-byte addressing is not readable and sends the boot to
maintenance-only mode; a loader or supervisor image that fails its checks does the same, with its result
noted, one that passes goes on, unless both dies boot and differ (R77, R94, R97, R105, R116). That out of its phase a command does
nothing is the model's choice of log entry 47. -/
def Obligations.BootPhases : Prop :=
  (∀ (e : Bool) (s : State), s.pins.porstN = true → s.power.railsOk = true → s.phase = phaseRom → s.openRewrite = none →
    Completes (.bootRomStart e) s (fun t => t.pins.qspiRstN = true ∧ t.rd .d0 Reg.BOOT_STAT_PHASE = phaseRom ∧
      t.rd .d1 Reg.BOOT_STAT_PHASE = phaseRom ∧ t.flash = s.flash ∧
      (s.dieBoots .d0 = true → s.dieBoots .d1 = true → Frame [.pins, .regs] s t))) ∧
  (∀ (x : FlashTable) (s : State), s.bootAt phaseRom = true → 128 ≤ x.sizeMbit → (128 < x.sizeMbit → x.fourByteAddr = true) →
    Completes (.flashDiscovery (some x)) s (fun t => t.boot.flashSize = 131072 * x.sizeMbit ∧ Frame [.boot] s t)) ∧
  (∀ (x : Option FlashTable) (s : State), s.bootAt phaseRom = true →
    (∀ y, x = some y → y.sizeMbit < 128 ∨ (128 < y.sizeMbit ∧ y.fourByteAddr = false)) →
    Completes (.flashDiscovery x) s (fun t => t.boot.flashOk = false ∧
    t.boot.server = .flash ∧ t.rd .d0 Reg.BOOT_STAT_PHASE = phaseMaint ∧ t.flash = s.flash)) ∧
  (∀ (e : Bool) (s : State), s.bootAt phaseStage1 = true → s.imageCheck (s.flashRd (imageBase 3 0)) 3 e = 0xFE →
    Completes (.iodsupVerify e) s (fun t => t.boot.server = .full ∧ t.boot.iodsupResult = 0xFE ∧ Frame [.boot] s t)) ∧
  (∀ (e : Bool) (s : State), s.bootAt phaseStage1 = true → s.imageCheck (s.flashRd (imageBase 3 0)) 3 e ≠ 0xFE →
    Completes (.iodsupVerify e) s (fun t => t.boot.server = .iodsup ∧ t.rd .d0 Reg.BOOT_STAT_PHASE = phaseMaint ∧
      t.boot.iodsupResult = s.imageCheck (s.flashRd (imageBase 3 0)) 3 e)) ∧
  (∀ (e : Bool) (s : State), s.bootAt phaseRom = true → s.imageCheck (s.flashRd (imageBase 2 0)) 2 e ≠ 0xFE →
    Completes (.stage1Verify e) s (fun t => t.boot.server = .stage1 ∧ t.rd .d0 Reg.BOOT_STAT_PHASE = phaseMaint ∧
      t.boot.stage1Result = s.imageCheck (s.flashRd (imageBase 2 0)) 2 e)) ∧
  (∀ (e : Bool) (s : State), s.bootAt phaseRom = true → s.imageCheck (s.flashRd (imageBase 2 0)) 2 e = 0xFE →
    s.dieBoots .d0 = true → s.dieBoots .d1 = true → s.diesMatch = false → Completes (.stage1Verify e) s (fun t =>
      t.boot.server = .differ ∧ t.rd .d0 Reg.BOOT_STAT_PHASE = phaseMaint)) ∧
  (∀ (e : Bool) (s : State), s.bootAt phaseRom = true → s.imageCheck (s.flashRd (imageBase 2 0)) 2 e = 0xFE →
    (s.dieBoots .d0 = true → s.dieBoots .d1 = true → s.diesMatch = true) →
    Completes (.stage1Verify e) s (fun t => t.boot.stage1 = s.imageInfo (imageBase 2 0) ∧
      t.rd .d0 Reg.BOOT_STAT_PHASE = phaseStage1 ∧ t.flash = s.flash)) ∧
  ∀ (i : Instr) (p : Nat) (s : State),
    ((∃ e, i = .bootRomStart e) ∧ p = phaseRom ∨ (∃ x, i = .flashDiscovery x) ∧ p = phaseRom ∨ (∃ e, i = .stage1Verify e) ∧ p = phaseRom ∨
      (∃ e, i = .iodsupVerify e) ∧ p = phaseStage1 ∨ (∃ a b, i = .prickingCopyCheck a b) ∧ p = phaseStage1 ∨
      (∃ e, i = .firmwareSlotCheck e) ∧ p = phaseFwVerify ∨ (∃ f a ts, i = .prickingApply f a ts) ∧ p = phaseApply) →
    s.phase ≠ p → exec i s = .next s

/-- The pricking copies are checked, and those that pass are ranked, of two the one with the later BOOT_SEQ first (R88, R89); with none left the device stays in
maintenance-only mode (R97); an application that finds no copy to apply does too, one that applies copy `c` keeps its digest
and the key slots it revokes, and the boot goes on to lane training where it has nothing to burn and its settings are read
(R87, R91, R94, R110). -/
def Obligations.PrickingCopies : Prop :=
  (∀ (ea eb : Bool) (s : State), s.bootAt phaseStage1 = true → Completes (.prickingCopyCheck ea eb) s (fun t =>
    t.rd .d0 (Reg.BOOT_COPY_STAT_RESULT 0) = (s.copyCheck 0 ea).1 % 2 ^ (Reg.BOOT_COPY_STAT_RESULT 0).width ∧
    t.rd .d0 (Reg.BOOT_COPY_STAT_RESULT 1) = (s.copyCheck 1 eb).1 % 2 ^ (Reg.BOOT_COPY_STAT_RESULT 1).width ∧
    (∀ c ∈ t.boot.ranked, (if c = 0 then s.copyCheck 0 ea else s.copyCheck 1 eb).1 = 0xFE) ∧
    ((s.copyCheck 0 ea).1 = 0xFE → 0 ∈ t.boot.ranked) ∧ ((s.copyCheck 1 eb).1 = 0xFE → 1 ∈ t.boot.ranked) ∧
    ((s.copyCheck 0 ea).1 = 0xFE → (s.copyCheck 1 eb).1 = 0xFE → t.boot.ranked =
      if later (t.rd .d0 (Reg.BOOT_SEQ_SEQ 1)) (t.rd .d0 (Reg.BOOT_SEQ_SEQ 0)) then [1, 0] else [0, 1]) ∧
    (t.boot.ranked = [] → t.rd .d0 Reg.BOOT_STAT_PHASE = phaseMaint) ∧
    (t.boot.ranked ≠ [] → t.rd .d0 Reg.BOOT_STAT_PHASE = phaseFwVerify) ∧ t.flash = s.flash)) ∧
  (∀ (f : BitVec 2) (p : Bool) (ts : ApplyTests) (s : State), s.booting = true → s.phase = phaseApply → s.boot.ranked = [] →
    Completes (.prickingApply f p ts) s (fun t => t.boot.server = .full ∧ t.rd .d0 Reg.BOOT_STAT_PHASE = phaseMaint)) ∧
  ∀ (f : BitVec 2) (p : Bool) (ts : ApplyTests) (s u : State) (c : Nat) (x : Stage), s.booting = true →
    s.phase = phaseApply → s.tryCopies f 0 s.boot.ranked = (u, some (c, x)) →
    Completes (.prickingApply f p ts) s (fun t => t.boot.revokes = u.revokeList x.recs ∧
      t.boot.prick.digest = Config.shake256 (u.flashBytes (copyBase c) (field (u.flashBytes (copyBase c) 64) 0x14 4)) ∧
      (t.boot.revokes = [] → t.boot.settingsLost = false → t.rd .d0 Reg.BOOT_STAT_PHASE = phaseLanes) ∧ t.flash = u.flash)

/-- Firmware slots: with no candidate the device stays in maintenance-only mode; the first candidate, where it
passes, runs and the boot goes to APPLY (R107, R108); the confirmation makes the TRIAL slot ACTIVE and the other, where it was ACTIVE,
STANDBY, in the journal and in what both dies show, posts event 255 and touches neither RAM nor pins (R108); the firmware's own fallback during APPLY marks the running slot and leaves every gate low, and outside APPLY
only posts event 255 (R111).
A rewrite of a privileged image does one sector a command, which then holds the bytes of the staging slot up to the image's end and
is erased beyond, and with no sector left ends: nothing but flash, the rewrite and, at the end, registers change (R114). Writes that
find the FIFO into the flash filled are lost, with event 255 (R60). -/
def Obligations.FirmwareSlots : Prop :=
  ((∀ (e : BitVec 2) (s : State), s.bootAt phaseFwVerify = true →
    ((((s.retireSpent 0).retireSpent 1).showSlot 0 (e.getLsbD 0)).showSlot 1 (e.getLsbD 1)).slotOrder = [] →
    Completes (.firmwareSlotCheck e) s (fun t => t.boot.server = .full ∧ t.rd .d0 Reg.BOOT_STAT_PHASE = phaseMaint)) ∧
  (∀ (e : BitVec 2) (s u : State) (n : Nat) (ns : List Nat), s.bootAt phaseFwVerify = true →
    u = (((s.retireSpent 0).retireSpent 1).showSlot 0 (e.getLsbD 0)).showSlot 1 (e.getLsbD 1) → u.slotOrder = n :: ns →
    u.imageCheck (u.flashRd (imageBase 1 n)) 1 (e.getLsbD n) = 0xFE →
    Completes (.firmwareSlotCheck e) s (fun t => t.boot.fwRuns = true ∧ t.rd .d0 Reg.BOOT_STAT_PHASE = phaseApply ∧
      t.rd .d0 Reg.BOOT_STAT_FW_SLOT = n % 2 ^ Reg.BOOT_STAT_FW_SLOT.width)) ∧
  (∀ (n : Nat) (s u : State), s.boot.fwRuns = true → n = s.rd (s.worker.getD .d0) Reg.BOOT_STAT_FW_SLOT →
    (s.slotEntry n).1 = slotTrial → (s.phase = phaseReady ∨ s.phase = phaseRun) → u = s.setSlotState n slotActive →
    Completes (.slotConfirm false) s (fun t =>
      (s.lost .d0 = false → Output.event .d0 255 ∈ t.out) ∧ t.ram = s.ram ∧ t.pins = s.pins ∧
      (∀ d, t.rd d (Reg.FW_SLOT_STAT_STATE n) = slotActive) ∧
      ((u.slotEntry (1 - n)).1 = slotActive → t.flash = (u.setSlotState (1 - n) slotStandby).flash ∧
        ∀ d, t.rd d (Reg.FW_SLOT_STAT_STATE (1 - n)) = slotStandby) ∧
      ((u.slotEntry (1 - n)).1 ≠ slotActive → t.flash = u.flash ∧
        ∀ d, t.rd d (Reg.FW_SLOT_STAT_STATE (1 - n)) = s.rd d (Reg.FW_SLOT_STAT_STATE (1 - n))))) ∧
  (∀ s : State, Completes (.slotConfirm true) s (fun t => t.flash = s.flash ∧ t.ram = s.ram ∧ t.pins = s.pins)) ∧
  (∀ (d : Die) (n : Fin 2) (s : State), s.phase = phaseApply → s.isWorker d = true → s.rd d Reg.BOOT_STAT_FW_SLOT = n.val →
    Completes (.fwFallback d 0xFB) s (fun t => t.rd .d0 (Reg.FW_SLOT_STAT_REVERT n) = 1 ∧ (∀ n, t.gatesLow n = true) ∧
    t.tb.ticks = s.tb.ticks)) ∧
  ∀ (d : Die) (k : Byte) (s : State), s.phase ≠ phaseApply → Completes (.fwFallback d k) s (fun t =>
    Frame [.bobs, .cores, .latched, .out] s t ∧ (s.lost .d0 = false → Output.event .d0 255 ∈ t.out))) ∧
  ∀ (r : Rewrite) (i : Nat) (is : List Nat) (s : State), s.rewrite = some r → r.todo = i :: is →
    Completes (.rewriteSectorDone false) s (fun t =>
      (i < 64 → r.kind ≠ 1 → ∀ o, o < 4096 → t.flash8 (imageBase r.kind 0 + 4096 * i + o) =
        if 4096 * i + o < r.len then s.flash8 (imageBase 1 r.slot + 4096 * i + o) else 0xFF) ∧
      (is ≠ [] → t.rewrite = some { r with todo := is } ∧ Frame [.flash, .rewrite] s t) ∧
      (is = [] → t.rewrite = none ∧ Frame [.flash, .rewrite, .regs] s t)) ∧
    Completes (.rewriteSectorDone true) s (fun t => t.flash = s.flash)

/-- The other commands of the boot: a die that fails its ROM self-check is ABSENT and the package at G2 at least (R98); a burnt fuse shows its slot revoked, and
one that does not read back posts event 255 (R87); the lane window and the membership window end their phases (R94, R95); the
boot record, with its CRC, goes to the next free place of its own area, once, and no other byte but a sector that opens is written
(R99); it is lost, with event 255, where the FIFO into the flash is filled (R60). -/
def Obligations.BootCommands : Prop :=
  (∀ (d : Die) (s : State), s.phase = phaseRom → s.dieBoots d = true → s.dieBoots d.other = true →
    Completes (.romSelfCheck d false) s (fun t => t.dieState d = 7 ∧ t.io (Reg.RED_DIE_CAUSE d.toNat) = causeRom ∧
      t.dieBoots d.other = true ∧ 2 ≤ t.io Reg.RED_GRADE_GRADE ∧ Frame (.boot :: mGrade) s t)) ∧
  (∀ (k : Fin 4) (s : State), k.val ∈ s.boot.revokes → Completes (.revokeFuseBurn k true) s (fun t =>
    bitOf (t.rd .d0 Reg.SEC_FUSE_CFG_KEY_REVOKED) k = true ∧ t.boot.revokes = s.boot.revokes.filter (· ≠ k.val) ∧
    Frame [.regs, .boot] s t)) ∧
  (∀ (k : Fin 4) (s : State), k.val ∈ s.boot.revokes → s.lost .d0 = false → Completes (.revokeFuseBurn k false) s (fun t =>
    t.rd .d0 Reg.SEC_FUSE_CFG_KEY_REVOKED = s.rd .d0 Reg.SEC_FUSE_CFG_KEY_REVOKED ∧ Output.event .d0 255 ∈ t.out)) ∧
  (∀ s : State, s.phase = phaseLanes → Completes .laneWindowClose s (fun t => t.phase = phaseMembership ∧
    RegsKept [(.d0, Reg.BOOT_STAT_PHASE), (.d1, Reg.BOOT_STAT_PHASE)] s t ∧ Frame [.regs] s t)) ∧
  (∀ s : State, s.phase = phaseMembership → Completes .membershipWindowClose s (fun t => t.phase = phaseReady ∧
    t.boot.readyTick = some s.tb.ticks ∧ Frame (.boot :: mGoose) s t)) ∧
  ∀ (f : Bool) (p : Nat × Nat) (s : State), p = s.nextFree bootLogBase 64 0 1024 (latest 0 (s.validPlaces bootLogBase 0x10000 64)) →
    (s.recordDue = false → exec (.bootRecordWrite f) s = .next s) ∧
    (s.recordDue = true → Completes (.bootRecordWrite false) s (fun t => t.boot.recorded = true ∧ Frame [.flash, .boot] s t ∧
      p.1 < 1024 ∧ t.flashBytes (bootLogBase + 64 * p.1) 64 = withCrc (s.bootRecord p.2) ∧
      (∀ o, o < bootLogBase + 64 * p.1 ∨ bootLogBase + 64 * p.1 + (if 64 * p.1 % 4096 = 0 then 4096 else 64) ≤ o →
        t.flash8 o = s.flash8 o))) ∧
    (s.recordDue = true → Completes (.bootRecordWrite true) s (fun t => t.boot.recorded = true ∧ t.flash = s.flash))

/-! ### The maintenance path (R117, R118, R402 to R408) -/

/-- A request the device takes (R403) joins the queue at its end while there is room, whatever its operation, one of an unknown VER or
OP or of a wrong LEN as BAD_OP (R405); with the queue full it is answered BUSY at once and nothing is queued (R402, R408). A request
it does not take changes nothing. -/
def Obligations.MaintRequests : Prop :=
  ∀ (i : Instr) (h : MaintHeader) (op : MaintOp) (s : State),
    ((∃ a n p, i = .read h a n p ∧ op = .read a.toNat n.toNat p) ∨ (∃ j, i = .readSignal h j ∧ op = .readSignal j.toNat) ∨
      (∃ o n, i = .identity h o n ∧ op = .identity o.toNat n.toNat) ∨
      (∃ k n, i = .deliverBegin h k n ∧ op = .begin k.toNat n.toNat) ∨
      (∃ o b, i = .deliverData h o b ∧ op = .data o.toNat b) ∨
      (∃ c rb re, i = .deliverEnd h c rb re ∧ op = .finish c.toNat rb re) ∨
      (i = .deliverStat h ∧ op = .stat)) →
    (s.takesRequest h (opCodeOf h op) = false → exec i s = .next s) ∧ (s.takesRequest h (opCodeOf h op) = true →
    (s.maint.queue.length < s.mntRoom → Completes i s (fun t =>
      t.maint.queue = s.maint.queue ++ [⟨h.port, h.mac.toNat, opCodeOf h op, h.tag.toNat,
        if h.ver = 1 ∧ h.lenOk ∧ h.badOp = none then op else .bad⟩] ∧ Frame [.maint] s t)) ∧
    (s.mntRoom ≤ s.maint.queue.length → Completes i s (fun t =>
      (∀ p ∈ s.pairPorts h.port,
        t.handed p rankMaint (.maint h.port h.mac.toNat (maintBytes (opCodeOf h op) h.tag.toNat mntBusy []))) ∧
      (s.pairMode (h.port / 2) = 0 →
        SendsOn s t h.port rankMaint (.maint h.port h.mac.toNat (maintBytes (opCodeOf h op) h.tag.toNat mntBusy []))) ∧
      Frame (.netPair :: mEth) s t)))

/-- The request at the head of the queue is answered on its port with its tag, on both ports of a pair in PRP or HSR, and leaves
the queue (R403, R408); READ of up to 256 words
of a readable area answers them, of any other range BAD_ADDR; a request of the wrong form BAD_OP; a delivery that
times out ends with its state shown (R404 to R407).
ATTEST joins the queue like any other, starts the signing of a report over its nonce when it is the next, and is answered BUSY while
one is being signed; the signed report is returned whole with its signature, and the request leaves the queue (R117, R118, R408). -/
def Obligations.MaintAnswers : Prop :=
  ((∀ (q : MaintReq) (qs : List MaintReq) (s : State), s.maint.queue = q :: qs → s.signsHead = false →
    Completes (.maintRequestAnswered false false) s (fun t =>
    t.maint.queue = qs ∧ ∃ st data,
      (∀ p ∈ s.pairPorts q.port, t.handed p rankMaint (.maint q.port q.mac (maintBytes q.code q.tag st data))) ∧
      (s.pairMode (q.port / 2) = 0 → (s.ethOf q.port).queue = [] → (s.ethOf q.port).busyTo ≤ s.tb.ticks →
        t.out.head? = some (s.ethFrame q.port (.maint q.port q.mac (maintBytes q.code q.tag st data)))) ∧
      (∀ a n, q.op = .read a n false → s.boot.server = .full → (s.readArea a n = none → st = mntBadAddr ∧ data = []) ∧
        (s.readArea a n ≠ none → st = mntOk ∧ data.length = 4 * n)) ∧
      (q.op = .bad → st = mntBadOp ∧ data = []))) ∧
  ∀ (x : Delivery) (s : State), s.maint.deliv = some x → exec (.deliveryTimeout true) s = .next s ∧
    Completes (.deliveryTimeout false) s (fun t => t.maint.deliv = none ∧
    t.io Reg.MNT_DELIV_STATE = 3 ∧ t.io Reg.MNT_DELIV_LAST = mntTimeout)) ∧
  (∀ (h : MaintHeader) (n : BitVec 128) (s : State), s.boot.server = .full → h.bcast = false → h.ver = 1 → h.lenOk = true →
    h.badOp = none →
    (s.maint.signing = none → s.maint.queue.length < 4 → Completes (.attest h n) s (fun t =>
      t.maint.queue = s.maint.queue ++ [⟨h.port, h.mac.toNat, opAttest, h.tag.toNat, .attest n.toNat⟩] ∧
      (s.maint.queue = [] → ∃ bs, t.maint.signing = some (h.port.val, h.mac.toNat, h.tag.toNat, bs) ∧
        slice bs 8 16 = bytesOf 16 n.toNat) ∧ Frame [.maint] s t)) ∧
    (s.maint.signing ≠ none ∨ 4 ≤ s.maint.queue.length → Completes (.attest h n) s (fun t =>
      (∀ p ∈ s.pairPorts h.port, t.handed p rankMaint (.maint h.port h.mac.toNat (maintBytes opAttest h.tag.toNat mntBusy []))) ∧
      (s.pairMode (h.port / 2) = 0 → SendsOn s t h.port rankMaint (.maint h.port h.mac.toNat (maintBytes opAttest h.tag.toNat mntBusy []))) ∧
      Frame (.netPair :: mEth) s t))) ∧
  ∀ (p m g : Nat) (bs : List Byte) (s : State), s.maint.signing = some (p, m, g, bs) → Completes (.attestReportSigned false) s (fun t =>
    (∀ q ∈ s.pairPorts p, t.handed q rankMaint (.maint p m (maintBytes opAttest g mntOk (bs ++ Config.falconSign bs)))) ∧
    (s.pairMode (p / 2) = 0 → SendsOn s t p rankMaint (.maint p m (maintBytes opAttest g mntOk (bs ++ Config.falconSign bs)))) ∧
    t.maint.queue = s.maint.queue.tail ∧ (s.maint.queue.length ≤ 1 → t.maint.signing = none) ∧
    Frame (.maint :: .netPair :: mEth) s t)

/-! ### Cores, Bobbin and locks (R121 to R148) -/

/-- A command of a core that does not run (waiting, faulted, halted, stalled by a self-check, or its die lost) changes nothing: none of
its instructions, nor its task watchdog (R138, R139, R147, R465). That such a command leaves the whole state as it is is the model's
choice of log entry 14. -/
def Obligations.StalledCore : Prop :=
  ∀ (i : Instr) (d : Die) (c : Fin 12) (s : State), s.coreRuns d c = false →
    ((∃ r, i = .fzTwait d c r) ∨ (∃ r a b, i = .fzTpost d c r a b) ∨ (∃ r a, i = .fzTcancel d c r a) ∨
      (∃ r a, i = .fzLock d c r a) ∨ (∃ r a, i = .fzUnlock d c r a) ∨ (∃ r a f, i = .fzCommit d c r a f) ∨
      (∃ r a w e f, i = .coreLoad d c r a w e f) ∨ (∃ a w v e f b, i = .coreStore d c a w v e f b) ∨
      (∃ r o a v e, i = .coreAtomic d c r o a v e) ∨ i = .taskWatchdog d c) →
    exec i s = .next s

/-- FZ.LOCK takes a free lock and returns 0, a broken one and returns 2, and leaves a held one, returning 3 to its owner and 1 to
any other core; no other lock of either die changes. Where the owner took it in the same tick, the first of the two cores after the
last owner has it (R146). FZ.UNLOCK by the owner frees it and returns 0; any other returns 1, leaves it
and posts event 242 (R144). A result for x0 is discarded (R131). -/
def Obligations.Locks : Prop :=
  (∀ (d : Die) (c : Fin 12) (r : Fin 32) (rs1 : Word) (s : State), s.coreRuns d c = true →
    (∀ o, s.lock d (bitsAt rs1.toNat 0 6) = .held o → o = c.val ∨
      (s.lockWas d (bitsAt rs1.toNat 0 6)).at_ ≠ some s.tb.ticks) → Completes (.fzLock d c r rs1) s (fun t =>
    ((t.core d c).rd = if r = 0 then (s.core d c).rd else match s.lock d (bitsAt rs1.toNat 0 6) with
      | .free => 0 | .broken => 2 | .held o => if o = c.val then 3 else 1) ∧
    (t.lock d (bitsAt rs1.toNat 0 6) = match s.lock d (bitsAt rs1.toNat 0 6) with
      | .held o => .held o | _ => .held c.val) ∧
    (∀ l, l ≠ bitsAt rs1.toNat 0 6 → l < 64 → t.lock d l = s.lock d l) ∧
    (∀ l, l < 64 → t.lock d.other l = s.lock d.other l) ∧
    Frame [.regs, .locks, .lockLast, .cores] s t)) ∧
  (∀ (d : Die) (c o : Fin 12) (r : Fin 32) (rs1 : Word) (s : State) (w : LockWas), s.coreRuns d c = true →
    s.lock d (bitsAt rs1.toNat 0 6) = .held o.val → o ≠ c → w = s.lockWas d (bitsAt rs1.toNat 0 6) →
    w.at_ = some s.tb.ticks → Completes (.fzLock d c r rs1) s (fun t =>
      (lockTurn w.prev c < lockTurn w.prev o → t.lock d (bitsAt rs1.toNat 0 6) = .held c.val ∧
        (t.core d o).rd = (if w.rd = 0 then (s.core d o).rd else 1) ∧
        (r ≠ 0 → (t.core d c).rd = BitVec.ofNat 32 w.st)) ∧
      (lockTurn w.prev o ≤ lockTurn w.prev c → t.lock d (bitsAt rs1.toNat 0 6) = .held o.val ∧
        (r ≠ 0 → (t.core d c).rd = 1)) ∧
      Frame [.regs, .locks, .lockLast, .cores] s t)) ∧
  ∀ (d : Die) (c : Fin 12) (r : Fin 32) (rs1 : Word) (s : State), s.coreRuns d c = true →
    (s.lock d (bitsAt rs1.toNat 0 6) = .held c.val → Completes (.fzUnlock d c r rs1) s (fun t =>
      t.lock d (bitsAt rs1.toNat 0 6) = .free ∧ (t.core d c).rd = (if r = 0 then (s.core d c).rd else 0) ∧
      (∀ l, l ≠ bitsAt rs1.toNat 0 6 → l < 64 → t.lock d l = s.lock d l) ∧
      (∀ l, l < 64 → t.lock d.other l = s.lock d.other l) ∧ Frame [.regs, .locks, .cores] s t)) ∧
    (s.lock d (bitsAt rs1.toNat 0 6) ≠ .held c.val → Completes (.fzUnlock d c r rs1) s (fun t =>
      t.locks = s.locks ∧ (r ≠ 0 → (t.core d c).rd = 1) ∧ Output.event d 242 ∈ t.out ∧
      (r = 0 → (∀ k, (s.bob d k).cancelsNow s.tb.ticks = []) → (t.core d c).rd = (s.core d c).rd) ∧
      Frame [.bobs, .latched, .cores, .out] s t))

/-- Bobbin: FZ.TPOST of a descriptor that is not valid, or of the spare cluster, returns 2 and posts nothing; a delayed post with a
free slot returns 0 and stands last in the delay list; FZ.TWAIT with nothing ready waits; FZ.TCANCEL takes every undispatched
entry of its descriptor from both lists and returns whether there was one, one of another core or source dispatched in the tick of its
post among them, or LATE where a core has been dispatched to an older one in the same tick (R132, R133, R136, R138, R142). A result for x0 is discarded (R131). -/
def Obligations.BobbinPosts : Prop :=
  (∀ (d : Die) (c : Fin 12) (r : Fin 32) (rs1 rs2 : Word) (s : State), s.coreRuns d c = true →
    ((s.bit d (Reg.BOB_DESC_VALID (bitsAt rs1.toNat 8 2) (bitsAt rs1.toNat 0 7)) = false ∨
      bitsAt rs1.toNat 8 2 = s.spare d) →
      Completes (.fzTpost d c r rs1 rs2) s (fun t => (t.core d c).rd = (if r = 0 then (s.core d c).rd else 2) ∧
        Frame [.cores] s t)) ∧
    (s.bit d (Reg.BOB_DESC_VALID (bitsAt rs1.toNat 8 2) (bitsAt rs1.toNat 0 7)) = true →
      bitsAt rs1.toNat 8 2 ≠ s.spare d → bitsAt rs2.toNat 0 16 ≠ 0 → (s.bob d (bitsAt rs1.toNat 8 2)).delaySlots < 64 →
      (∀ x ∈ (s.bob d (bitsAt rs1.toNat 8 2)).cancelsNow s.tb.ticks, x.desc ≠ bitsAt rs1.toNat 0 7) → Completes (.fzTpost d c r rs1 rs2) s (fun t => (t.core d c).rd = (if r = 0 then (s.core d c).rd else 0) ∧
        (t.bob d (bitsAt rs1.toNat 8 2)).delay = (s.bob d (bitsAt rs1.toNat 8 2)).delay ++
          [(bitsAt rs2.toNat 0 16, ⟨bitsAt rs1.toNat 0 7, bitsAt rs1.toNat 16 16, true, c / 3,
            s.rd d (Reg.BOB_DESC_PRIO (bitsAt rs1.toNat 8 2) (bitsAt rs1.toNat 0 7)), s.tb.ticks, .core c r⟩)] ∧ Frame [.cores, .bobs] s t))) ∧
  (∀ (d : Die) (c : Fin 12) (r : Fin 32) (s : State), s.coreRuns d c = true → (s.bob d (c / 3)).ready = [] →
    (s.bob d (c / 3)).cancelsNow s.tb.ticks = [] → Completes (.fzTwait d c r) s (fun t => (t.core d c).mode = .waiting ∧ (t.core d c).bulk = false ∧
      (t.core d c).waitRd = r ∧ Frame [.cores] s t)) ∧
  ∀ (d : Die) (c : Fin 12) (r : Fin 32) (rs1 : Word) (s : State), s.coreRuns d c = true →
    (s.bob d (bitsAt rs1.toNat 8 2)).held = [] → Completes (.fzTcancel d c r rs1) s (fun t =>
      (∀ p ∈ (t.bob d (bitsAt rs1.toNat 8 2)).delay, p.2.desc ≠ bitsAt rs1.toNat 0 7) ∧
      (∀ p ∈ (t.bob d (bitsAt rs1.toNat 8 2)).ready, p.desc ≠ bitsAt rs1.toNat 0 7) ∧
      (r ≠ 0 → (s.bob d (bitsAt rs1.toNat 8 2)).cancelsNow s.tb.ticks = [] →
        ((∀ k ∈ clusterCores (bitsAt rs1.toNat 8 2), k ≠ c.val → s.dispatchedNow d k (bitsAt rs1.toNat 0 7) false c = false) →
          (t.core d c).rd = if (clusterCores (bitsAt rs1.toNat 8 2)).any (fun k => decide (k ≠ c.val) &&
              s.dispatchedNow d k (bitsAt rs1.toNat 0 7) true c) = true ∨
            (s.bob d (bitsAt rs1.toNat 8 2)).without (bitsAt rs1.toNat 0 7) ≠ s.bob d (bitsAt rs1.toNat 8 2) then 1 else 0) ∧
        ((∃ k ∈ clusterCores (bitsAt rs1.toNat 8 2), k ≠ c.val ∧ s.dispatchedNow d k (bitsAt rs1.toNat 0 7) false c = true) →
          (t.core d c).rd = 2)) ∧
      Frame [.bobs, .latched, .cores] s t)

/-- A Bobbin tick edge: the clock runs to the next edge, every delay of the cluster falls by the edges that count for it, which is one
for an entry posted before the last edge, and an entry at its last edge leaves the delay list; no other cluster's lists change
(R136, R137). The edges stand at multiples of the Bobbin tick from tick 0, the model's choice of log entry 155. -/
def Obligations.DelayExpiry : Prop :=
  (∀ (d : Die) (c : Fin 4) (s : State), Completes (.delayExpiry d c) s (fun t =>
    t.tb.ticks = s.nextEdge d c ∧ t.tb.time = s.tb.time + s.elapsed (s.nextEdge d c - s.tb.ticks) ∧
    (t.bob d c).delay = ((s.bob d c).delay.map (fun p => (p.1 - s.edgesFor d c (s.nextEdge d c) p.2, p.2))).filter (fun p => p.1 ≠ 0) ∧
    (∀ (e : Die) (k : Nat), k < 4 → (e, k) ≠ (d, c.val) → t.bob e k = s.bob e k) ∧
    Frame [.tb, .bobs, .latched, .cores] s t)) ∧
  ∀ (d : Die) (c : Fin 4) (x : Task) (s : State), (s.bob d c).edge % s.bobTick d c = 0 → x.entered ≤ (s.bob d c).edge →
    s.tb.ticks ≤ (s.bob d c).edge + s.bobTick d c →
    s.nextEdge d c = (s.bob d c).edge + s.bobTick d c ∧ s.edgesFor d c (s.nextEdge d c) x = 1

/-- FZ.COMMIT: a set of the I/O die below 0x400, committed by the worker before the guard with no die PASSIVE, is staged whole
and 0 is returned; inside the guard
nothing stays staged and 1 is returned; a number that names no set returns 2 and commits nothing (R69, R134); a commit that finds the
FIFO of its crossing filled is lost, with event 255 (R60). A result for x0 is discarded (R131). -/
def Obligations.Commits : Prop :=
  (∀ (d : Die) (c : Fin 12) (r : Fin 32) (rs1 : Word) (s : State), s.coreRuns d c = true → bitsAt rs1.toNat 0 12 ∈ ioSets →
    s.mayWrite d = true → s.inGuard = true → Completes (.fzCommit d c r rs1 false) s (fun t =>
      (t.core d c).rd = (if r = 0 then (s.core d c).rd else 1) ∧ (t.setOf (bitsAt rs1.toNat 0 12)).staged = false ∧
      (t.setOf (bitsAt rs1.toNat 0 12)).missed = true ∧ t.regs = s.regs ∧ Frame [.cores, .sets, .shadow] s t)) ∧
  (∀ (d : Die) (c : Fin 12) (r : Fin 32) (rs1 : Word) (s : State), s.coreRuns d c = true → bitsAt rs1.toNat 0 12 ∈ ioSets →
    bitsAt rs1.toNat 0 12 < 0x400 → s.mayWrite d = true → s.inGuard = false → s.hasPassive = false →
    Completes (.fzCommit d c r rs1 false) s (fun t =>
      (t.core d c).rd = (if r = 0 then (s.core d c).rd else 0) ∧ (t.setOf (bitsAt rs1.toNat 0 12)).staged = true ∧
      (∀ p ∈ setFields (bitsAt rs1.toNat 0 12), t.staged true p.1 = s.rdSh .d0 p.1 % 2 ^ p.1.width) ∧
      t.regs = s.regs ∧ Frame [.cores, .sets, .stagedW] s t)) ∧
  (∀ (d : Die) (c : Fin 12) (r : Fin 32) (rs1 : Word) (s : State), s.coreRuns d c = true → bitsAt rs1.toNat 0 12 ∈ ioSets →
    Completes (.fzCommit d c r rs1 true) s (fun t => (∀ e, s.lost e = false → Output.event e 255 ∈ t.out) ∧
      Frame (.freeCtr :: mPost) s t)) ∧
  ∀ (d : Die) (c : Fin 12) (r : Fin 32) (rs1 : Word) (s : State), s.coreRuns d c = true → bitsAt rs1.toNat 0 12 ∉ ioSets →
    dieSetFields (bitsAt rs1.toNat 0 12) = [] → Completes (.fzCommit d c r rs1 false) s (fun t =>
      (t.core d c).rd = (if r = 0 then (s.core d c).rd else 2) ∧ Frame [.cores] s t)

/-- A core fault stops the core, drops its reservation and writes its record: cause, mepc and mtval (R147); a task that
reaches RUN_LIMIT is one with cause 0x11, RUN_LIMIT after its dispatch, and a core with no dispatched task meets no limit
(R139); the word of a vendor instruction is no illegal one (R131).
The locks of a faulted core become BROKEN, and no others (R145); a faulted core restarts in FZ.TWAIT at CORE_RESTART's vector
(R130, R147). -/
def Obligations.CoreFaults : Prop :=
  ((∀ (d : Die) (c : Fin 12) (cause : Byte) (epc tval : Word) (s : State), (s.core d c).mode = .running →
    s.lost d = false → cause.toNat ≠ causeEcc → (cause.toNat = excIllegal → fzDecode tval = none) → tabGet [] s.faultTicks (8 * d.toNat + 2 * (c / 3)) = [] →
    Completes (.coreFault d c cause epc tval) s (fun t => (t.core d c).mode = .faulted ∧ (t.core d c).resv = none ∧
      t.rd d (Reg.CORE_FAULT_REC0_CAUSE c) = cause.toNat ∧ t.rd d (Reg.CORE_FAULT_REC1_EPC c) = epc.toNat ∧
      t.rd d (Reg.CORE_FAULT_REC2_TVAL c) = tval.toNat ∧ Output.event d 240 ∈ t.out)) ∧
  (∀ (d : Die) (c : Fin 12) (cause : Byte) (epc tval : Word) (s : State), cause.toNat = excIllegal → fzDecode tval ≠ none →
    exec (.coreFault d c cause epc tval) s = .next s) ∧
  ∀ (d : Die) (c : Fin 12) (s : State),
    ((s.core d c).since = none → exec (.taskWatchdog d c) s = .next s) ∧
    ∀ n, s.coreRuns d c = true → (s.core d c).since = some n →
      tabGet [] s.faultTicks (8 * d.toNat + 2 * (c / 3)) = [] → Completes (.taskWatchdog d c) s (fun t =>
        (t.core d c).mode = .faulted ∧ t.rd d (Reg.CORE_FAULT_REC0_CAUSE c) = causeWatchdog ∧
        t.tb.ticks = max s.tb.ticks (n + 500 * s.rd d (Reg.BOB_CFG_RUN_LIMIT (c / 3))))) ∧
  (∀ (d : Die) (c : Fin 12) (s : State), (s.core d c).mode = .faulted → Completes (.coreLocksBroken d c) s (fun t =>
    (∀ l, l < 64 → t.lock d l = if s.lock d l = .held c.val then .broken else s.lock d l) ∧ Frame [.regs, .locks] s t)) ∧
  ∀ (d : Die) (c : Fin 12) (s : State), (s.core d c).mode = .faulted → (s.bob d (c / 3)).ready = [] →
    (s.bob d (c / 3)).cancelsNow s.tb.ticks = [] → Completes (.coreRestart d c) s (fun t => (t.core d c).mode = .waiting ∧
      (t.core d c).pc = 2 * s.rd d Reg.CORE_RESTART_VECTOR ∧ Frame [.cores] s t)

/-! ### Loads, stores, atomics, ECC (R4, R123 to R127) -/

/-- A load without an error gives rd the addressed bytes of the word, which x0 discards, and changes nothing else: an aligned load of
SRAM by the core's own cluster or any other (R123, R124).
A store to SRAM writes the bytes of its width at its address and no other byte of RAM, nor of flash but for the settings it may carry
(R110, R123, R124). That a result stands in the core's `rd`, a narrow load's without
sign extension, and that a store carries the settings written with it are the model's choices of log entries 13 and 124. -/
def Obligations.LoadStoreSram : Prop :=
  (∀ (d : Die) (c : Fin 12) (r : Fin 32) (a : Word) (w : Width) (f : Bool) (s : State) (b : Nat), s.coreRuns d c = true →
    areaOf (c / 3) (a.toNat / 4 * 4) = .sram b → areaOf (c / 3) a.toNat = .sram (b + a.toNat % 4) →
    a.toNat % widthBytes w = 0 → Completes (.coreLoad d c r a w .clean f) s (fun t =>
      (r = 0 → (t.core d c).rd = (s.core d c).rd) ∧
      (r ≠ 0 → (t.core d c).rd.toNat = s.ram32 d.toNat b / 2 ^ (8 * (a.toNat % 4)) % 2 ^ (8 * widthBytes w)) ∧ Frame [.cores] s t)) ∧
  ∀ (d : Die) (c : Fin 12) (a v : Word) (w : Width) (full : Bool) (bs : List Byte) (s : State) (b : Nat), s.coreRuns d c = true →
    areaOf (c / 3) a.toNat = .sram b → a.toNat % widthBytes w = 0 → Completes (.coreStore d c a w v .clean full bs) s (fun t =>
      (∀ i, i < widthBytes w → t.ram8 d.toNat (b + i) = BitVec.ofNat 8 (v.toNat / 256 ^ i)) ∧
      (∀ loc x, ramKey loc x < ramKey d.toNat b ∨ ramKey d.toNat b + widthBytes w ≤ ramKey loc x →
        t.ram8 loc x = s.ram8 loc x) ∧ (bs = [] → Frame [.ram, .red, .cores] s t) ∧
      Frame [.ram, .red, .cores, .flash, .boot] s t)

/-- Atomics on SRAM words: LR gives the word and takes a reservation; SC stores and gives 0 with the reservation held, and gives 1
and stores nothing without; every AMO gives the old word and stores its result, no other byte of memory changing (R123). That a failed
SC returns 1 and what a reservation covers are the model's choice of log entry 44. -/
def Obligations.Atomics : Prop :=
  ∀ (d : Die) (c : Fin 12) (r : Fin 32) (op : AmoOp) (a v : Word) (s : State) (b : Nat), s.coreRuns d c = true →
    areaOf (c / 3) a.toNat = .sram b → a.toNat % 4 = 0 → Completes (.coreAtomic d c r op a v .clean) s (fun t =>
      (r = 0 → (t.core d c).rd = (s.core d c).rd) ∧
      (op = .lr → (r ≠ 0 → (t.core d c).rd = BitVec.ofNat 32 (s.ram32 d.toNat b)) ∧ (t.core d c).resv = some b ∧
        Frame [.cores] s t) ∧
      (op = .sc → (s.core d c).resv ≠ some b → (r ≠ 0 → (t.core d c).rd = 1) ∧ Frame [.cores] s t) ∧
      (op = .sc → (s.core d c).resv = some b → (r ≠ 0 → (t.core d c).rd = 0) ∧ t.ram32 d.toNat b = v.toNat) ∧
      (op ≠ .lr → op ≠ .sc → (r ≠ 0 → (t.core d c).rd = BitVec.ofNat 32 (s.ram32 d.toNat b)) ∧
        t.ram32 d.toNat b = (amoResult op (BitVec.ofNat 32 (s.ram32 d.toNat b)) v).toNat) ∧
      (∀ loc x, ramKey loc x < ramKey d.toNat b ∨ ramKey d.toNat b + 4 ≤ ramKey loc x → t.ram8 loc x = s.ram8 loc x) ∧
      Frame [.ram, .red, .cores] s t)

/-- A scrubber's read corrects and counts a single-bit error, and records an uncorrectable one with its word in region SRAM and
posts event 241 (R126, R127).
A parity error of the locks is a fault of its die; one of a Bobbin posts event 241 and touches no flash (R128). -/
def Obligations.ScrubAndParity : Prop :=
  ((∀ (d : Die) (r : Region) (a : Word) (s : State), scrubbed a.toNat = true →
    regionOf (s.physAddr d a.toNat) = r.toNat → bankOf (s.physAddr d a.toNat) = none → s.rd d (Reg.MEM_ECC_CE_CNT_COUNT r.toNat) < 0xFFFFFFFF →
    Completes (.scrubRead d r a .corrected) s (fun t =>
      t.rd d (Reg.MEM_ECC_CE_CNT_COUNT r.toNat) = s.rd d (Reg.MEM_ECC_CE_CNT_COUNT r.toNat) + 1 ∧ Frame [.regs] s t)) ∧
  ∀ (d : Die) (r : Region) (a : Word) (s : State), 0x20000000 ≤ a.toNat → a.toNat < 0x20200000 → scrubbed a.toNat = true →
    regionOf (s.physAddr d a.toNat) = r.toNat → s.lost d = false → Completes (.scrubRead d r a .uncorrectable) s (fun t =>
      t.rd d (Reg.MEM_ECC_STAT_UE r.toNat) = 1 ∧
      t.rd d (Reg.MEM_ECC_STAT_UE_ADDR r.toNat) = (a.toNat - 0x20000000) % 0x100000 / 4 ∧ Output.event d 241 ∈ t.out)) ∧
  (∀ (d : Die) (s : State), s.inService d = true → s.isWorker d = false → Completes (.lockParityError d) s (fun t =>
    t.io (Reg.RED_DIE_FAULT d.toNat) = 1 ∧ t.io (Reg.RED_DIE_CAUSE d.toNat) = causeLockParity)) ∧
  ∀ (d : Die) (c : Fin 4) (s : State), s.lost .d0 = false → Completes (.bobbinParityError d c) s (fun t =>
    Output.event .d0 241 ∈ t.out ∧ t.flash = s.flash)

/-! ### Ground (R150 to R164) -/

/-- Ground: a request of a requester that does not wait yet joins the waiting requests of its target, last, with the present cycle
as its first issue; one of a core that waits in FZ.TWAIT, or of an emergency requester within 64 cycles of its last burst, does not
(R152, R153), nor does one at an address that selects another target (R150) or a write by the debug port (R151), and one whose
crossing's FIFO is filled is refused with event 255 (R60). An uncorrectable error in a word that a grant reads posts event 241 (R126).
A free target is granted to one of the waiting
requests for its words, an emergency request before any other; an emergency request also takes the target from any other grant that
has more than its last word left, whose request then waits again with its first issue (R155, R159, R160). -/
def Obligations.Ground : Prop :=
  (∀ (d : Die) (g : Fin 38) (r : Fin 24) (w : Fin 17) (n : Nat) (x : Xfer) (es : List (Nat × Ecc)) (s : State), s.groundOk d →
    s.groundClean d → (gndSelects (gndAddr r (xferAddr x)) = some g.val → (r = 22 → xferWrites x = false) →
    ((s.gndTarget d g).waiting.any (fun q => q.req = r.val) = false → w ≠ 0 →
      s.gndSilent d (s.gndClock d g) r (s.gndNow d (s.gndClock d g) + n) = false →
      Completes (.groundRequest d g r w n x false es) s (fun t =>
        (t.gndTarget d g).waiting.getLast? = some
          { req := r, words := w, bulk := s.isBulk d r, xfer := x, errs := es, since := ((s.gndNow d (s.gndClock d g) + n : Nat) : Int) } ∧
        (t.gndTarget d g).waiting.map (·.req) = (s.gndTarget d g).waiting.map (·.req) ++ [r.val] ∧
        Frame ([.regs, .gnd, .lfsr, .gndClk, .gndEm, .ram, .red, .cores, .out]) s t)) ∧
    (s.gndSilent d (s.gndClock d g) r (s.gndNow d (s.gndClock d g) + n) = true →
      Completes (.groundRequest d g r w n x false es) s (fun t =>
        (t.gndTarget d g).waiting.map (·.req) = (s.gndTarget d g).waiting.map (·.req) ∧
        Frame [.regs, .gnd, .lfsr, .gndClk, .ram, .red, .cores, .out] s t)) ∧
    (s.reqRegion d r ≠ s.gndClock d g % 2 → Completes (.groundRequest d g r w n x true es) s (fun t =>
      (t.gndTarget d g).waiting.map (·.req) = (s.gndTarget d g).waiting.map (·.req) ∧
      (∀ e, s.lost e = false → Output.event e 255 ∈ t.out) ∧
      Frame ([.regs, .gnd, .lfsr, .gndClk, .ram, .red] ++ mPost) s t)) ∧
    (s.reqRegion d r = s.gndClock d g % 2 →
      exec (.groundRequest d g r w n x true es) s = exec (.groundRequest d g r w n x false es) s)) ∧
    ((gndSelects (gndAddr r (xferAddr x)) ≠ some g.val ∨ r = 22 ∧ xferWrites x = true) → ∀ f,
      Completes (.groundRequest d g r w n x f es) s (fun t =>
        (t.gndTarget d g).waiting.map (·.req) = (s.gndTarget d g).waiting.map (·.req) ∧
        Frame [.regs, .gnd, .lfsr, .gndClk, .ram, .red, .cores, .out] s t))) ∧
  (∀ (d : Die) (g : Fin 38) (n : Nat) (s : State), s.groundOk d → s.groundClean d → (s.gndTarget d g).hold = none →
    (s.gndTarget d g).waiting ≠ [] → Completes (.groundGrant d g n) s (fun t =>
      (∃ h, (t.gndTarget d g).hold = some h ∧ h.ends = s.gndNow d (s.gndClock d g) + n + h.rq.words ∧
        (∃ q ∈ (s.gndTarget d g).waiting, q.req = h.rq.req ∧ q.words = h.rq.words) ∧
        ((s.gndTarget d g).waiting.any (fun q => isEmergency q.req) = true → isEmergency h.rq.req = true)) ∧
      Frame [.regs, .gnd, .lfsr, .gndClk, .ram, .red, .cores, .out] s t)) ∧
  (∀ (d : Die) (g : Fin 38) (n : Nat) (s : State) (h : GndHold), s.groundOk d → s.groundClean d → (s.gndTarget d g).hold = some h →
    h.kind ≠ .emergency → s.gndNow d (s.gndClock d g) + n + 1 < h.ends →
    (s.gndTarget d g).waiting.any (fun q => isEmergency q.req) = true → Completes (.groundGrant d g n) s (fun t =>
      (∃ x, (t.gndTarget d g).hold = some x ∧ isEmergency x.rq.req = true) ∧
      (∃ p ∈ (t.gndTarget d g).waiting, p.req = h.rq.req ∧ p.words = h.rq.words ∧ p.since = h.rq.since) ∧
      Frame [.regs, .gnd, .lfsr, .gndClk, .ram, .red, .cores, .out] s t)) ∧
  ∀ (d : Die) (g : Fin 38) (n i : Nat) (a : Word) (s : State) (h : GndHold), (s.gndTarget d g).hold = some h →
    h.rq.xfer = .read a → gndPlace g h.rq i ≠ none → h.rq.errs = [(i, .uncorrectable)] → h.done ≤ i →
    i < h.rq.words → h.ends ≤ s.gndNow d (s.gndClock d g) + n → Completes (.groundGrant d g n) s (fun t =>
      ∀ e, s.lost e = false → Output.event e 241 ∈ t.out)

/-- A waiting request with tickets that has waited WAIT_CAP cycles is capped (R156); GND_LONG_CLR zeroes the longest waits it names
and no other register (R164). -/
def Obligations.GroundCaps : Prop :=
  (∀ (d : Die) (g : Fin 38) (r : Fin 24) (n : Nat) (s : State) (q : GndReq), s.groundOk d → s.groundClean d →
    q ∈ (s.gndTarget d g).waiting → q.req = r.val → isEmergency q.req = false → s.tickets d q ≠ 0 →
    (s.rd d Reg.GND_CFG_WAIT_CAP : Int) ≤ ((s.gndNow d (s.gndClock d g) + n : Nat) : Int) - q.since →
    Completes (.requestCapped d g r n) s (fun t =>
      (∃ p ∈ (t.gndTarget d g).waiting, p.req = r.val ∧ p.capped = true) ∧
      (t.gndTarget d g).waiting.map (·.req) = (s.gndTarget d g).waiting.map (·.req) ∧
      Frame [.regs, .gnd, .lfsr, .gndClk, .ram, .red, .cores, .out] s t)) ∧
  ∀ (d : Die) (m : BitVec 24) (s : State), Completes (.gndLongClr d m) s (fun t =>
    (∀ i, i < 24 → t.rd d (Reg.GND_LONGEST_COUNT i) = if m.getLsbD i then 0 else s.rd d (Reg.GND_LONGEST_COUNT i)) ∧
    RegsKept ((List.range 24).map (fun i => (d, Reg.GND_LONGEST_COUNT i))) s t ∧ Frame [.regs] s t)

/-! ### Measurement (R169 to R196) -/

/-- A sense frame drives the receiver: HUNT to CHECK with a good frame, CHECK to HUNT with a bad one and to LOCKED with the fourth
good one, and a good frame keeps LOCKED; a run of 14 samples or more is a line error that makes the frame bad, and one of 16 a fault
dash (R174, R175, R179); a frame that is not the 200 samples of 25 cells is no frame and stops the model. Until gate release the line
is ignored (R32). A full FIFO behind the receiver costs the frame's words, with event 255, and not the receiver's state (R60).
A fault dash asserts the channel's dash source and drops its channel; the line's first transition puts the receiver back to
HUNT and the source of a sound unit away (R175, R179, R318). That a frame of another length is none is the model's choice of log entry
118, that a dash is taken whatever EN says that of log entry 77, and the sample that stands for a half-bit its reading of log entry
159. -/
def Obligations.SenseFrames : Prop :=
  ((∀ (ch : Fin 128) (xs : List Bool) (f : Bool) (s : State),
    (xs.length ≠ 200 → exec (.senseFrame ch xs f) s = .fault .illFormed) ∧
    (xs.length = 200 → s.pins.live = false → exec (.senseFrame ch xs f) s = .next s)) ∧
  (∀ (ch : Fin 128) (xs : List Bool) (f : Bool) (s : State) (run : Nat), xs.length = 200 → s.pins.live = true →
    s.ioBit (Reg.MEAS_CFG_EN ch) = true → run = (xs.foldl runStep ((s.ch ch).lineRun, 0)).2 → run < 16 →
    (s.io (Reg.MEAS_FLAG_RX_STATE ch) = rxHunt → Completes (.senseFrame ch xs f) s (fun t =>
      t.io (Reg.MEAS_FLAG_RX_STATE ch) =
        (if frameBad ((halvesOf xs).map (fun h => !h.2)) (decide (14 ≤ run)) then rxHunt else rxCheck) ∧
      (f = false → Frame [.regs, .meas] s t) ∧
      (f = true → (∀ e, s.lost e = false → Output.event e 255 ∈ t.out) ∧ Frame ([.regs, .meas] ++ mPost) s t))) ∧
    (s.io (Reg.MEAS_FLAG_RX_STATE ch) = rxCheck → Completes (.senseFrame ch xs f) s (fun t =>
      t.io (Reg.MEAS_FLAG_RX_STATE ch) =
        (if frameBad ((halvesOf xs).map (fun h => !h.2)) (decide (14 ≤ run)) then rxHunt
          else if (s.ch ch).good < 3 then rxCheck else rxLocked) ∧
      (f = false → Frame [.regs, .meas, .gen] s t ∧ ((∀ h ∈ halvesOf xs, h.1 ≠ h.2) → Frame [.regs, .meas] s t)) ∧
      (f = true → (∀ e, s.lost e = false → Output.event e 255 ∈ t.out) ∧ Frame ([.regs, .meas] ++ mPost) s t))) ∧
    (s.io (Reg.MEAS_FLAG_RX_STATE ch) = rxLocked →
      frameBad ((halvesOf xs).map (fun h => !h.2)) (decide (14 ≤ run)) = false → Completes (.senseFrame ch xs f) s (fun t =>
        t.io (Reg.MEAS_FLAG_RX_STATE ch) = rxLocked ∧ (t.ch ch).bad = 0 ∧
        (f = true → ∀ e, s.lost e = false → Output.event e 255 ∈ t.out) ∧ Frame ([.regs, .meas, .gen, .inj] ++ mPost) s t))) ∧
  (∀ (ch : Fin 128) (xs : List Bool) (f : Bool) (s : State), xs.length = 200 → s.pins.live = true →
    s.io (Reg.MEAS_FLAG_RX_STATE ch) ≠ rxDash → 16 ≤ (xs.foldl runStep ((s.ch ch).lineRun, 0)).1.2 →
    16 ≤ (xs.foldl runStep ((s.ch ch).lineRun, 0)).2 → Completes (.senseFrame ch xs f) s (fun t =>
      t.io (Reg.MEAS_FLAG_RX_STATE ch) = rxDash ∧ t.ioBit (Reg.MEAS_FLAG_VALID ch) = false ∧ ch.val ∈ t.trip.chan))) ∧
  (∀ (ch : Fin 128) (s : State), s.pins.live = true → s.io (Reg.MEAS_FLAG_RX_STATE ch) ≠ rxDash →
    Completes (.faultDash ch) s (fun t =>
      t.io (Reg.MEAS_FLAG_RX_STATE ch) = rxDash ∧ t.ioBit (Reg.MEAS_FLAG_VALID ch) = false ∧ ch.val ∈ t.trip.chan)) ∧
  (∀ (ch : Fin 128) (s : State), s.pins.live = true → s.io (Reg.MEAS_FLAG_RX_STATE ch) = rxDash → (s.genCh ch).faulty = false →
    Completes (.dashEnd ch) s (fun t => t.io (Reg.MEAS_FLAG_RX_STATE ch) = rxHunt ∧ ch.val ∉ t.trip.chan)) ∧
  ∀ (ch : Fin 128) (s : State), s.pins.live = false →
    exec (.faultDash ch) s = .next s ∧ exec (.dashEnd ch) s = .next s

/-- Decimation: an output once R bits have come and none before, whose value without the compensator is the calibrated one of the sinc3
sum over its last 3R − 2 bits (R181 to R184), a local one lost with event 255 where its FIFO is filled (R60); a sinc2 output uses 8 bits, and one at or below the threshold ends
the run beyond it; an auxiliary output once 256 bits have come; an overload sets the channel's flag (R169, R180, R181, R191). -/
def Obligations.Decimation : Prop :=
  (∀ (i : Fin 144) (bits : List Bool) (f : Bool) (s : State) (x : MeasCh) (r : Nat), s.ioBit (Reg.MEAS_CFG_EN i) = true →
    (f = false ∨ isRemote i = true) → r = 2 ^ s.io (Reg.MEAS_CFG_RATIO i) →
    x = (if isRemote i then s else s.feed i (bits.map (fun b => (b, false)))).ch i → r ≤ x.fresh →
    (x.ow = 0 → Completes (.decimatorOutput i bits f) s (fun t =>
      (t.ch i).fresh = x.fresh - r ∧ (t.ch i).outN = min 3 (x.outN + 1) ∧ Frame ([.regs, .meas, .inj] ++ mPost) s t)) ∧
    (x.ow = 0 → x.cal = 0 → x.hold ≤ 1 → x.opened = false → s.io (Reg.MEAS_CFG_OW i) ≠ 1 →
      s.ioBit (Reg.MEAS_CFG_FIR_EN i) = false → Completes (.decimatorOutput i bits f) s (fun t =>
        t.ioInt (Reg.MEAS_VAL_Y i) = (s.calibrate i (clampY (normX (s.io (Reg.MEAS_CFG_RATIO i)) (bitSum (sinc3Coef r)
          (((x.hist.drop (x.fresh - r)).take (3 * r - 2)).map (·.1)) 0 (3 * r - 2)))).1).1))) ∧
  (∀ (i : Fin 144) (bits : List Bool) (f : Bool) (s : State), s.ioBit (Reg.MEAS_CFG_EN i) = true → isRemote i = false →
    (s.ch i).fresh + bits.length < 2 ^ s.io (Reg.MEAS_CFG_RATIO i) → Completes (.decimatorOutput i bits f) s (fun t =>
      (t.ch i).fresh = (s.ch i).fresh + bits.length ∧ Frame [.meas, .inj] s t)) ∧
  (∀ (i : Fin 144) (bits : List Bool) (f : Bool) (s : State), s.ioBit (Reg.MEAS_CFG_EN i) = true → isRemote i = true →
    (s.ch i).fresh < 2 ^ s.io (Reg.MEAS_CFG_RATIO i) → exec (.decimatorOutput i bits f) s = .next s) ∧
  (∀ (i : Fin 144) (bits : List Bool) (s : State), s.ioBit (Reg.MEAS_CFG_EN i) = true → isRemote i = false →
    2 ^ s.io (Reg.MEAS_CFG_RATIO i) ≤ (s.ch i).fresh + bits.length → Completes (.decimatorOutput i bits true) s (fun t =>
      (t.ch i).fresh = (s.ch i).fresh + bits.length - 2 ^ s.io (Reg.MEAS_CFG_RATIO i) ∧
      (∀ e, s.lost e = false → Output.event e 255 ∈ t.out) ∧ Frame ([.meas, .inj] ++ mPost) s t)) ∧
  (∀ (i : Fin 144) (s : State), isRemote i = true → 8 ≤ (s.ch i).fpFresh → s.ioBit (Reg.MEAS_FP_EN i) = true →
    s.io (Reg.MEAS_FLAG_RX_STATE i) = rxLocked → (s.ch i).cal = 0 → Completes (.sinc2Output i []) s (fun t =>
      (t.ch i).fpFresh = (s.ch i).fpFresh - 8 ∧
      (bitSum sinc2Coef ((s.ch i).fp.drop ((s.ch i).fpFresh - 8)) 0 15 ≤ s.ioInt (Reg.MEAS_FP_OV_TH i) → (t.ch i).fpOv = 0))) ∧
  (∀ (ch : Fin 128) (s : State), 256 ≤ (s.ch ch).auxFresh → Completes (.auxOutput ch) s (fun t =>
    (t.ch ch).auxFresh = (s.ch ch).auxFresh - 256 ∧ (t.ch ch).auxN = min 3 ((s.ch ch).auxN + 1) ∧
    RegsKept [(.d0, Reg.MEAS_AUX_X ch), (.d0, Reg.MEAS_AUX_VALID ch)] s t ∧ Frame [.regs, .meas] s t)) ∧
  ∀ (i : Fin 144) (s : State), s.ioBit (Reg.MEAS_CFG_EN i) = true → Completes (.modulatorOverload i) s (fun t =>
    t.ioBit (Reg.MEAS_FLAG_OVL i) = true ∧ (t.ch i).ovl = true)

/-- Self-calibration and open-wire tests of the local channels: a request starts at once on a channel with no conversion, and waits
behind one; it ends with three outputs held, and a reference half whose average is at or below the zero half's leaves CORR and sets
CAL_FAIL, which for halves of equal average is the model's choice of log entry 119; from gate release on a test starts likewise, and one that ends with fewer than 4 outputs finds no open wire (R32, R170, R185 to R187). -/
def Obligations.SelfCalibration : Prop :=
  (∀ (m : Fin 16) (s : State), s.io Reg.MEAS_CAL_PERIOD_SEC ≠ 0 → s.ioBit (Reg.MEAS_CFG_EN (128 + m)) = true →
    (s.ch (128 + m)).cal = 0 → Completes (.calPeriodExpiry m) s (fun t =>
      (t.ch (128 + m)).cal = if s.injBusy (128 + m) then 1 else 2)) ∧
  (∀ (d : Die) (m : Fin 16) (s : State), s.mayWrite d = true → s.ioBit (Reg.MEAS_CFG_EN (128 + m)) = true →
    (s.ch (128 + m)).cal = 0 → Completes (.measCalReq d (BitVec.ofNat 16 (2 ^ m.val))) s (fun t =>
      (t.ch (128 + m)).cal = if s.injBusy (128 + m) then 1 else 2)) ∧
  (∀ (m : Fin 16) (z r : List Bool) (s : State), z.length = 640 → r.length = 640 → (s.ch (128 + m)).cal = 2 →
    Completes (.selfCalEnd m z r) s (fun t => (t.ch (128 + m)).cal = 0 ∧ (t.ch (128 + m)).hold = 3 ∧
      (calMean r ≤ calMean z →
        t.io (Reg.MEAS_SCAL0_CORR m) = s.io (Reg.MEAS_SCAL0_CORR m) ∧ t.ioBit (Reg.MEAS_FLAG_CAL_FAIL (128 + m)) = true))) ∧
  (∀ (m : Fin 16) (s : State), s.pins.live = true → s.ioBit (Reg.MEAS_CFG_EN (128 + m)) = true → s.io (Reg.MEAS_CFG_OW (128 + m)) = 2 →
    (s.ch (128 + m)).ow = 0 → Completes (.openWireTestStart m) s (fun t =>
      (t.ch (128 + m)).ow = (if s.injBusy (128 + m) then 1 else 2) ∧ Frame [.meas] s t)) ∧
  ∀ (m : Fin 16) (s : State), (s.ch (128 + m)).ow = 2 → (s.ch (128 + m)).owOuts.length < 4 →
    Completes (.openWireTestEnd m) s (fun t => (t.ch (128 + m)).ow = 0 ∧ (t.ch (128 + m)).opened = false ∧
      Frame [.regs, .meas, .inj] s t)

/-- Integrating units: a trigger of an idle unit on a free channel starts a window, one during a window is queued, and a further one
is dropped with OVERRUN and event 244; a window whose bits have all come gives its result word, with a conversion queued behind it
or not (R192 to R194). -/
def Obligations.InjectedConversions : Prop :=
  (∀ (d : Die) (u : Fin 8) (s : State), s.mayWrite d = true → s.ioBit (Reg.MEAS_INJ_CFG_EN u) = true →
    (s.io (Reg.MEAS_INJ_STAT_STATE u) = injRunning → Completes (.measInjTrig d u) s (fun t =>
      t.io (Reg.MEAS_INJ_STAT_STATE u) = injQueued ∧ RegsKept [(.d0, Reg.MEAS_INJ_STAT_STATE u)] s t ∧
      Frame [.regs] s t)) ∧
    (s.io (Reg.MEAS_INJ_STAT_STATE u) = injQueued → s.lost .d0 = false → Completes (.measInjTrig d u) s (fun t =>
      t.ioBit (Reg.MEAS_INJ_STAT_OVERRUN u) = true ∧ Output.event .d0 244 ∈ t.out)) ∧
    (s.io (Reg.MEAS_INJ_STAT_STATE u) = injIdle → (s.ch (s.io (Reg.MEAS_INJ_CFG_CH u))).cal = 0 →
      (s.ch (s.io (Reg.MEAS_INJ_CFG_CH u))).ow = 0 → Completes (.measInjTrig d u) s (fun t =>
        t.io (Reg.MEAS_INJ_STAT_STATE u) = injRunning ∧ (t.injOf u).left = (t.injOf u).n ∧ (t.injOf u).ones = 0 ∧
        Frame [.regs, .inj] s t))) ∧
  ∀ (u : Fin 8) (s : State), (s.io (Reg.MEAS_INJ_STAT_STATE u) = injRunning ∨ s.io (Reg.MEAS_INJ_STAT_STATE u) = injQueued) →
    (s.injOf u).left = 0 →
    Completes (.injWindowEnd u) s (fun t => t.io (Reg.MEAS_INJ_RES_WORD u) = injWord (s.injOf u) % 2 ^ 32)

/-! ### The control-law engines (R199 to R251) -/

/-- NOP, CLR, LDI, MAC, ADD and ADDI of a run in their turn give their lane's accumulator its value by R208 to R211, leave every other
lane alone, and move to the next instruction; nothing but the engine changes (R226). -/
def Obligations.CleAccumulate : Prop :=
  ∀ (d : Die) (c : Fin 4) (i : CleInstr) (s : State), s.cleTurn d c i →
    (i.op = .nop → Completes (.cleNop d c .clean) s (fun t => (t.cle d c).pc = (s.cle d c).pc + 1 ∧
      (∀ l, t.accOf d c l = s.accOf d c l) ∧ Frame [.cles] s t)) ∧
    (i.op = .clr → Completes (.cleClr d c .clean) s (fun t => t.accOf d c i.lane = ⟨0, false⟩ ∧
      (∀ l, l < 8 → l ≠ i.lane → t.accOf d c l = s.accOf d c l) ∧ (t.cle d c).pc = (s.cle d c).pc + 1 ∧ Frame [.cles] s t)) ∧
    (i.op = .ldi → Completes (.cleLdi d c .clean) s (fun t => t.accOf d c i.lane = ⟨s.intState d c i.a, false⟩ ∧
      (∀ l, l < 8 → l ≠ i.lane → t.accOf d c l = s.accOf d c l) ∧ (t.cle d c).pc = (s.cle d c).pc + 1 ∧ Frame [.cles] s t)) ∧
    (i.op = .mac → (∀ j, j < i.n → coefOk (s.sm d c (i.b + j)) = true) → Completes (.cleMac d c .clean) s (fun t =>
      t.accOf d c i.lane = ((List.range i.n).map (fun j =>
        alignedProduct (s.smInt d c (i.a + j)) (s.sm d c (i.b + j)))).foldl Acc.plus (s.accOf d c i.lane) ∧
      (∀ l, l < 8 → l ≠ i.lane → t.accOf d c l = s.accOf d c l) ∧ (t.cle d c).pc = (s.cle d c).pc + 1 ∧ Frame [.cles] s t)) ∧
    (i.op = .add → Completes (.cleAdd d c .clean) s (fun t =>
      t.accOf d c i.lane = ((List.range i.n).map (fun j => directTerm (s.smInt d c (i.a + j)))).foldl Acc.plus
        (s.accOf d c i.lane) ∧
      (∀ l, l < 8 → l ≠ i.lane → t.accOf d c l = s.accOf d c l) ∧ (t.cle d c).pc = (s.cle d c).pc + 1 ∧ Frame [.cles] s t)) ∧
    (i.op = .addi → Completes (.cleAddi d c .clean) s (fun t =>
      t.accOf d c i.lane = (s.accOf d c i.lane).plus (s.intState d c i.a) ∧
      (∀ l, l < 8 → l ≠ i.lane → t.accOf d c l = s.accOf d c l) ∧ (t.cle d c).pc = (s.cle d c).pc + 1 ∧ Frame [.cles] s t))

/-- The aligned product is floor(x × M × 2^(8 + s)), exact for s ≥ −8 and rounded towards minus infinity below, and lies within
−2^77 to 2^77 (R208); two coefficient words of equal value M × 2^(s − 23) give the same product whatever their mantissas and
shifts (R206). -/
def Obligations.CoefficientValue : Prop :=
  (∀ (x : Int) (w : Nat), coefOk w = true →
    (-8 ≤ coefShift w → alignedProduct x w = x * coefMantissa w * 2 ^ (8 + coefShift w).toNat) ∧
    (coefShift w < -8 → alignedProduct x w * 2 ^ (-(8 + coefShift w)).toNat ≤ x * coefMantissa w ∧
      x * coefMantissa w < (alignedProduct x w + 1) * 2 ^ (-(8 + coefShift w)).toNat) ∧
    (-(2 ^ 31) ≤ x → x < 2 ^ 31 → -(2 ^ 77) ≤ alignedProduct x w ∧ alignedProduct x w ≤ 2 ^ 77)) ∧
  ∀ (x : Int) (w v : Nat), coefOk w = true → coefOk v = true →
    coefMantissa w * 2 ^ (coefShift w + 24).toNat = coefMantissa v * 2 ^ (coefShift v + 24).toNat →
    alignedProduct x w = alignedProduct x v

/-- The order of the terms of MAC and ADD is the order of their additions, each clamped to the 80-bit format (R208, R211): an
accumulator stays within its bounds, and ACC_OVF, once set, stays set.
The writeback rounds to nearest even, towards minus infinity, or to nearest away from zero, and clamps to
±(2^31 − 1), setting SAT exactly where the rounded value lies outside (R213, R214). -/
def Obligations.AccumulatorBounds : Prop :=
  ((∀ (a : Acc) (x : Int), (a.plus x).v = max (-(2 ^ 79)) (min (2 ^ 79 - 1) (a.v + x)) ∧
    ((a.plus x).ovf = true ↔ a.ovf = true ∨ a.v + x < -(2 ^ 79) ∨ 2 ^ 79 - 1 < a.v + x)) ∧
  ∀ (ts : List Int) (a : Acc), accMin ≤ a.v → a.v ≤ accMax →
    accMin ≤ (ts.foldl Acc.plus a).v ∧ (ts.foldl Acc.plus a).v ≤ accMax ∧ (a.ovf = true → (ts.foldl Acc.plus a).ovf = true) ∧
    ((ts.foldl Acc.plus a).ovf = false → (ts.foldl Acc.plus a).v = a.v + ts.foldl (· + ·) 0)) ∧
  ∀ a : Int, (∀ r, (wb a r).1 ≤ 2 ^ 31 - 1 ∧ -(2 ^ 31 - 1) ≤ (wb a r).1) ∧
    (∀ r, (wb a r).2 = true ↔ (2 ^ 31 - 1 < wbRound a r ∨ wbRound a r < -(2 ^ 31 - 1))) ∧
    (2 * (wbRound a 0 * 2 ^ 31 - a).natAbs ≤ 2 ^ 31 ∧
      (2 * (wbRound a 0 * 2 ^ 31 - a).natAbs = 2 ^ 31 → wbRound a 0 % 2 = 0)) ∧
    (wbRound a 1 * 2 ^ 31 ≤ a ∧ a < (wbRound a 1 + 1) * 2 ^ 31) ∧
    (2 * (wbRound a 2 * 2 ^ 31 - a).natAbs ≤ 2 ^ 31 ∧
      (2 * (wbRound a 2 * 2 ^ 31 - a).natAbs = 2 ^ 31 → a.natAbs ≤ (wbRound a 2 * 2 ^ 31).natAbs))

/-- A plain WB writes the rounded and clamped accumulator to state word A and to no other byte of memory; a WB of a loop writes
LOOP_Y, and no byte of memory but its word OUT, which takes the new word in NORMAL and SUBST, the ramp's in HANDOVER_RAMP and
RAMP_DOWN, and its old one in HOLD and TRIPPED and for the word of an accumulation that was clamped (R213, R236). -/
def Obligations.CleWriteback : Prop :=
  ∀ (d : Die) (c : Fin 4) (i : CleInstr) (s : State), s.cleTurn d c i → i.op = .wb →
    (i.lp = false → Completes (.cleWb d c .clean) s (fun t =>
      t.sm d c i.a = unsigned 32 (wb (s.accOf d c i.lane).v i.rnd).1 ∧
      (∀ loc x, ramKey loc x < ramKey d.toNat (smAddr c i.a) ∨ ramKey d.toNat (smAddr c i.a) + 4 ≤ ramKey loc x →
        t.ram8 loc x = s.ram8 loc x) ∧ Frame [.regs, .ram, .red, .cles] s t)) ∧
    (i.lp = true → Completes (.cleWb d c .clean) s (fun t =>
      t.rdInt d (Reg.LOOP_Y_YIN c i.loop) = (wb (s.accOf d c i.lane).v i.rnd).1 ∧
      (∀ loc x, ramKey loc x < ramKey d.toNat (smAddr c (s.outWord d c i.loop)) ∨
        ramKey d.toNat (smAddr c (s.outWord d c i.loop)) + 4 ≤ ramKey loc x → t.ram8 loc x = s.ram8 loc x) ∧
      (let old := s.smInt d c (s.outWord d c i.loop)
       let y := if (s.accOf d c i.lane).ovf then old else (wb (s.accOf d c i.lane).v i.rnd).1
       let r := s.rd d (Reg.LOOP_ACT_RAMP_LOG2 c i.loop)
       let j := s.rd d (Reg.LOOP_STAT_RAMP_J c i.loop) + 1
       let f := signed 32 (s.rd d (Reg.LOOP_YFROM_Y c i.loop))
       let st := s.loopState d c i.loop
       t.sm d c (s.outWord d c i.loop) = unsigned 32 (
         if st = loopHandover then (if 2 ^ r ≤ j then y else f + conv ((y - f) * j) r)
         else if st = loopRampDown then (if 2 ^ r ≤ j then 0 else f + conv ((0 - f) * j) r)
         else if st = loopHold ∨ st = loopTripped then old else y)) ∧
      Frame [.regs, .ram, .red, .cles] s t))

/-- STI stores the accumulator, or the old state where the update holds, clamped to the integrator's limits; PRE gives the integrator
the state that makes the output y_out, clamped too, flags an accumulation that it closes after a clamp, and begins the next
accumulation with that state, its ACC_OVF fresh (R210, R216, R218, R220, R232); no byte of memory changes but the integrator's state
words and its CI word. What PRE closes and begins is the model's choice of log entry 68. -/
def Obligations.CleIntegrators : Prop :=
  ∀ (d : Die) (c : Fin 4) (i : CleInstr) (s : State), s.cleTurn d c i →
    (i.op = .sti → Completes (.cleSti d c .clean) s (fun t =>
      t.intState d c i.a = (limitClamp
        (if s.stiHolds d c (s.sm d c (i.a + 5)) ((s.accOf d c i.lane).v - s.intState d c i.a) then s.intState d c i.a
          else (s.accOf d c i.lane).v) (s.smInt d c (i.a + 3)) (s.smInt d c (i.a + 4))).1 ∧
      (∀ loc x, (∀ j ∈ [0, 1, 2, 5], ramKey loc x < ramKey d.toNat (smAddr c (i.a + j)) ∨
        ramKey d.toNat (smAddr c (i.a + j)) + 4 ≤ ramKey loc x) → t.ram8 loc x = s.ram8 loc x) ∧
      Frame [.regs, .ram, .red, .cles] s t)) ∧
    (i.op = .pre → i.lane < 8 → Completes (.clePre d c .clean) s (fun t =>
      t.intState d c i.a = (limitClamp ((⟨directTerm (s.smInt d c i.b), false⟩ : Acc).plus (-(s.accOf d c i.lane).v)).v
        (s.smInt d c (i.a + 3)) (s.smInt d c (i.a + 4))).1 ∧
      ((s.accOf d c i.lane).ovf = true → t.bit d (Reg.CLE_STAT_ACC_OVF c) = true) ∧
      t.accOf d c i.lane = (⟨(s.accOf d c i.lane).v, false⟩ : Acc).plus (t.intState d c i.a) ∧
      (∀ loc x, (∀ j ∈ [0, 1, 2, 5], ramKey loc x < ramKey d.toNat (smAddr c (i.a + j)) ∨
        ramKey d.toNat (smAddr c (i.a + j)) + 4 ≤ ramKey loc x) → t.ram8 loc x = s.ram8 loc x) ∧
      Frame [.regs, .ram, .red, .cles] s t))

/-- FBK writes the loop's measured word, or its estimate while the loop substitutes and is no KIND 0 loop; MOV copies its words in
rising order; GET brings words in from SRAM and PUT takes them out; no byte of memory changes but the words they write; OUT by the
worker's engine writes the output block's shadow; what crosses a filled FIFO writes nothing, with event 255 (R60, R226, R228, R233,
R250). That FBK delivers EST in SUBST alone is the model's choice of log entry 66. -/
def Obligations.CleMoves : Prop :=
  ∀ (d : Die) (c : Fin 4) (i : CleInstr) (s : State), s.cleTurn d c i →
    (i.op = .fbk → Completes (.cleFbk d c .clean) s (fun t =>
      t.sm d c i.a = s.sm d c (if s.loopState d c i.loop = loopSubst ∧ s.rd d (Reg.LOOP_SRC_KIND c i.loop) ≠ 0
        then s.rd d (Reg.LOOP_WORDS_EST c i.loop) else s.rd d (Reg.LOOP_CFG_MEAS c i.loop)) ∧
      (∀ loc x, ramKey loc x < ramKey d.toNat (smAddr c i.a) ∨ ramKey d.toNat (smAddr c i.a) + 4 ≤ ramKey loc x →
        t.ram8 loc x = s.ram8 loc x) ∧
      Frame [.ram, .red, .cles] s t)) ∧
    (i.op = .mov → i.b ≤ i.a ∨ i.a + i.n ≤ i.b → Completes (.cleMov d c .clean) s (fun t =>
      (∀ j, j < i.n → t.sm d c (i.b + j) = s.sm d c (i.a + j)) ∧
      (∀ loc x, (∀ j, j < i.n → ramKey loc x < ramKey d.toNat (smAddr c (i.b + j)) ∨
        ramKey d.toNat (smAddr c (i.b + j)) + 4 ≤ ramKey loc x) → t.ram8 loc x = s.ram8 loc x) ∧
      Frame [.ram, .red, .cles] s t)) ∧
    (i.op = .mov → i.a < i.b → i.b < i.a + i.n → Completes (.cleMov d c .clean) s (fun t =>
      (∀ j, j < i.n → t.sm d c (i.b + j) = s.sm d c (i.a + j % (i.b - i.a))) ∧
      (∀ loc x, (∀ j, j < i.n → ramKey loc x < ramKey d.toNat (smAddr c (i.b + j)) ∨
        ramKey d.toNat (smAddr c (i.b + j)) + 4 ≤ ramKey loc x) → t.ram8 loc x = s.ram8 loc x) ∧
      Frame [.ram, .red, .cles] s t)) ∧
    (∀ x, i.op = .get → transferOk c (s.sm d c i.b) i.n true = true → areaOf c (s.sm d c i.b) = .sram x →
      (∀ w, s.transferCrosses d c (s.sm d c i.b) = true → Completes (.cleGet d c .clean w true) s (fun t =>
        (∀ e, s.lost e = false → Output.event e 255 ∈ t.out) ∧ Frame (.cles :: mPost) s t)) ∧
      ∀ w, Completes (.cleGet d c .clean w false) s (fun t =>
        (∀ j, j < i.n → t.sm d c (i.a + j) = s.ram32 d.toNat (x + 4 * j)) ∧
        (∀ loc y, (∀ j, j < i.n → ramKey loc y < ramKey d.toNat (smAddr c (i.a + j)) ∨
          ramKey d.toNat (smAddr c (i.a + j)) + 4 ≤ ramKey loc y) → t.ram8 loc y = s.ram8 loc y) ∧
        Frame [.ram, .red, .cles] s t)) ∧
    (∀ x, i.op = .put → transferOk c (s.sm d c i.b) i.n false = true → areaOf c (s.sm d c i.b) = .sram x →
      (∀ w, s.transferCrosses d c (s.sm d c i.b) = true → Completes (.clePut d c .clean w true) s (fun t =>
        (∀ e, s.lost e = false → Output.event e 255 ∈ t.out) ∧ Frame (.cles :: mPost) s t)) ∧
      ∀ w, Completes (.clePut d c .clean w false) s (fun t =>
        (∀ j, j < i.n → t.ram32 d.toNat (x + 4 * j) = s.sm d c (i.a + j)) ∧
        (∀ loc y, (∀ j, j < i.n → ramKey loc y < ramKey d.toNat (x + 4 * j) ∨
          ramKey d.toNat (x + 4 * j) + 4 ≤ ramKey loc y) → t.ram8 loc y = s.ram8 loc y) ∧
        Frame [.ram, .red, .cores, .cles] s t)) ∧
    (i.op = .out → s.mayWrite d = true → Completes (.cleOut d c .clean false) s (fun t =>
      (∀ j, j < i.n → t.rdSh .d0 (Reg.CLE_OUT_Y c (i.b + j)) = s.sm d c (i.a + j)) ∧ t.regs = s.regs ∧
      Frame [.shadow, .cles] s t)) ∧
    (i.op = .out → Completes (.cleOut d c .clean true) s (fun t => (∀ e, s.lost e = false → Output.event e 255 ∈ t.out) ∧
      (t.cle d c).pc = (s.cle d c).pc + 1 ∧ Frame (.cles :: mPost) s t))

/-- A run starts at ENTRY with its accumulators clear, the engine in RUN, and MODE and FIRST as its conditions test them, once the
pricking is applied (R223, R227); END in time puts it back to IDLE and shows its run time (R224); a skipped END goes on (R227); a release is latched (R241); a fault of a running engine writes its record (R246); the
longest run time clears on its command (R248). That the run time is the larger of the cycle count and the ticks passed is the model's
choice of log entry 65. -/
def Obligations.CleRuns : Prop :=
  (∀ (d : Die) (c : Fin 4) (s : State), s.cleRuns d c = true → s.rd d (Reg.CLE_STAT_STATE c) ≠ cleRun →
    (s.cle d c).sup = false → Completes (.cleRunStart d c) s (fun t => t.rd d (Reg.CLE_STAT_STATE c) = cleRun ∧
      (t.cle d c).pc = s.rd d (Reg.CLE_CFG_ENTRY c) ∧ (∀ l, t.accOf d c l = ⟨0, false⟩) ∧
      (t.cle d c).k = s.io Reg.TB_PERIOD_NUM_K ∧ (t.cle d c).mode = s.limBits d c Reg.LOOP_STAT_MODE ∧
      (t.cle d c).first = s.limBits d c Reg.LOOP_STAT_FIRST ∧ RegsKept [(d, Reg.CLE_STAT_STATE c)] s t ∧ Frame [.regs, .cles] s t)) ∧
  (∀ (d : Die) (c : Fin 4) (i : CleInstr) (f g : Bool) (s : State), s.cleTurn d c i → i.op = .stop → (s.cle d c).sup = false →
    s.inGuard = false → s.io Reg.TB_PERIOD_NUM_K = (s.cle d c).k → Completes (.cleEnd d c f g) s (fun t => t.rd d (Reg.CLE_STAT_STATE c) = cleIdle ∧
      t.rd d (Reg.CLE_RUN_LAST_NS c) = s.runNs d c)) ∧
  (∀ (d : Die) (c : Fin 4) (i : CleInstr) (f g : Bool) (s : State), s.cleIssues d c = true → s.cleFetch d c = some i → i.op = .stop →
    s.executes d c i = false → Completes (.cleEnd d c f g) s (fun t => (t.cle d c).pc = (s.cle d c).pc + 1 ∧ Frame [.cles] s t)) ∧
  (∀ (d : Die) (c : Fin 4) (n : Fin 32) (s : State), Completes (.loopRelease d c n) s (fun t =>
    (t.cle d c).rel.getLsbD n = true ∧ (∀ m : Nat, m ≠ n.val → (t.cle d c).rel.getLsbD m = (s.cle d c).rel.getLsbD m) ∧
    Frame [.cles] s t)) ∧
  (∀ (d : Die) (c : Fin 4) (cause : Byte) (s : State), s.rd d (Reg.CLE_STAT_STATE c) = cleRun → cause.toNat ≠ causeCleEcc →
    tabGet [] s.faultTicks (8 * d.toNat + 2 * c + 1) = [] → Completes (.cleFault d c cause) s (fun t =>
      t.rd d (Reg.CLE_STAT_STATE c) = cleStopped ∧ t.bit d (Reg.CLE_STAT_FAULT c) = true ∧
      t.rd d (Reg.CLE_FAULT_REC_CAUSE c) = cause.toNat % 2 ^ (Reg.CLE_FAULT_REC_CAUSE c).width ∧
      (t.cle d c).missDue = true)) ∧
  ∀ (d : Die) (c : Fin 4) (s : State), Completes (.cleRunMaxClr d c) s (fun t => t.rd d (Reg.CLE_RUN_MAX_NS c) = 0 ∧
    RegsKept [(d, Reg.CLE_RUN_MAX_NS c)] s t ∧ Frame [.regs] s t)

/-! ### Gates and trips (R283 to R334) -/

/-- Gate outputs: the next edge of an output, with those of command changes still to come, takes it to its level after the voter,
however the copies differ or whichever one is fenced, and leaves every other gate as it was (R285, R288, R296, R304, R305); an echo
watch that times out counts as a missed echo (R301); a copy of a channel unit that differs shows TMR_ERR and is fenced in its third
period of it, and one that differs while another is fenced, or that is fenced while another differs, makes the unit faulty, both its
gates low (R305); GEN_DIS takes a written bit, but no 1 for a channel
in use of a balancing Cell (R308). -/
def Obligations.GateUnits : Prop :=
  (∀ (n : Fin 128) (upper : Bool) (e : Edge) (s : State), s.edgeDue n upper = some e →
    s.forceBlock n = false → s.testState = false →
    s.io (Reg.GEN_STAT_FENCE n) ∈ [0, 1, 2, 4] → Completes (.gateEdge n upper) s (fun t => t.gate n upper = e.level ∧
      (∀ (m : Fin 128) (u : Bool), (m, u) ≠ (n, upper) → t.gate m u = s.gate m u) ∧
      RegsKept [(.d0, Reg.GEN_STAT_PULSE_CUT n), (.d0, Reg.GEN_CMD_ACT n)] s t ∧ Frame [.regs, .gen, .pins, .tb] s t)) ∧
  (∀ (n : Fin 128) (u : Nat) (s : State), (s.genCh n).watch = some u → Completes (.echoWatchTimeout n) s (fun t =>
    t.genCh n = { s.genCh n with watch := none, lapsed := (u, u + s.io Reg.GEN_ADAPT_ECHO_WIN + 1) :: (s.genCh n).lapsed } ∧
    Frame [.gen, .tb] s t)) ∧
  (∀ (n : Fin 128) (c : Fin 3) (s : State), (s.genCh n).faulty = false → s.io (Reg.GEN_STAT_FENCE n) = 0 →
    Completes (.tmrMismatch n c) s (fun t => t.io (Reg.GEN_STAT_TMR_ERR n) = 1 ∧ (t.genCh n).diff.getLsbD c = true ∧
      ((s.genCh n).diff.getLsbD c = false → 2 ≤ runOf (s.genCh n).runs c → bitOf (t.io (Reg.GEN_STAT_FENCE n)) c = true ∧
        ((s.genCh n).diff ≠ 0 → (t.genCh n).faulty = true ∧ t.io (Reg.GEN_STAT_CH_FAULT n) = 1 ∧
          (s.testState = false → t.gatesLow n = true))) ∧
      ((s.genCh n).diff = 0 ∨ runOf (s.genCh n).runs c < 2 → Frame ([.regs, .gen, .pins] ++ mPost) s t) ∧ Frame mGrade s t)) ∧
  (∀ (n : Fin 128) (c : Fin 3) (s : State), (s.genCh n).faulty = false → s.io (Reg.GEN_STAT_FENCE n) ≠ 0 →
    bitOf (s.io (Reg.GEN_STAT_FENCE n)) c = false → s.testState = false → Completes (.tmrMismatch n c) s (fun t =>
      (t.genCh n).faulty = true ∧ t.gatesLow n = true ∧ t.io (Reg.GEN_STAT_CH_FAULT n) = 1 ∧ Frame mGrade s t)) ∧
  ∀ (d : Die) (w : Fin 4) (v : Word) (j : Fin 32) (s : State), s.mayWrite d = true → Completes (.genDis d w v) s (fun t =>
    bitOf (t.io (Reg.GEN_DIS_DIS w)) j = (if s.isHub = false ∧ s.bit d Reg.BAL_CFG_EN = true ∧ s.inUse (32 * w + j) = true ∧
      v.getLsbD j = true then bitOf (s.io (Reg.GEN_DIS_DIS w)) j else v.getLsbD j) ∧ Frame (.regs :: .gen :: mPost) s t)

/-- Carrier mode and the chain: the cycle start reloads x_a, and the command is NOT_INSERTED from there and inserted from 8P − x_a;
the middle reload makes it inserted up to 8P + x_b; each change takes effect at its own instant and waits until then (R294 to R296), the tick of a boundary left to the boundary (R292);
an epoch counts a cycle and starts it at the tracked tick, its SYNC_OUT pulse, driven after gate release only, ends (R32, R294, R298);
after gate release an edge starts tracking, is accepted in the window of its epoch, that of the present one or of the next, and is
refused as a slip outside both; a window without one misses, and MISS_LIMIT of them lose the track (R300). That the edges before gate
release steer nothing is the model's reading (log entry 125). -/
def Obligations.CarrierChain : Prop :=
  (∀ (n : Fin 128) (j u : Nat) (s : State), s.carrierLive n = true → s.cycleStart n = some (j, u) → s.tb.ticks ≤ u →
    (s.runTo u).tickAt s.tb.nextB ≠ u → Completes (.carrierCycleStart n) s (fun t =>
      let p8 := 8 * s.io Reg.GEN_CAR_CFG_P
      let x := ((s.runTo u).halfWidth n).1
      let ins := insertedCmd ((s.runTo u).halfWidth n).2.1
      (t.genCh n).cycRun = true ∧ (t.genCh n).maj.cyc = j ∧ (t.genCh n).cycStart = u ∧ (t.genCh n).maj.xa = x ∧
      t.io (Reg.GEN_CMD_ACT n) = (if x = p8 then ins else if x = 0 ∨ 16 ≤ p8 - x then 1 else ins) ∧
      (t.genCh n).chg = (if x ≠ p8 ∧ x ≠ 0 ∧ 16 ≤ p8 - x then [⟨16 * u + (p8 - x), ins, j⟩] else []) ∧
      RegsKept [(.d0, Reg.GEN_CMD_ACT n), (.d0, Reg.GEN_STAT_PW_CLAMP n)] s t ∧ Frame [.regs, .gen, .tb] s t)) ∧
  (∀ (n : Fin 128) (s : State), s.carrierLive n = true → (s.genCh n).cycRun = true →
    s.tb.ticks ≤ (s.genCh n).cycStart + s.io Reg.GEN_CAR_CFG_P / 2 →
    (s.runTo ((s.genCh n).cycStart + s.io Reg.GEN_CAR_CFG_P / 2)).tickAt s.tb.nextB ≠
      (s.genCh n).cycStart + s.io Reg.GEN_CAR_CFG_P / 2 → Completes (.carrierMidReload n) s (fun t =>
      let p8 := 8 * s.io Reg.GEN_CAR_CFG_P
      let w := (s.runTo ((s.genCh n).cycStart + s.io Reg.GEN_CAR_CFG_P / 2)).halfWidth n
      let x := w.1
      t.io (Reg.GEN_CMD_ACT n) = (if x = 0 ∨ x ≠ p8 ∧ (p8 + x) / 16 = s.io Reg.GEN_CAR_CFG_P / 2 then 1
        else insertedCmd w.2.1) ∧
      (x ≠ 0 → x ≠ p8 → s.io Reg.GEN_CAR_CFG_P / 2 < (p8 + x) / 16 →
        ⟨16 * (s.genCh n).cycStart + (p8 + x), 1, (s.genCh n).maj.cyc⟩ ∈ (t.genCh n).chg) ∧
      RegsKept [(.d0, Reg.GEN_CMD_ACT n), (.d0, Reg.GEN_STAT_PW_CLAMP n)] s t ∧ Frame [.regs, .gen, .tb] s t)) ∧
  (∀ s : State, s.io Reg.GEN_CAR_CFG_SRC ≠ 0 → Completes .deviceEpoch s (fun t =>
    t.io Reg.GEN_CYCLE_J = (s.io Reg.GEN_CYCLE_J + 1) % 2 ^ Reg.GEN_CYCLE_J.width ∧
    t.sync.epoch = s.sync.next.getD (s.sync.epoch + s.io Reg.GEN_CAR_CFG_P) ∧ t.sync.next = s.sync.early ∧
    t.sync.epochs.head? = some (t.io Reg.GEN_CYCLE_J, t.sync.epoch) ∧
    (s.io Reg.GEN_CAR_CFG_SYNC_OUT = 1 → s.testState = false → t.pins.syncOut = (s.pins.live && !s.power.shutdown)) ∧
    RegsKept [(.d0, Reg.GEN_CYCLE_J)] s t ∧ Frame [.regs, .sync, .pins, .tb] s t)) ∧
  (∀ s : State, Completes .syncOutPulseEnd s (fun t => t.pins.syncOut = (s.testState && s.pins.syncOut) ∧ t.sync.pulseEnd = none ∧
    Frame [.pins, .sync, .tb] s t)) ∧
  (∀ (n : Nat) (s : State), s.io Reg.GEN_CAR_CFG_SRC ≠ 0 → s.tb.released = true → Completes (.syncInEdge n) s (fun t =>
    (s.io Reg.GEN_SYNC_STAT_TRACK = 0 → t.io Reg.GEN_SYNC_STAT_TRACK = 1 ∧ t.io Reg.GEN_SYNC_STAT_MISS = 0 ∧
      t.sync.next = some (s.tb.ticks + n + s.io Reg.GEN_CAR_CFG_P - s.io Reg.GEN_SYNC_COMP)) ∧
    (s.io Reg.GEN_SYNC_STAT_TRACK ≠ 0 →
      (s.inWindow (s.tb.ticks + n) s.sync.epoch = true → t.io Reg.GEN_SYNC_STAT_MISS = 0 ∧
        t.sync.next = some (s.tb.ticks + n + s.io Reg.GEN_CAR_CFG_P - s.io Reg.GEN_SYNC_COMP)) ∧
      (s.inWindow (s.tb.ticks + n) s.sync.epoch = false → s.inNextWindow (s.tb.ticks + n) = true →
        t.io Reg.GEN_SYNC_STAT_MISS = 0 ∧ t.sync.next = s.sync.next ∧
        t.sync.early = some (s.tb.ticks + n + s.io Reg.GEN_CAR_CFG_P - s.io Reg.GEN_SYNC_COMP)) ∧
      (s.inWindow (s.tb.ticks + n) s.sync.epoch = false → s.inNextWindow (s.tb.ticks + n) = false →
        t.io Reg.GEN_SYNC_STAT_SLIP = 1 ∧ t.sync = s.sync)) ∧
    Frame ([.regs, .sync, .pins, .tb] ++ mPost) s t)) ∧
  ∀ s : State, s.io Reg.GEN_CAR_CFG_SRC ≠ 0 → s.io Reg.GEN_SYNC_STAT_TRACK ≠ 0 → s.sync.next = none →
    Completes .syncWindowClose s (fun t => t.sync.next = some (s.sync.epoch + s.io Reg.GEN_CAR_CFG_P) ∧
      (s.io Reg.GEN_SYNC_STAT_MISS + 1 < s.io Reg.GEN_SYNC_MISS_LIMIT →
        t.io Reg.GEN_SYNC_STAT_TRACK = s.io Reg.GEN_SYNC_STAT_TRACK) ∧
      (s.io Reg.GEN_SYNC_MISS_LIMIT ≤ s.io Reg.GEN_SYNC_STAT_MISS + 1 → t.io Reg.GEN_SYNC_STAT_TRACK = 0 ∧
        t.io Reg.GEN_SYNC_STAT_LOST = 1) ∧ Frame ([.regs, .sync, .tb] ++ mPost) s t)

/-- Trip sources: a firmware request, a TRIP_IN pin at its active level and a block order set each trip every ARMED or HOLD group
their mask names (R318, R319, R321, R323); a group cleared earlier in that tick is TRIPPED still, its clear refused, and one re-armed
in it stays TRIPPED (R328); the firmware's clear takes its bits away but those set in the same tick (R318, R328); a pulse of 1.0 ns or less does nothing
(R46); a clear request takes a TRIPPED group with no source in its tick to HOLD, and is refused to any other TRIPPED one (R323);
BYPASS turns on the lower gate of a channel held there (R315). -/
def Obligations.TripSources : Prop :=
  (∀ (d : Die) (g : BitVec 16) (j : Fin 16) (s : State), s.mayWrite d = true → g.getLsbD j = true →
    (s.armedOrHeld j → Completes (.tripFwSet d g) s (fun t => t.io (Reg.TRIP_GRP_STAT_STATE j) = grpTripped ∧
      t.asserted j = true ∧ t.trip.fw = s.trip.fw ||| g ∧ Frame mTrip s t)) ∧
    (∀ b, s.io (Reg.TRIP_GRP_STAT_STATE j) = grpHold → (s.grp j).cleared = some (s.tb.ticks, b) →
      Completes (.tripFwSet d g) s (fun t => t.io (Reg.TRIP_GRP_STAT_STATE j) = grpTripped ∧
        t.io (Reg.TRIP_GRP_STAT_CLR_REFUSED j) = 1 ∧ Frame mTrip s t)) ∧
    (∀ b, s.io (Reg.TRIP_GRP_STAT_STATE j) = grpArmed → (s.grp j).rearmed = some (s.tb.ticks, grpTripped, b) →
      Completes (.tripFwSet d g) s (fun t => t.io (Reg.TRIP_GRP_STAT_STATE j) = grpTripped ∧ t.asserted j = true ∧
        Frame mTrip s t))) ∧
  (∀ (d : Die) (g : BitVec 16) (s : State), s.mayWrite d = true → Completes (.tripFwClr d g) s (fun t =>
    t.trip.fw = s.trip.fw &&& ~~~(g &&& ~~~s.fwSetNow) ∧ Frame mTrip s t)) ∧
  (∀ (p : Fin 8) (l : Bool) (j : Fin 16) (s : State), bitOf (s.io Reg.TRIP_IN_CFG_EN) p = true →
    l ≠ bitOf (s.io Reg.TRIP_IN_CFG_POL) p → bitOf (s.io (Reg.TRIP_IN_MASK_MASK p)) j = true →
    s.armedOrHeld j → Completes (.tripInEdge p l none) s (fun t => t.io (Reg.TRIP_GRP_STAT_STATE j) = grpTripped ∧ t.asserted j = true ∧
      t.pins.tripIn.getLsbD p = l ∧ Frame mTrip s t)) ∧
  (∀ (p : Fin 8) (l : Bool) (w : Nat) (s : State), w ≤ 10 → exec (.tripInEdge p l (some w)) s = .next s) ∧
  (∀ (k : Fin 32) (j : Fin 16) (s : State), s.seesBos k = true → bitOf (s.io Reg.TRIP_BOS_CFG_MASK) j = true →
    s.armedOrHeld j → Completes (.blockOrderSet k) s (fun t => t.io (Reg.TRIP_GRP_STAT_STATE j) = grpTripped ∧ t.asserted j = true ∧
      (∀ m : Fin 32, m ≠ k → bitOf (s.io Reg.TRIP_BOS_FWD_LANES) m = true → Output.bos m true ∈ t.out) ∧
      Frame mTrip s t)) ∧
  (∀ s : State, Completes .bosQuietTimeout s (fun t => t.trip.bos = false ∧ Frame mTrip s t)) ∧
  (∀ (d : Die) (g : BitVec 16) (j : Fin 16) (s : State), s.mayWrite d = true → g.getLsbD j = true →
    s.tripScan.io (Reg.TRIP_GRP_STAT_STATE j) = grpTripped → Completes (.tripClr d g) s (fun t =>
      (s.tripScan.sourceNow j = false → t.io (Reg.TRIP_GRP_STAT_STATE j) = grpHold) ∧
      (s.tripScan.sourceNow j = true → t.io (Reg.TRIP_GRP_STAT_STATE j) = grpTripped ∧
        t.io (Reg.TRIP_GRP_STAT_CLR_REFUSED j) = 1) ∧ Frame mTrip s t)) ∧
  ∀ (n : Fin 128) (u : Nat) (s : State), (s.genCh n).bypassAt = some u → s.chAsserted n = true → s.forceBlock n = false →
    s.testState = false → Completes (.bypassTurnOn n) s (fun t => t.gate n false = true ∧
      (∀ (m : Fin 128) (v : Bool), (m, v) ≠ (n, false) → t.gate m v = s.gate m v) ∧ Frame [.gen, .pins, .tb] s t)

/-- Trip latches and records: a latch copy that differs shows TMR_ERR, and one that differs while another is fenced takes its group
to FAULT, asserted (R326, R327); a record goes into the ring of every die whose bridge is open, and the write index advances
(R329); block order sets are repeated on their lanes (R322). -/
def Obligations.TripRecords : Prop :=
  (∀ (j : Fin 16) (c : Fin 3) (s : State), s.io (Reg.TRIP_GRP_STAT_STATE j) ≠ grpFault → s.io (Reg.TRIP_GRP_STAT_FENCE j) = 0 →
    Completes (.latchTmrMismatch j c) s (fun t => t.io (Reg.TRIP_GRP_STAT_TMR_ERR j) = 1 ∧
      t.io (Reg.TRIP_GRP_STAT_STATE j) = s.io (Reg.TRIP_GRP_STAT_STATE j) ∧ Frame ([.regs, .trip] ++ mPost) s t)) ∧
  (∀ (j : Fin 16) (c : Fin 3) (s : State), s.io (Reg.TRIP_GRP_STAT_STATE j) ≠ grpFault → s.io (Reg.TRIP_GRP_STAT_FENCE j) ≠ 0 →
    bitOf (s.io (Reg.TRIP_GRP_STAT_FENCE j)) c = false → Completes (.latchTmrMismatch j c) s (fun t =>
      t.io (Reg.TRIP_GRP_STAT_STATE j) = grpFault ∧ t.asserted j = true ∧ t.io (Reg.TRIP_GRP_STAT_GRP_FAULT j) = 1 ∧
      Frame mGrade s t)) ∧
  (∀ (r : TripRec) (rs : List TripRec) (s : State), s.trip.recs = r :: rs → s.io Reg.TRIP_REC_WP_IDX < 512 →
    Completes .tripRecordWrite s (fun t => t.trip.recs = rs ∧ t.trip.seq = s.trip.seq + 1 ∧
      t.io Reg.TRIP_REC_WP_IDX = (s.io Reg.TRIP_REC_WP_IDX + 1) % 512 ∧
      (∀ d, s.lost d = false → t.ramBytes d.toNat (tripRing + 32 * s.io Reg.TRIP_REC_WP_IDX) 32 =
        tripRecBytes r (s.trip.seq % 2 ^ 32)) ∧
      RegsKept [(.d0, Reg.TRIP_REC_WP_IDX)] s t ∧ Frame [.regs, .ram, .red, .trip] s t)) ∧
  ∀ s : State, Completes .bosRepeat s (fun t => (∀ k : Fin 32, bitOf s.bosLanes k = true → Output.bos k false ∈ t.out) ∧
    Frame [.out, .links, .trip] s t)

/-! ### Balancing (R252 to R282) -/

/-- Balancing: a Cell sorts its ladder once a period and shows its length (R258), unless the period ends before T_SORT (R66); a reinstatement stands for the next boundary
(R255); the Hub's quantiser shows the Cells it merged (R261, R272); a deadline with nothing applied
is a MISS, one with a threshold applied is none (R271); a population below 16 is POP_SMALL (R278). -/
def Obligations.Balancing : Prop :=
  (∀ (d : Die) (s : State), s.balOn d = true → s.isHub = false → (s.cellBal d).built = false → s.red.stopAt = none →
    (s.inPeriod (s.rd d Reg.BAL_TSORT_T_SORT) = false → exec (.ladderBuild d false) s = .next s) ∧
    (s.inPeriod (s.rd d Reg.BAL_TSORT_T_SORT) = true → Completes (.ladderBuild d false) s (fun t => (t.cellBal d).built = true ∧ (t.cellBal d).ladder = s.sortLadder d ∧
      t.rd d Reg.BAL_STAT_E = (s.sortLadder d).length % 2 ^ Reg.BAL_STAT_E.width ∧
      RegsKept [(d, Reg.BAL_STAT_E)] s t ∧ Frame [.tb, .regs, .balCell, .links] s t))) ∧
  (∀ (d : Die) (n : Fin 128) (s : State), Completes (.balReinstate d n) s (fun t => (t.balCh' d n).reinst = true ∧
    Frame [.balCh] s t)) ∧
  (∀ (d : Die) (a : Fin 6) (s : State), s.balOn d = true → s.isHub = true → s.rd d (Reg.BAL_ARM_CFG_EN a) ≠ 0 →
    s.inPeriod (s.rd d (Reg.BAL_ARM_QS_Q_START a)) = true → Completes (.levelQuantiser d a false) s (fun t =>
      t.rd d (Reg.BAL_ARM_STAT_CELLS a) = ((s.armMembers d a (s.io Reg.TB_PERIOD_NUM_K)).filter
        (fun e => e.2.lads.any (fun x => x.period = s.io Reg.TB_PERIOD_NUM_K))).length
          % 2 ^ (Reg.BAL_ARM_STAT_CELLS a).width ∧
      Frame ([.tb, .regs, .hubArm, .hubMem, .links, .nol] ++ mPost) s t)) ∧
  (∀ (d : Die) (s : State), s.balOn d = true → s.isHub = false → s.tb.released = true →
    ((s.cellBal d).applied = false → Completes (.thresholdDeadline d) s (fun t => t.bit d Reg.BAL_STAT_MISS = true ∧
      (t.cellBal d).heldNext = true)) ∧
    ((s.cellBal d).applied = true → Completes (.thresholdDeadline d) s (fun t => Frame [.tb] s t))) ∧
  ∀ (d : Die) (s : State), s.healthOn d = true →
    (s.channels.filter (fun n => decide (16 ≤ s.hlt d n 0x8 2))).length < 16 →
    (s.channels.filter (fun n => decide (16 ≤ s.hlt d n 0xA 2))).length < 16 → Completes (.healthEvaluation d) s (fun t =>
      t.bit d Reg.BAL_STAT_POP_SMALL = true ∧ Frame [.regs, .links] s t)

/-! ### Serial lanes (R335 to R359) -/

/-- Training, from the lane window on: each step of an attempt follows the one before, from CDR to EQ to ALIGN to HANDSHAKE to UP; the
search of EQ tries one code after the other, keeping the best, and its end keeps the code of the largest figure; a failed attempt goes to
BACKOFF, or to ABSENT after a poll or the last retry; signal, backoff and polls start the next (R45, R339 to R343, R345, R348, R350,
R351, R356). -/
def Obligations.LaneTraining : Prop :=
  (∀ (k : Fin 32) (s : State), s.io (Reg.LANE_CFG_USE k) ≠ 0 → s.laneState k ≤ lanePllWait →
    s.laneSupply = true → s.refOk k = true → phaseLanes ≤ s.phase →
    Completes (.laneTrainStart k) s (fun t => t.laneState k = laneTrain ∧ t.io (Reg.LANE_STAT_PHASE k) = phaseCdr ∧
      t.io (Reg.LANE_STAT_RETRY k) = 0 ∧ Frame mLane s t)) ∧
  (∀ (k : Fin 32) (s : State), s.laneState k = laneTrain → s.io (Reg.LANE_STAT_PHASE k) = phaseCdr →
    Completes (.laneCdrLock k) s (fun t => t.io (Reg.LANE_STAT_PHASE k) = phaseEq ∧ t.io (Reg.LANE_STAT_SD k) = 1 ∧
      t.io (Reg.LANE_STAT_CDR_LOCK k) = 1 ∧ (t.lane k).eqSeen = 0 ∧
      t.io (Reg.LANE_EQ_CTLE k) = (if s.ioBit (Reg.LANE_EQ_FREEZE k) then s.io (Reg.LANE_EQ_CTLE k)
        else s.io (Reg.LANE_EQ_CTLE_LO k) % 2 ^ (Reg.LANE_EQ_CTLE k).width) ∧
      Frame [.regs, .lanes] s t)) ∧
  (∀ (k : Fin 32) (h v : Nat) (s : State), s.laneState k = laneTrain → s.io (Reg.LANE_STAT_PHASE k) = phaseEq →
    (s.lane k).eqSeen < s.eqCodes k → Completes (.laneFomMeasure k h v) s (fun t =>
      t.io (Reg.LANE_STAT_FOM k) = fom h v ∧ (t.lane k).eqSeen = (s.lane k).eqSeen + 1 ∧
      ((s.lane k).eqSeen + 1 < s.eqCodes k → t.io (Reg.LANE_EQ_CTLE k) =
        (s.io (Reg.LANE_EQ_CTLE_LO k) + ((s.lane k).eqSeen + 1)) % 2 ^ (Reg.LANE_EQ_CTLE k).width) ∧
      ((s.lane k).eqSeen = 0 → (t.lane k).eqBest = (s.io (Reg.LANE_EQ_CTLE_LO k), fom h v)) ∧
      ((s.lane k).eqSeen ≠ 0 → (t.lane k).eqBest = if (s.lane k).eqBest.2 < fom h v
        then (s.io (Reg.LANE_EQ_CTLE_LO k) + (s.lane k).eqSeen, fom h v) else (s.lane k).eqBest) ∧
      Frame [.regs, .lanes] s t)) ∧
  (∀ (k : Fin 32) (fs : List Byte) (s : State), s.laneState k = laneTrain → s.io (Reg.LANE_STAT_PHASE k) = phaseEq →
    (s.lane k).eqSeen = s.eqCodes k → 0 < s.eqCodes k → Completes (.laneEqSearchDone k fs) s (fun t =>
      t.io (Reg.LANE_STAT_PHASE k) = phaseAlign ∧ t.io (Reg.LANE_STAT_FOM k) = s.io (Reg.LANE_STAT_FOM k) ∧
      t.io (Reg.LANE_EQ_CTLE k) = (if s.ioBit (Reg.LANE_EQ_FREEZE k) then s.io (Reg.LANE_EQ_CTLE k)
        else (s.lane k).eqBest.1 % 2 ^ (Reg.LANE_EQ_CTLE k).width) ∧ Frame (.regs :: mPost) s t)) ∧
  (∀ (k : Fin 32) (fs : List Byte) (s : State), s.laneState k = laneTrain → s.io (Reg.LANE_STAT_PHASE k) = phaseEq →
    (s.lane k).eqSeen = 0 →
    ((s.ioBit (Reg.LANE_EQ_FREEZE k) = true → 1 ≤ fs.length → Completes (.laneEqSearchDone k fs) s (fun t =>
      t.io (Reg.LANE_STAT_PHASE k) = phaseAlign ∧ t.io (Reg.LANE_ALIGN_BUSY k) = 1 ∧
      t.io (Reg.LANE_STAT_FOM k) = (fs.headD 0).toNat ∧ t.io (Reg.LANE_EQ_CTLE k) = s.io (Reg.LANE_EQ_CTLE k) ∧
      Frame (.regs :: mPost) s t)) ∧
    (s.ioBit (Reg.LANE_EQ_FREEZE k) = false → s.io (Reg.LANE_EQ_CTLE_LO k) ≤ s.io (Reg.LANE_EQ_CTLE_HI k) →
      s.io (Reg.LANE_EQ_CTLE_HI k) < 16 →
      s.io (Reg.LANE_EQ_CTLE_HI k) + 1 - s.io (Reg.LANE_EQ_CTLE_LO k) = fs.length → Completes (.laneEqSearchDone k fs) s (fun t =>
        t.io (Reg.LANE_STAT_PHASE k) = phaseAlign ∧ t.io (Reg.LANE_ALIGN_BUSY k) = 1 ∧
        t.io (Reg.LANE_STAT_FOM k) = (fs.getLastD 0).toNat ∧ s.io (Reg.LANE_EQ_CTLE_LO k) ≤ t.io (Reg.LANE_EQ_CTLE k) ∧
        t.io (Reg.LANE_EQ_CTLE k) ≤ s.io (Reg.LANE_EQ_CTLE_HI k) ∧
        (∀ f ∈ fs, f ≤ fs.getD (t.io (Reg.LANE_EQ_CTLE k) - s.io (Reg.LANE_EQ_CTLE_LO k)) 0) ∧ Frame (.regs :: mPost) s t)))) ∧
  (∀ (k : Fin 32) (a : Bool) (w : Option Die) (s : State), s.laneState k = laneTrain →
    s.io (Reg.LANE_STAT_PHASE k) = phaseAlign → Completes (.laneAlignWindowEnd k a w) s (fun t =>
      t.io (Reg.LANE_ALIGN_ALIGNED k) = b2n (a && !w.any s.mayWrite) ∧ t.io (Reg.LANE_ALIGN_BUSY k) = b2n (w.any s.mayWrite) ∧
      t.io (Reg.LANE_STAT_PHASE k) = (if a = true ∧ w.any s.mayWrite = false then phaseHandshake else phaseAlign) ∧
      Frame [.regs] s t)) ∧
  (∀ (k : Fin 32) (b1 b2 b3 b4 b5 b6 b7 : Byte) (s : State), wordValid b1 b2 b3 b4 b5 b6 b7 = true →
    (b2.getLsbD 0 = false → s.laneState k = laneUp → Completes (.trainingWord k b1 b2 b3 b4 b5 b6 b7) s (fun t =>
      t.laneState k = laneTrain ∧ t.io (Reg.LANE_PEER_LANE k) = b3.toNat % 2 ^ (Reg.LANE_PEER_LANE k).width ∧
      Frame mLane s t)) ∧
    (b2.getLsbD 0 = true → s.laneState k = laneUp → exec (.trainingWord k b1 b2 b3 b4 b5 b6 b7) s = .next s) ∧
    (b2.getLsbD 0 = true → s.laneState k = laneTrain → s.io (Reg.LANE_STAT_PHASE k) = phaseHandshake →
      s.io (Reg.LANE_CFG_USE k) = 1 → s.sendsReady k = true → 15 ≤ (s.lane k).readyGot → 15 ≤ (s.lane k).readySent →
      s.ioBit (Reg.LANE_CTL_TX_SLEEP k) = false → s.ioBit (Reg.LANE_CTL_RX_SLEEP k) = false →
      Completes (.trainingWord k b1 b2 b3 b4 b5 b6 b7) s (fun t => t.laneState k = laneUp ∧
        Output.training k (s.trainingBytes k true) ∈ t.out ∧ Frame mLane s t)) ∧
    (b2.getLsbD 0 = false → s.laneState k = laneTrain → s.io (Reg.LANE_STAT_PHASE k) = phaseHandshake →
      s.io (Reg.LANE_CFG_USE k) = 1 → s.laneTx k = .training → Completes (.trainingWord k b1 b2 b3 b4 b5 b6 b7) s (fun t =>
        (t.lane k).readyGot = 0 ∧ t.laneState k = laneTrain ∧
        t.out = .training k (s.trainingBytes k (s.sendsReady k)) :: s.out ∧
        Frame [.regs, .lanes, .out] s t))) ∧
  (∀ (k : Fin 32) (s : State), s.laneState k = laneTrain → s.io (Reg.LANE_STAT_PHASE k) = phaseHandshake →
    s.io (Reg.LANE_CFG_USE k) = 2 → s.io (Reg.LANE_CFG_FOM_MIN k) ≤ s.io (Reg.LANE_STAT_FOM k) →
    s.ioBit (Reg.LANE_CTL_TX_SLEEP k) = false → s.ioBit (Reg.LANE_CTL_RX_SLEEP k) = false →
    Completes (.pcsLinkUp k) s (fun t => t.laneState k = laneUp ∧ Frame mLane s t)) ∧
  (∀ (k : Fin 32) (s : State), s.laneState k = laneTrain → Completes (.laneAttemptTimeout k) s (fun t =>
    t.io (Reg.LANE_STAT_TIMEOUT k) = 1 ∧
    t.laneState k = (if (s.lane k).poll = true ∨ s.io Reg.LANE_GLB_CFG_RETRIES ≤ s.io (Reg.LANE_STAT_RETRY k) then laneAbsent
      else laneBackoff) ∧ Frame mLane s t)) ∧
  (∀ (k : Fin 32) (s : State),
    (s.laneState k = laneTrain → (s.lane k).sdSeen = true → Completes (.signalDetectLoss k) s (fun t =>
      t.io (Reg.LANE_STAT_LOS k) = 1 ∧ t.io (Reg.LANE_STAT_SD k) = 0 ∧
      (t.laneState k = laneAbsent ∨ t.laneState k = laneBackoff) ∧ Frame mLane s t)) ∧
    (s.rxServes k = true → s.ioBit (Reg.LANE_CTL_PEER_SLEEP_OK k) = true → Completes (.signalDetectLoss k) s (fun t =>
      t.laneState k = laneHalf ∧ t.io (Reg.LANE_STAT_RX_SVC k) = 0 ∧ Frame mLane s t)) ∧
    (s.rxServes k = true → s.ioBit (Reg.LANE_CTL_PEER_SLEEP_OK k) = false → Completes (.signalDetectLoss k) s (fun t =>
      t.laneState k = laneTrain ∧ t.io (Reg.LANE_STAT_LOS k) = 1 ∧ Frame mLane s t))) ∧
  (∀ (k : Fin 32) (s : State), s.laneState k = laneAbsent → Completes (.signalDetectRise k) s (fun t =>
    t.laneState k = laneTrain ∧ t.io (Reg.LANE_STAT_SD k) = 1 ∧ Frame mLane s t)) ∧
  (∀ (k : Fin 32) (s : State), s.laneState k = laneBackoff → Completes (.laneBackoffEnd k) s (fun t =>
    t.laneState k = laneTrain ∧
    t.io (Reg.LANE_STAT_RETRY k) = (s.io (Reg.LANE_STAT_RETRY k) + 1) % 2 ^ (Reg.LANE_STAT_RETRY k).width ∧
    Frame mLane s t)) ∧
  ∀ (k : Fin 32) (s : State), s.laneState k = laneAbsent → Completes (.laneAbsentPoll k) s (fun t =>
    t.laneState k = laneTrain ∧ (t.lane k).poll = true ∧ t.io (Reg.LANE_STAT_RETRY k) = 0 ∧ Frame mLane s t)

/-- Lanes in service: the figure of merit is measured, and the third low one in a row retrains (R344, R347); DFE taps step by their
signs within ±31 (R346); enough invalid words, a lost quad PLL and a lost reference take lanes out of service (R45, R336, R349,
R350);
commands retrain, slip a bit, clear the retrain counter, put directions to sleep, relock, and select tests where allowed
(R348, R350, R352 to R355); a pattern under test leaves the lane in the polarity of TX_INV (R357), and its checker, which takes the received bits in that of RX_INV
or the lane's own in a near-end loopback, locks at its 64th error-free bit and then counts errored ones (R354, R355). The PLL of a lane, what a loss of lock leaves
and the generator's first bits are the model's choice (log entries 28 and 141). -/
def Obligations.LaneService : Prop :=
  (∀ (k : Fin 32) (h v : Nat) (s : State), s.rxOn k = true → Completes (.laneFomMeasure k h v) s (fun t =>
    t.io (Reg.LANE_STAT_FOM k) = fom h v ∧
    (s.rxServes k = true → fom h v < s.io (Reg.LANE_CFG_FOM_MIN k) → 2 ≤ (s.lane k).low → t.laneState k = laneTrain ∧
      t.io (Reg.LANE_STAT_FOM_LOW k) = 1) ∧ Frame mLane s t)) ∧
  (∀ (k : Fin 32) (z : List Int) (s : State), s.rxOn k = true →
    ¬(s.laneState k = laneTrain ∧ s.io (Reg.LANE_STAT_PHASE k) = phaseCdr) → s.ioBit (Reg.LANE_EQ_FREEZE k) = false →
    Completes (.dfeUpdate k z) s (fun t => (∀ j, j < 5 →
      signed 6 (t.io (Reg.LANE_DFE_TAPS k) / 2 ^ (6 * j)) =
        clamp (-31) 31 (signed 6 (s.io (Reg.LANE_DFE_TAPS k) / 2 ^ (6 * j)) + (z.getD j 0).sign)) ∧
      RegsKept [(.d0, Reg.LANE_DFE_TAPS k), (.d0, Reg.LANE_STAT_EQ_LIM k)] s t ∧ Frame (.regs :: mPost) s t)) ∧
  (∀ (k : Fin 32) (n : Nat) (s : State), s.rxServes k = true →
    (alignLimit (s.io (Reg.LANE_CFG_RATE k)) ≤ n → Completes (.laneAlignLoss k n) s (fun t =>
      t.laneState k = laneTrain ∧ t.io (Reg.LANE_STAT_ALIGN_LOST k) = 1 ∧ Frame mLane s t)) ∧
    (n < alignLimit (s.io (Reg.LANE_CFG_RATE k)) → Completes (.laneAlignLoss k n) s (fun t =>
      RegsKept [(.d0, Reg.LANE_CV_CNT_COUNT k), (.d0, Reg.LANE_CNT_STAT_CV_SAT k)] s t ∧ Frame [.regs] s t))) ∧
  (∀ (q : Fin 8) (p : Fin 2) (s : State), Completes (.quadPllUnlock q p) s (fun t => t.io (pllLost q p) = 1 ∧
    t.io (pllLock q p) = 0 ∧ (∀ k : Fin 32, k.val / 4 = q.val → s.pllOf k = p.val → s.laneState k ≠ laneOff →
      t.laneState k = lanePllWait) ∧ Frame mLane s t)) ∧
  (∀ (r : Fin 2) (s : State), Completes (.laneRefLoss r false) s (fun t => t.power.refLost.getLsbD r = false ∧
    Frame [.power] s t)) ∧
  (∀ (r : Fin 2) (s : State), Completes (.laneRefLoss r true) s (fun t => t.power.refLost.getLsbD r = true ∧
    (∀ k : Fin 32, k.val / 16 = r.val → s.laneState k ≠ laneOff → t.laneState k = lanePllWait) ∧
    Frame (.power :: mLane) s t)) ∧
  (∀ (d : Die) (k : Fin 32) (s : State), s.mayWrite d = true → s.laneState k ≠ laneOff → s.laneState k ≠ lanePllWait →
    s.laneState k ≠ laneTrain → s.laneState k ≤ laneHalf → Completes (.laneRetrain d k) s (fun t =>
      t.laneState k = laneTrain ∧ t.io (Reg.LANE_STAT_RETRY k) = 0 ∧ Frame mLane s t)) ∧
  (∀ (d : Die) (k : Fin 32) (s : State), s.mayWrite d = true → Completes (.laneBitslip d k) s (fun t =>
      t.io (Reg.LANE_ALIGN_SLIPS k) = (s.io (Reg.LANE_ALIGN_SLIPS k) + 1) % wordWidth (s.io (Reg.LANE_CFG_RATE k))
        % 2 ^ (Reg.LANE_ALIGN_SLIPS k).width ∧
      (s.laneState k = laneTrain → s.io (Reg.LANE_STAT_PHASE k) = phaseAlign → t.io (Reg.LANE_ALIGN_BUSY k) = 1 ∧
        t.io (Reg.LANE_ALIGN_ALIGNED k) = 0) ∧ Frame [.regs] s t)) ∧
  (∀ (d : Die) (k : Fin 32) (n : Nat) (s : State), s.mayWrite d = true → Completes (.laneRtClr d k n) s (fun t =>
    t.io (Reg.LANE_RETRAIN_COUNT k) = min (s.io Reg.LANE_GLB_CFG_RETRAIN_LIMIT) n % 2 ^ (Reg.LANE_RETRAIN_COUNT k).width ∧
    RegsKept [(.d0, Reg.LANE_RETRAIN_COUNT k)] s t ∧ Frame (.regs :: mPost) s t)) ∧
  (∀ (d : Die) (k : Fin 32) (v : Bool) (s : State), s.mayWrite d = true →
    (s.laneState k = laneUp ∨ s.laneState k = laneHalf) →
    Completes (.laneTxSleep d k v) s (fun t => t.io (Reg.LANE_CTL_TX_SLEEP k) = b2n v ∧
      t.io (Reg.LANE_STAT_TX_SVC k) = b2n (!v) ∧
      t.laneState k = (if v = false ∧ s.ioBit (Reg.LANE_STAT_RX_SVC k) = true then laneUp else laneHalf) ∧
      Frame mLane s t) ∧
    Completes (.laneRxSleep d k true) s (fun t => t.io (Reg.LANE_CTL_RX_SLEEP k) = 1 ∧ t.io (Reg.LANE_STAT_RX_SVC k) = 0 ∧
      t.laneState k = laneHalf ∧ Frame mLane s t) ∧
    Completes (.laneRxSleep d k false) s (fun t => t.io (Reg.LANE_CTL_RX_SLEEP k) = 0 ∧
      RegsKept [(.d0, Reg.LANE_CTL_RX_SLEEP k)] s t ∧ Frame [.regs] s t)) ∧
  (∀ (k : Fin 32) (h v : Nat) (s : State), s.laneState k = laneHalf → s.io (Reg.LANE_STAT_RX_SVC k) = 0 →
    s.io (Reg.LANE_CTL_RX_SLEEP k) = 0 →
    (s.io (Reg.LANE_CFG_FOM_MIN k) ≤ fom h v → Completes (.laneRxRelock k true h v) s (fun t =>
      t.io (Reg.LANE_STAT_RX_SVC k) = 1 ∧
      t.laneState k = (if s.ioBit (Reg.LANE_STAT_TX_SVC k) then laneUp else laneHalf) ∧ Frame mLane s t)) ∧
    Completes (.laneRxRelock k false h v) s (fun t => t.laneState k = laneTrain ∧
      t.io (Reg.LANE_RETRAIN_COUNT k) = s.io (Reg.LANE_RETRAIN_COUNT k) ∧ Frame mLane s t)) ∧
  (∀ (d : Die) (k : Fin 32) (v : BitVec 3) (s : State), s.mayWrite d = true →
    (s.testAllowed k = true → v.toNat < 4 → Completes (.laneLoopback d k v) s (fun t =>
      t.io (Reg.LANE_TEST_LOOP k) = v.toNat ∧ RegsKept [(.d0, Reg.LANE_TEST_LOOP k)] s t ∧ Frame [.regs] s t)) ∧
    (s.testAllowed k = true → Completes (.lanePrbs d k v) s (fun t => t.io (Reg.LANE_TEST_PRBS k) = v.toNat ∧
      t.io (Reg.LANE_TEST_CHK_LOCK k) = 0 ∧ Frame [.regs, .lanes] s t)) ∧
    (s.testAllowed k = false → Completes (.laneLoopback d k v) s (fun t => t.io (Reg.LANE_STAT_LB_REFUSED k) = 1 ∧
      RegsKept [(.d0, Reg.LANE_STAT_LB_REFUSED k)] s t ∧ Frame (.regs :: mPost) s t))) ∧
  ∀ (k : Fin 32) (b : Bool) (s : State), 1 ≤ s.io (Reg.LANE_TEST_PRBS k) → s.io (Reg.LANE_TEST_PRBS k) ≤ 3 →
    let p := s.io (Reg.LANE_TEST_PRBS k)
    let own := prbsNext p (s.lane k).prbsGen
    let sent := own != s.ioBit (Reg.LANE_CFG_TX_INV k)
    let bit := if s.io (Reg.LANE_TEST_LOOP k) = 2 then own
      else (if s.io (Reg.LANE_TEST_LOOP k) = 1 then sent else b) != s.ioBit (Reg.LANE_CFG_RX_INV k)
    Completes (.prbsCheckerLock k [b] false) s (fun t => (s.laneTx k = .pattern → t.out = .pattern k [sent] :: s.out) ∧
      (t.lane k).prbsGen = (own :: (s.lane k).prbsGen).take 31 ∧
      (s.ioBit (Reg.LANE_TEST_CHK_LOCK k) = true →
        (s.io (Reg.LANE_PRBS_ERR_COUNT k) < counterMax → t.io (Reg.LANE_PRBS_ERR_COUNT k) = s.io (Reg.LANE_PRBS_ERR_COUNT k) +
          b2n (bit != prbsNext p (s.lane k).prbsRef)) ∧
        t.io (Reg.LANE_TEST_CHK_LOCK k) = s.io (Reg.LANE_TEST_CHK_LOCK k)) ∧
      (s.ioBit (Reg.LANE_TEST_CHK_LOCK k) = false → 63 ≤ (s.lane k).prbsGood → 31 ≤ (s.lane k).prbsRef.length →
        bit = prbsNext p (s.lane k).prbsRef →
        t.io (Reg.LANE_TEST_CHK_LOCK k) = 1 ∧ t.io (Reg.LANE_PRBS_ERR_COUNT k) = s.io (Reg.LANE_PRBS_ERR_COUNT k)) ∧
      Frame [.regs, .lanes, .out] s t) ∧
    Completes (.prbsCheckerLock k [] true) s (fun t => t.io (Reg.LANE_TEST_CHK_LOCK k) = 0 ∧
      t.io (Reg.LANE_PRBS_ERR_COUNT k) = s.io (Reg.LANE_PRBS_ERR_COUNT k) ∧ Frame [.regs, .lanes, .out] s t)

/-! ### Nolri (R360 to R392) -/

/-- Nolri frames taken: a CYCLE of another period slips, and the first usable one before gate release sets the time value to its own plus
the delays, the residence in the Cell among them; a REF
gives its words to NOL_REF_RX; a threshold is applied; a ladder joins its member's; a STATUS that passes gives the peer's credit;
a HEALTH frame goes into the member's record (R265, R266, R272, R368, R371, R376, R408, R424). The
residence comes with the command (log entry 146, the model's choice). -/
def Obligations.NolriData : Prop :=
  (∀ (l : Fin 32) (h : NolHeader) (p : CyclePayload) (age : Nat) (s : State), s.takesFrame l typeCycle h (cycleBytes p) →
    s.isHub = false →
    (h.period.toNat ≠ s.io Reg.TB_PERIOD_NUM_K → Completes (.cycle l h p age) s (fun t =>
      t.io (Reg.NOL_LINK_FLAG_PERIOD_SLIP l) = 1)) ∧
    (p.flags.getLsbD 0 = true → s.servoSource = 1 → s.tb.released = false → s.servo.taken = false →
      Completes (.cycle l h p age) s (fun t =>
        t.tb.time = (((ts16 p.t1 : Int) + signed 64 p.corr.toNat + age + s.io (Reg.NOL_LINK_MDLY_DLY l) * 2 ^ 8) * 2 ^ 16
          % (2 ^ 48 * secUnit)).toNat ∧ t.ioBit Reg.TB_STAT_TIME_VALID = true ∧
        Frame (mNol ++ [.tb, .servo, .picot]) s t))) ∧
  (∀ (l : Fin 32) (h : NolHeader) (ws : List Word) (s : State), 1 ≤ ws.length → ws.length ≤ 64 →
    s.takesFrame l typeRef h (ws.flatMap (fun w => bytesOf 4 w.toNat)) → Completes (.ref l h ws) s (fun t =>
      (∀ i w, ws[i]? = some w → t.io (Reg.NOL_REF_RX_Y l i) = w.toNat) ∧ Frame mNol s t)) ∧
  (∀ (l : Fin 32) (h : NolHeader) (p : ThresholdPayload) (d : Die) (s : State),
    s.takesFrame l typeThreshold h (thresholdBytes p) → s.balOn d = true → s.isHub = false → s.tb.released = true →
    (s.cellBal d).applied = false → p.period.toNat = s.io Reg.TB_PERIOD_NUM_K →
    s.tb.ticks < s.tb.bTick + s.rd d Reg.BAL_TSEL_T_SEL →
    p.tie.toNat ≤ ((s.cellBal d).ladder.filter (fun e => e.1 = p.k.toNat)).length →
    Completes (.threshold l h p) s (fun t => (t.cellBal d).applied = true ∧ t.rd d Reg.BAL_STAT_MISS_RUN = 0 ∧
      t.rd d Reg.BAL_THR_K = p.k.toNat % 2 ^ Reg.BAL_THR_K.width)) ∧
  (∀ (l : Fin 32) (h : NolHeader) (p : LadderPayload) (d : Die) (m : HubMem) (s : State), p.keys.length = 128 →
    s.takesFrame l typeLadder h (ladderBytes p) → s.isHub = true → s.balOn d = true →
    s.hubMember d h.src.toNat = some m → p.e.toNat ≤ 128 → p.flags.toNat < 4 →
    p.ins.toNat ≤ 128 → p.reserved = 0 →
    (∀ x ∈ p.keys.drop p.e.toNat, x = 0xFFFF) → (∀ x ∈ p.keys.take p.e.toNat, x ≠ 0xFFFF) →
    (p.keys.take p.e.toNat).Pairwise (fun x y => x.toNat ≤ y.toNat) →
    later m.from_ p.period.toNat = false → p.period.toNat = s.io Reg.TB_PERIOD_NUM_K →
    s.tb.ticks < s.tb.bTick + s.rd d (Reg.BAL_ARM_QS_Q_START m.arm) → Completes (.ladder l h p) s (fun t =>
      ∃ n, t.hubMember d h.src.toNat = some n ∧
        ∃ x ∈ n.lads, x.period = p.period.toNat ∧ x.keys = (p.keys.take p.e.toNat).map BitVec.toNat)) ∧
  (∀ (l : Fin 32) (h : NolHeader) (p : StatusPayload) (s : State), s.nolPasses l typeStatus h (statusBytes p).length = true →
    Completes (.status l h p) s (fun t => (t.link l).credit = p.bulkCredit.toNat ∧ (t.link l).echo = ts16 p.txTime ∧
      (t.link l).stGot = true ∧ Frame (mNol ++ [.ram, .red]) s t)) ∧
  (∀ (l : Fin 32) (h : NolHeader) (g : Byte) (es : List HealthEntry) (d : Die) (j : Nat) (s : State), es.length ≤ 24 →
    s.takesFrame l typeHealth h (healthBytes g es) → s.isHub = true → s.memberOf h.src.toNat = some j →
    tabGet 0 s.nol.healthPer j ≠ h.period.toNat + 1 → s.lost d = false → Completes (.health l h g es) s (fun t =>
      t.ramBytes d.toNat (memberRecord j + 0x40) 16 = bytesOf 16 (flagMap es 0) ∧
      t.ramBytes d.toNat (memberRecord j + 0x50) 16 = bytesOf 16 (flagMap es 1) ∧ Frame (mNol ++ [.ram, .red]) s t)) ∧
  ∀ (l : Fin 32) (h : NolHeader) (bs : List Byte) (s : State), bs.length ≤ 2048 → s.takesFrame l typeBulk h bs →
    s.lost .d0 = false → s.io (Reg.NOL_LINK_RX_CNT_COUNT l) < counterMax → Completes (.bulk l h bs) s (fun t =>
      t.io (Reg.NOL_LINK_RX_CNT_COUNT l) = s.io (Reg.NOL_LINK_RX_CNT_COUNT l) + 1 ∧ Output.event .d0 198 ∈ t.out ∧
      Frame mNol s t)

/-- The link: a bad frame is flagged, counted and posted (R367), and event 255 with it where a full FIFO had cut it (R60); a marker with more than 32 ticks of skew keeps its lane out of the
bond (R381); markers leave on every lane of the dealing set with one count (R363, R380); at a slot's START its REF leaves with its
header, padding and CRC, or is lost in a full FIFO with event 255 (R60), and a slot with nothing to send is a miss (R365, R366, R368, R374); open frames leave in order where they end
before the next transmit slot, an ACCEPT with its FROM, a STATUS that is due behind them, and a bulk frame as far as the peer's credit
goes; any other waits (R370, R375, R376, R384); an expired route is forgotten (R362). -/
def Obligations.NolriLinks : Prop :=
  (∀ (l : Fin 32) (b : Bool) (s : State), s.lost .d0 = false → Completes (.nolriFrameBad l b) s (fun t =>
    t.io (Reg.NOL_LINK_FLAG_BAD l) = 1 ∧ Output.event .d0 203 ∈ t.out ∧ (b = true → Output.event .d0 255 ∈ t.out) ∧
    Frame (.regs :: mPost) s t)) ∧
  (∀ (k : Fin 32) (a b : Byte) (skew l : Nat) (ls : List Nat) (s : State), s.rxServes k = true → s.linksOn k = l :: ls →
    s.io (Reg.NOL_LINK_LANES_N l) < 4 → 32 < skew → Completes (.bondMarker k a b skew) s (fun t =>
      t.io (Reg.NOL_LINK_FLAG_SKEW l) = 1 ∧
      (∃ c : Fin 4, s.laneAt l c = k.val ∧ (t.link l).keptOut.getLsbD c = true) ∧ Frame (mPost ++ [.regs, .links]) s t)) ∧
  (∀ (l : Fin 32) (s : State), s.io (Reg.NOL_LINK_CFG_EN l) ≠ 0 → Completes (.markerDue l) s (fun t =>
    (t.link l).markCount = ((s.link l).markCount + 1) % 256 ∧
    (∀ p, p < 4 → bitOf (s.io (Reg.NOL_LINK_STAT_TX_SET l)) p = true →
      ∃ a, Output.marker (s.laneAt l p) a (s.link l).markCount ∈ t.out) ∧ Frame [.links, .out] s t)) ∧
  (∀ (l e : Fin 32) (s : State), s.io (Reg.NOL_LINK_CFG_EN l) ≠ 0 → s.io (Reg.NOL_LINK_STAT_STATE l) ≠ linkDown →
    s.io (Reg.NOL_LINK_STAT_STATE l) ≠ linkPending → s.io (Reg.NOL_LINK_STAT_TX_SET l) ≠ 0 →
    s.io (Reg.NOL_SCHED0_EN l (s.io (Reg.NOL_LINK_STAT_FORM l)) e) ≠ 0 →
    s.io (Reg.NOL_SCHED0_RX l (s.io (Reg.NOL_LINK_STAT_FORM l)) e) ≠ 1 →
    s.inPeriod (s.io (Reg.NOL_SCHED0_START l (s.io (Reg.NOL_LINK_STAT_FORM l)) e)) = true →
    (s.io (Reg.NOL_SCHED0_TYPE l (s.io (Reg.NOL_LINK_STAT_FORM l)) e) = typeRef → Completes (.slotStart l e false) s (fun t =>
      let f := s.io (Reg.NOL_LINK_STAT_FORM l)
      (∃ ws, t.out.head? = some (.nolri l (s.refFrame (s.ioBit (Reg.NOL_SCHED1_BCAST l f e)) (s.io (Reg.NOL_SCHED1_NODE l f e))
        (s.io (Reg.NOL_SCHED1_LEN_MAX l f e)) (s.io (Reg.NOL_SCHED2_CLE l f e)) (s.io (Reg.NOL_SCHED2_WORD l f e))).bytes ws)) ∧
      Frame [.tb, .links, .out] s t) ∧
      Completes (.slotStart l e true) s (fun t => (∀ bs ws, Output.nolri l bs ws ∈ t.out → Output.nolri l bs ws ∈ s.out) ∧
        (∀ d, s.lost d = false → Output.event d 255 ∈ t.out) ∧ Frame ([.tb, .links] ++ mPost) s t)) ∧
    (s.io (Reg.NOL_SCHED0_TYPE l (s.io (Reg.NOL_LINK_STAT_FORM l)) e) = typeThreshold → (s.link l).tcQ = [] →
      Completes (.slotStart l e false) s (fun t => t.io (Reg.NOL_LINK_FLAG_SLOT_MISS l) = 1 ∧
        Frame ([.tb, .regs, .links] ++ mPost) s t))) ∧
  (∀ (l : Fin 32) (m : BitVec 4) (s : State),
    (s.openFits l (s.openLen l) = false → exec (.openFrameSend l m false) s = .next s) ∧
    (∀ (f : OutFrame) (fs : List OutFrame), (s.link l).membQ = f :: fs → s.openFits l f.payload.length = true →
      (f.type ≠ typeAccept → Completes (.openFrameSend l m false) s (fun t => (t.link l).membQ = fs ∧
        (∃ ws, t.out.head? = some (.nolri l f.bytes ws)) ∧ Frame [.tb, .links, .nol, .out] s t)) ∧
      (∀ j, f.type = typeAccept → f.hops = 0 → s.isHub = true → s.memberUid (field f.payload 0 8) = some j →
        Completes (.openFrameSend l m false) s (fun t => (t.link l).membQ = fs ∧
          tabGet 0 t.nol.memberFrom j = (s.io Reg.TB_PERIOD_NUM_K + 2) % 2 ^ 32 ∧
          (∃ ws, t.out.head? = some (.nolri l (OutFrame.bytes
            { f with payload := acceptBytes (field f.payload 0 8) ((s.io Reg.TB_PERIOD_NUM_K + 2) % 2 ^ 32) }) ws)) ∧ Frame [.tb, .links, .nol, .hubMem, .out] s t))) ∧
    ((s.link l).membQ = [] → (s.link l).statusDue = true → s.openFits l 48 = true → Completes (.openFrameSend l m false) s (fun t =>
      (t.link l).statusDue = false ∧ (t.link l).stSent = true ∧ (∃ bs ws, t.out.head? = some (.nolri l bs ws)) ∧
      Frame [.tb, .links, .out] s t))) ∧
  (∀ (l : Fin 32) (f : OutFrame) (fs : List OutFrame) (s : State), (s.link l).bulkQ = f :: fs →
    (s.openFits l f.payload.length = true →
      ((s.link l).bulkSent.map (·.2)).sum + frameUnits f.payload.length * 64 ≤ (s.link l).credit →
      Completes (.bulkFrameSend l false) s (fun t => (t.link l).bulkQ = fs ∧ (∃ ws, t.out.head? = some (.nolri l f.bytes ws)) ∧
        Frame [.tb, .links, .out] s t)) ∧
    (s.openFits l f.payload.length = false → exec (.bulkFrameSend l false) s = .next s) ∧
    ((s.link l).credit < ((s.link l).bulkSent.map (·.2)).sum + frameUnits f.payload.length * 64 →
      exec (.bulkFrameSend l false) s = .next s)) ∧
  ∀ (j : Fin 32) (s : State), Completes (.routeExpiry j) s (fun t => t.io (Reg.NOL_ROUTE_VALID j) = 0 ∧
    j.val ∉ t.nol.routeOrder ∧ Frame [.regs, .nol] s t)

/-- Membership: a detached Cell joins once its UP link carries frames, repeats its JOIN, is accepted with a FROM period, refused with
a reason, and detached by its timeout or its Hub (R385); a Hub takes the JOINs of one tick in ascending order of UID, accepts one that
passes its checks and refuses any other (R384), and loses a member that leaves or is silent, but not where its frame comes in the
tick of its timeout (R386, R388). -/
def Obligations.Membership : Prop :=
  (∀ (as : List JoinArrival) (s : State), ((s.receiveJoins as []).2.map (·.p.uid.toNat)).Pairwise (· ≤ ·)) ∧
  (∀ (j : Fin 32) (s : State), exec (.memberTimeout j true) s = .next s) ∧
  (∀ s : State, s.isHub = false → s.memb = membDetached → phaseMembership ≤ s.phase → s.phase ≤ phaseRun →
    s.upLinkServes = true → Completes .joinStart s (fun t => t.memb = membJoining ∧ Frame [.regs, .links] s t)) ∧
  (∀ (l : Nat) (ls : List Nat) (s : State), s.isHub = false → s.memb = membJoining → s.linksOf dirUp = l :: ls →
    Completes .joinRetry s (fun t => (∃ f, f.type = typeJoin ∧ (t.link l).membQ = (s.link l).membQ ++ [f]) ∧
      Frame [.links] s t)) ∧
  (∀ s : State, s.isHub = false → s.memb = membRefused → Completes .refusedRetry s (fun t => t.memb = membJoining ∧
    Frame [.regs, .links] s t)) ∧
  (∀ s : State, s.isHub = false → s.memb = membAccepted → Completes .membershipTimeout s (fun t => t.memb = membDetached ∧
    t.ioBit Reg.NOL_MEMB_STAT_MEMB_LOST = true ∧ Frame ([.regs, .servo, .tb] ++ mPost) s t)) ∧
  (∀ (j : Fin 32) (s : State), s.isHub = true → s.io (Reg.NOL_MEMBER0_VALID j) = 1 → Completes (.memberTimeout j false) s (fun t =>
    t.io (Reg.NOL_MEMBER0_VALID j) = 0 ∧ t.ioBit Reg.NOL_MEMB_STAT_MEMB_TIMEOUT = true ∧
    Frame ([.regs, .hubMem, .nol] ++ mPost) s t)) ∧
  (∀ (l : Fin 32) (h : NolHeader) (p : JoinPayload) (s : State), s.takesFrame l typeJoin h (joinBytes p) → s.isHub = true →
    p.uid.toNat ∉ s.nol.leftNow → s.memberUid p.uid.toNat = none → Completes (.join l h p []) s (fun t =>
      ∃ f, (t.link l).membQ.getLast? = some f ∧ f.dst = h.src.toNat ∧
        (s.joinReason h p = 0 → f.type = typeAccept) ∧
        (s.joinReason h p ≠ 0 → f.type = typeRefuse ∧ f.payload = reasonBytes p.uid.toNat (s.joinReason h p)) ∧
        Frame mNol s t)) ∧
  (∀ (l : Fin 32) (h : NolHeader) (n : Word) (s : State), s.isHub = false → s.memb = membJoining →
    s.takesFrame l typeAccept h (acceptBytes s.uid n.toNat) → s.uid < 2 ^ 64 →
    Completes (.accept l h (BitVec.ofNat 64 s.uid) n) s (fun t => t.memb = membAccepted ∧
      t.io Reg.NOL_MEMB_FROM_FROM = n.toNat ∧ Frame mNol s t)) ∧
  (∀ (l : Fin 32) (h : NolHeader) (r : Byte) (s : State), s.isHub = false → s.memb = membJoining →
    s.takesFrame l typeRefuse h (reasonBytes s.uid r.toNat) → s.uid < 2 ^ 64 →
    Completes (.refuse l h (BitVec.ofNat 64 s.uid) r) s (fun t => t.memb = membRefused ∧
      t.io Reg.NOL_MEMB_STAT_REASON = r.toNat % 2 ^ Reg.NOL_MEMB_STAT_REASON.width ∧ Frame mNol s t)) ∧
  ∀ (l : Fin 32) (h : NolHeader) (u : BitVec 64) (r : Byte) (s : State),
    s.takesFrame l typeLeave h (reasonBytes u.toNat r.toNat) →
    (s.isHub = false → h.src.toNat = s.sys Reg.SYS_NODE_PARENT → s.memb = membAccepted →
      Completes (.leave l h u r) s (fun t => t.memb = membDetached ∧ Frame ([.servo, .tb] ++ mNol) s t)) ∧
    (∀ j, s.isHub = true → s.memberUid u.toNat = some j → Completes (.leave l h u r) s (fun t =>
      t.io (Reg.NOL_MEMBER0_VALID j) = 0 ∧ u.toNat ∈ t.nol.leftNow ∧ Frame (.hubMem :: mNol) s t))

/-! ### The station network, PTP, the servo, picot (R393 to R427) -/

/-- The station network: a bad frame is counted, one for the device is handed to its receiver (R394, R395); a port sends the first frame
of its highest queue, at once where it is free, and never cuts one in progress (R396); HSR frames for others are forwarded, with a tag or without, and
the device's own are removed (R400); PRP
supervision frames go to both ports and are counted, duplicate entries expire (R398, R399); a sample of a subscription is taken (R409, R410); GOOSE publishes a
change with a new stNum, once for all that changes in a tick (R428), repeats the published values with a new sqNum, takes a frame it subscribes to, and marks it stale (R414 to R416). Which of two
frames of a tick leaves, and what a frame without an HSR tag is held to be, is the model's choice (log entries 145 and 168). -/
def Obligations.Network : Prop :=
  (∀ (p : Fin 4) (f : EthFrame) (s : State),
    (ethBad f = true → s.io (Reg.ETH_RX_ERR_CNT_COUNT p) < counterMax → Completes (.ethFrameReceive p f false) s (fun t =>
      t.io (Reg.ETH_RX_ERR_CNT_COUNT p) = s.io (Reg.ETH_RX_ERR_CNT_COUNT p) + 1 ∧
      RegsKept [(.d0, Reg.ETH_RX_ERR_CNT_COUNT p)] s t ∧ Frame [.regs] s t)) ∧
    (ethBad f = false → f.vids = [] → f.etherType ∈ [0x88B5#16, 0x88B8#16, 0x88BA#16, 0x88F7#16, 0x88FB#16] →
      s.pairMode (p / 2) = 0 → s.macAccepts p f.dst.toNat = true → Completes (.ethFrameReceive p f false) s (fun t =>
        t.out = .ethDeliver p f.etherType.toNat :: s.out ∧ Frame [.out] s t))) ∧
  (∀ (p : Fin 4) (f : EthFrame) (s : State), s.lost .d0 = false → Completes (.ethFrameReceive p f true) s (fun t =>
    Output.event .d0 255 ∈ t.out ∧ Frame mPost s t)) ∧
  (∀ q : List (Nat × Output), q ≠ [] → ∃ a e b, q = a ++ e :: b ∧ nextFrame q = some e ∧ (∀ f ∈ a, e.1 < f.1) ∧
    (∀ f ∈ b, e.1 ≤ f.1)) ∧
  (∀ (p r : Nat) (o : Output) (s : State), SendsOn s (s.ethSend r o p) p r o ∧ (s.ethSend r o p).handed p r o ∧
    (∀ q, q ≠ p → (s.ethSend r o p).ethOf q = s.ethOf q) ∧ Frame mEth s (s.ethSend r o p)) ∧
  (∀ (p : Fin 4) (f : EthFrame) (s : State), ethBad f = false → s.pairMode (p / 2) = 2 → f.etherType ≠ 0x8808 →
    (f.src.toNat = s.portMac p → exec (.ethFrameReceive p f false) s = .next s) ∧
    (f.src.toNat ≠ s.portMac p → f.dst.toNat ≠ s.portMac p →
      (∀ q, f.hsr = some q → (f.src.toNat, q.toNat) ∉ (s.pair (p / 2)).dup) → Completes (.ethFrameReceive p f false) s (fun t =>
        let o := 2 * (p.val / 2) + (1 - p.val % 2)
        t.handed o rankForward (.hsrForward o (s.hsrRelay p o f)) ∧
        (∀ q, f.hsr = some q → (f.src.toNat, q.toNat) ∈ (t.pair (p / 2)).dup) ∧
        Frame ([.regs, .netPair] ++ mPost ++ mEth) s t))) ∧
  (∀ (x : Fin 2) (s : State), s.pairMode x = 1 → Completes (.prpSupervisionSend x false) s (fun t =>
    t.handed (2 * x.val) rankMaint (.prpSupervision x) ∧ t.handed (2 * x.val + 1) rankMaint (.prpSupervision x) ∧
    (t.pair x).seq = ((s.pair x).seq + 1) % 65536 ∧ Frame (.netPair :: mEth) s t) ∧
    Completes (.prpSupervisionSend x true) s (fun t => (t.pair x).seq = ((s.pair x).seq + 1) % 65536 ∧
      (∀ d, s.lost d = false → Output.event d 255 ∈ t.out) ∧ Frame (.netPair :: mPost) s t)) ∧
  (∀ (p : Fin 4) (s : State), (s.pairMode (p / 2) = 1 → Completes (.prpSupervisionFrame p) s (fun t =>
    t.pair (p / 2) = (if (s.pair (p / 2)).superv < 0xFFFFFFFF
      then { s.pair (p / 2) with superv := (s.pair (p / 2)).superv + 1 } else { s.pair (p / 2) with supervSat := true }) ∧
    (∀ d, s.lost d = false → Output.event d (228 + p.val / 2) ∈ t.out) ∧ Frame (.netPair :: mPost) s t)) ∧
    (s.pairMode (p / 2) ≠ 1 → exec (.prpSupervisionFrame p) s = .next s)) ∧
  (∀ (x : Fin 2) (s : State), Completes (.duplicateEntryExpiry x) s (fun t => (t.pair x).dup = (s.pair x).dup.dropLast ∧
    Frame [.netPair] s t)) ∧
  (∀ (f : SvFrame) (a : SvAsdu) (i : Fin 32) (s : State), f.asdus = [a] → s.svMatches i f = true →
    a.confRev.toNat = s.io (Reg.SV_CONFREV_CONFREV i) → a.simulation = false → a.smpCnt.toNat < s.svRate i →
    (∀ q, q < s.io (Reg.SV_CFG_NQ i) + 1 → s.io (Reg.SV_QTY0_POS i q) < a.seqData.length) → (s.svOf i).cur = none →
    Completes (.svFrame f) s (fun t => (∃ o, (t.svOf i).cur = some o ∧ o.cnt = a.smpCnt.toNat ∧
      o.t = svTime (s.svRate i) a.smpCnt.toNat a.smpSynch.toNat f.arrival) ∧ Frame [.regs, .svSub] s t)) ∧
  (∀ (d : Die) (b : Fin 8) (s : State), s.mayWrite d = true → s.goosePublishes b = true → s.gooseDiffers b = true →
    s.io (Reg.GOOSE_PUB_ST_STNUM b) < 0xFFFFFFFF →
    ((s.gooseOf b).at_ ≠ some s.tb.ticks → Completes (.gooseSend d b false) s (fun t =>
      let n := s.io (Reg.GOOSE_PUB_ST_STNUM b) + 1
      t.io (Reg.GOOSE_PUB_ST_STNUM b) = n ∧ t.io (Reg.GOOSE_PUB_SQ_SQNUM b) = 0 ∧
      (t.gooseOf b).at_ = some s.tb.ticks ∧ (t.gooseOf b).iv = s.io (Reg.GOOSE_PUB_T_T1 b) ∧
      (∀ p ∈ s.portsUp, t.handed p rankGoose
        (.goose b { (s.gooseNote b).goosePdu b (s.io (Reg.GOOSE_PUB_T_T1 b)) with stNum := n, sqNum := 0 })) ∧ Frame mGoose s t)) ∧
    ((s.gooseOf b).at_ = some s.tb.ticks → Completes (.gooseSend d b false) s (fun t => t.regs = s.regs ∧
      (∀ e, e < 32 → tabGet 0 t.goosePub (32 * b.val + e) = s.gooseVal b e) ∧ t.out.length = s.out.length ∧
      (∀ q lan tci p m, Output.eth p tci q lan (.goose b m) ∈ t.out → m.stNum = s.io (Reg.GOOSE_PUB_ST_STNUM b) → m.sqNum = 0 →
        m.allData = ((s.gooseNote b).goosePdu b 0).allData) ∧ Frame [.gooseSt, .goosePub, .eth, .out] s t))) ∧
  (∀ (b : Fin 8) (s : State), s.goosePublishes b = true → (s.gooseOf b).iv ≠ 0 →
    s.io (Reg.GOOSE_PUB_SQ_SQNUM b) ≤ 0xFFFFFFFF → Completes (.gooseRepeat b false) s (fun t =>
      t.io (Reg.GOOSE_PUB_SQ_SQNUM b) = (if s.io (Reg.GOOSE_PUB_SQ_SQNUM b) = 0xFFFFFFFF then 1
        else s.io (Reg.GOOSE_PUB_SQ_SQNUM b) + 1) ∧
      (t.gooseOf b).iv = min (2 * (s.gooseOf b).iv) (s.io (Reg.GOOSE_PUB_T_T0 b)) ∧
      (∀ p ∈ s.portsUp, ∃ m, t.handed p rankGoose (.goose b m) ∧ m.allData = (s.goosePdu b 0).allData) ∧ Frame mGoose s t)) ∧
  (∀ (f : GooseFrame) (i : Fin 32) (s : State), s.gooseMatches i f = true →
    f.confRev.toNat = s.io (Reg.GOOSE_SUB_CONFREV_CONFREV i) → f.simulation = false → f.ndsCom = false →
    (∀ e, e < s.io (Reg.GOOSE_SUB_CFG_N i) + 1 → ((f.allData[s.gooseIdx i e]?).bind gooseWord).isSome = true) →
    (s.gooseSubOf i).seen = false → Completes (.gooseFrame f) s (fun t => t.ioBit (Reg.GOOSE_SUB_STAT_VALID i) = true ∧
      t.io (Reg.GOOSE_SUB_ST_STNUM i) = f.stNum.toNat ∧ (t.gooseSubOf i).seen = true ∧
      Frame ([.regs, .gooseSub] ++ mPost) s t)) ∧
  ∀ (i : Fin 32) (s : State), s.ioBit (Reg.GOOSE_SUB_STAT_VALID i) = true → Completes (.gooseStale i) s (fun t =>
    t.io (Reg.GOOSE_SUB_STAT_VALID i) = 0 ∧ t.io (Reg.GOOSE_SUB_STAT_STALE i) = 1 ∧
    Frame ([.regs, .gooseSub] ++ mPost) s t)

/-- PTP ports: a Sync, or its Follow_Up, gives the servo its offset; Pdelay messages are answered and give the link delay; an Announce
is heard; management messages are discarded and counted; Sync, Announce and Pdelay_Req are sent, with a sequenceId that
counts from 0 (log entry 102); a lost master is forgotten
and with no port that follows one the servo holds over (R417 to R420, R423). The addend of the holdover
is in force from the next tick (R422). Timestamps take ETH_TS_ADJ with the sign of log entry 147, and the foreign masters are IEEE
1588's as log entry 30 reads it: the model's choices. -/
def Obligations.PtpPorts : Prop :=
  (∀ (p : Fin 4) (g : Byte) (q : BitVec 16) (t1 t2 c dl : Int) (s : State), s.ptpTakes p g = true →
    (s.follows p = true → Completes (.ptpSync p g q true t1 t2 c) s (fun t =>
      (t.ptpOf p).sync = some (q.toNat, s.tsIn p t2, c) ∧ Frame [.ptp] s t)) ∧
    (s.ptpState p = ptpSlave → s.servoSource = 0 → (s.ptpOf p).delay = some dl →
      Completes (.ptpSync p g q false t1 t2 c) s (fun t => t.rdInt .d0 Reg.SERVO_OFS_THETA =
        clamp (-(2 ^ 31)) (2 ^ 31 - 1) ((s.tsIn p t2 - t1 - c - dl) / 2 ^ 8) ∧
        Frame ([.ptp, .regs, .servo, .tb, .picot] ++ mPost) s t))) ∧
  (∀ (p : Fin 4) (g : Byte) (q : BitVec 16) (t1 t2 c c' dl : Int) (s : State), s.ptpTakes p g = true →
    s.ptpState p = ptpSlave → s.servoSource = 0 → (s.ptpOf p).sync = some (q.toNat, t2, c) → (s.ptpOf p).delay = some dl →
    Completes (.ptpFollowUp p g q t1 c') s (fun t => t.rdInt .d0 Reg.SERVO_OFS_THETA =
      clamp (-(2 ^ 31)) (2 ^ 31 - 1) ((t2 - t1 - (c + c') - dl) / 2 ^ 8) ∧ (t.ptpOf p).sync = none ∧
      Frame ([.ptp, .regs, .servo, .tb, .picot] ++ mPost) s t)) ∧
  (∀ (p : Fin 4) (g : Byte) (q : BitVec 16) (c t2 t3 : Int) (s : State), s.ptpTakes p g = true →
    Completes (.ptpPdelayReq p g q c t2 t3 false) s (fun t =>
      let m : PtpOut := { type := msgPdelayResp, domain := g.toNat, seq := q.toNat, dst := macPdelay
                          corr := c + (s.tsOut p t3 - s.tsIn p t2) }
      (s.pairMode (p / 2) ≠ 2 → SendsOn s t p rankPtpEvent (.ptp p m)) ∧ t.handed p rankPtpEvent (.ptp p m) ∧
      Frame (.netPair :: mEth) s t)) ∧
  (∀ (p : Fin 4) (g : Byte) (q : BitVec 16) (t1 t2 t4 c : Int) (s : State), s.ptpTakes p g = true →
    (s.ptpOf p).req = some (q.toNat, t1) →
    Completes (.ptpPdelayResp p g q false t2 t4 c) s (fun t => (t.ptpOf p).delay = some ((s.tsIn p t4 - t1 - c) / 2) ∧
      RegsKept [(.d0, Reg.PTP_PORT_STAT_DLY p)] s t ∧ Frame [.ptp, .regs] s t) ∧
    Completes (.ptpPdelayResp p g q true t2 t4 c) s (fun t => (t.ptpOf p).resp = some (q.toNat, t2, s.tsIn p t4, c) ∧
      Frame [.ptp] s t)) ∧
  (∀ (p : Fin 4) (g : Byte) (q : BitVec 16) (n : Nat) (t1 t2 t3 t4 c c' : Int) (s : State), s.ptpTakes p g = true →
    (s.ptpOf p).req = some (n, t1) → (s.ptpOf p).resp = some (q.toNat, t2, t4, c) →
    Completes (.ptpPdelayRespFollowUp p g q t3 c') s (fun t =>
      (t.ptpOf p).delay = some ((t4 - t1 - (t3 - t2) - c - c') / 2) ∧
      RegsKept [(.d0, Reg.PTP_PORT_STAT_DLY p)] s t ∧ Frame [.ptp, .regs] s t)) ∧
  (∀ (p : Fin 4) (m : PtpAnnounceMsg) (s : State), s.ptpTakes p m.domain = true → s.ptpState p ≠ ptpInit →
    m.sender.toNat ≠ s.clockId → m.steps.toNat < 255 → Completes (.ptpAnnounce p m) s (fun t =>
      (t.ptpOf p).foreign = hearForeign s.tb.ticks m (s.ptpOf p).foreign ∧ Frame ([.ptp, .regs, .servo] ++ mPost) s t)) ∧
  (∀ (p : Fin 4) (s : State), s.ptpOn p = true →
    (s.io Reg.PTP_DISC_CNT_COUNT < counterMax → Completes (.ptpManagement p) s (fun t =>
      t.io Reg.PTP_DISC_CNT_COUNT = s.io Reg.PTP_DISC_CNT_COUNT + 1 ∧ Frame [.regs] s t)) ∧
    (s.ptpState p = ptpMaster → ∀ n : Nat, Completes (.ptpSyncSend p n false) s (fun t =>
      (s.syncMsg p n).time * 2 ^ 16 + (s.syncMsg p n).corr = s.tsOut p n ∧
      (s.pairMode (p / 2) ≠ 2 → SendsOn s t p rankPtpEvent (.ptp p (s.syncMsg p n))) ∧
      t.handed p rankPtpEvent (.ptp p (s.syncMsg p n)) ∧ Frame ([.ptp, .netPair] ++ mEth) s t)) ∧
    ((s.ptpState p = ptpMaster ∨ s.ptpState p = ptpPreMaster) → Completes (.ptpAnnounceSend p false) s (fun t =>
      t.ptpState p = ptpMaster ∧ t.handed p rankPtp (.ptp p (s.announceMsg p)) ∧
      Frame ([.regs, .servo, .ptp, .netPair] ++ mPost ++ mEth) s t)) ∧
    (∀ t1, Completes (.ptpPdelayReqSend p t1 false) s (fun t => (t.ptpOf p).req = some ((s.ptpOf p).reqSeq, s.tsOut p t1) ∧
      (t.ptpOf p).reqSeq = ((s.ptpOf p).reqSeq + 1) % 2 ^ 16 ∧
      (s.pairMode (p / 2) ≠ 2 → SendsOn s t p rankPtpEvent
        (.ptp p { type := msgPdelayReq, domain := s.io Reg.PTP_CFG_DOMAIN, seq := (s.ptpOf p).reqSeq, dst := macPdelay })) ∧
      Frame ([.ptp, .netPair] ++ mEth) s t)) ∧
    (s.ptpState p ≠ ptpInit → Completes (.ptpAnnounceTimeout p) s (fun t => (t.ptpOf p).foreign = [] ∧
      (t.ptpOf p).sync = none ∧ Frame ([.ptp, .regs, .servo, .tb] ++ mPost) s t)) ∧
    (s.servoSource = 0 →
      ((∀ q, q < 4 → q ≠ p.val → s.follows q = false) → s.io Reg.SERVO_STAT_STATE = servoLocked →
        Completes (.ptpSyncTimeout p) s (fun t => t.io Reg.SERVO_STAT_STATE = servoHoldover ∧
          t.newAddend = addendClamp (2 ^ 33 + s.drift) ∧ t.addend = s.addend ∧ Frame ([.regs, .servo, .tb] ++ mPost) s t)) ∧
      ((∃ q, q < 4 ∧ q ≠ p.val ∧ s.follows q = true) → exec (.ptpSyncTimeout p) s = .next s)))

/-- The servo: without its Nolri source it holds over with its drift from the next tick, and with the holdover over it runs free and the time is no
longer valid (R423). Picot outputs: a pulse starts at its time and ends WIDTH ticks later, its pin following POL from gate release on;
one due in the tick of a commit starts under the old values (R428); with NEED_VALID none starts while the time is not valid (R32, R426, R427). -/
def Obligations.ServoAndPicot : Prop :=
  (∀ s : State, s.servoSource = 1 → (s.io Reg.SERVO_STAT_STATE = servoAcquire ∨ s.io Reg.SERVO_STAT_STATE = servoLocked) →
    Completes .nolriSourceLoss s (fun t => t.io Reg.SERVO_STAT_STATE = servoHoldover ∧
      t.newAddend = addendClamp (2 ^ 33 + s.drift) ∧ t.addend = s.addend ∧ Frame ([.regs, .servo, .tb] ++ mPost) s t)) ∧
  (∀ s : State, exec (.servoHoldoverExpiry true) s = .next s ∧ (s.io Reg.SERVO_STAT_STATE = servoHoldover →
    Completes (.servoHoldoverExpiry false) s (fun t =>
    t.io Reg.SERVO_STAT_STATE = servoFree ∧ t.ioBit Reg.TB_STAT_TIME_VALID = false ∧
    RegsKept [(.d0, Reg.SERVO_STAT_STATE), (.d0, Reg.TB_STAT_TIME_VALID)] s t ∧ Frame (.regs :: mPost) s t))) ∧
  (∀ (p : Fin 8) (w : Nat) (s : State), (s.picotOf p).due = some (s.tb.ticks, w) →
    s.ioBit (Reg.PICOT_CFG_NEED_VALID p) = false → Completes (.picotPulseStart p) s (fun t =>
      t.ioBit (Reg.PICOT_STAT_ACTIVE p) = true ∧ (t.picotOf p).ends = some (s.tb.ticks + w) ∧
      (t.picotOf p).next = (s.picotOf p).next ∧ Frame ([.picot, .regs, .pins, .inj] ++ mPost) s t)) ∧
  (∀ (p : Fin 8) (u : Nat) (s : State), (s.picotOf p).next = some u → s.testState = false →
    (∀ e, (s.picotOf p).due = some e → e.1 ≠ s.tb.ticks) →
    (s.ioBit (Reg.PICOT_CFG_NEED_VALID p) = false → Completes (.picotPulseStart p) s (fun t =>
      t.ioBit (Reg.PICOT_STAT_ACTIVE p) = true ∧
      (t.picotOf p).ends = some (t.tb.ticks + s.io (Reg.PICOT_WIDTH_WIDTH p)) ∧
      t.pins.picot.getLsbD p = (!s.ioBit (Reg.PICOT_CFG_POL p) && s.pins.live && !s.power.shutdown) ∧
      Frame ([.tb, .picot, .regs, .pins, .inj] ++ mPost) s t)) ∧
    (s.ioBit (Reg.PICOT_CFG_NEED_VALID p) = true → s.ioBit Reg.TB_STAT_TIME_VALID = false →
      Completes (.picotPulseStart p) s (fun t => Frame [.tb, .picot] s t))) ∧
  ∀ (p : Fin 8) (u : Nat) (s : State), (s.picotOf p).ends = some u → s.testState = false → Completes (.picotPulseEnd p) s (fun t =>
    t.io (Reg.PICOT_STAT_ACTIVE p) = 0 ∧ (t.picotOf p).ends = none ∧
    t.pins.picot.getLsbD p = (s.ioBit (Reg.PICOT_CFG_POL p) && s.pins.live && !s.power.shutdown) ∧
    RegsKept [(.d0, Reg.PICOT_STAT_ACTIVE p)] s t ∧ Frame [.tb, .picot, .regs, .pins] s t)

/-! ### Adaptive supply, placement, redundancy (R435 to R480) -/

/-- Adaptive supply, temperature and placement: an emergency raises the request by 20 mV at most to 0.880 V (R436); an update shows its
slack and raises an acknowledged request of too little slack by 5 mV (R437); a step that ends is the new code (R439); a
conversion is the sensor's reading and a hot region runs at code 0 (R442, R443); a cap lifts (R443); the one movable entry of the
hottest cluster moves to the coolest, where it fits (R446, R447). -/
def Obligations.Adaptation : Prop :=
  (∀ (d : Die) (r : Region) (p : CpmPath) (s : State), (s.region d r.toNat).emerged = false →
    Completes (.cpmEmergency d r p) s (fun t => (t.region d r.toNat).emerged = true ∧
      t.bit d (Reg.AVS_STAT_EMERG r.toNat) = true ∧
      (s.avsLost d r.toNat = false → t.rd d (Reg.AVS_STAT_VREQ r.toNat) = min 52 (s.rd d (Reg.AVS_STAT_VREQ r.toNat) + 4)) ∧
      Frame ([.regs, .regions] ++ mPost) s t)) ∧
  (∀ (d : Die) (r : Region) (a b : BitVec 7) (s : State), s.avsLost d r.toNat = false →
    s.rd d (Reg.AVS_STAT_VACK r.toNat) = s.rd d (Reg.AVS_STAT_VREQ r.toNat) → s.rd d (Reg.AVS_STAT_VREQ r.toNat) < 52 →
    min a.toNat b.toNat < s.rd d (Reg.AVS_CFG_S_LO r.toNat) → Completes (.avsUpdate d r a b) s (fun t =>
      t.rd d (Reg.AVS_STAT_S_MIN r.toNat) = min a.toNat b.toNat ∧
      t.rd d (Reg.AVS_STAT_VREQ r.toNat) = s.rd d (Reg.AVS_STAT_VREQ r.toNat) + 1 ∧
      (t.region d r.toNat).emerged = false ∧ Frame [.regs, .regions] s t)) ∧
  (∀ (d : Die) (r : Region) (c : Nat) (s : State), (s.region d r.toNat).stepTo = some c →
    Completes (.freqStepDone d r) s (fun t => t.rd d (Reg.AVS_FREQ_CUR r.toNat) = c % 2 ^ (Reg.AVS_FREQ_CUR r.toNat).width ∧
      (t.region d r.toNat).stepTo = none ∧ RegsKept [(d, Reg.AVS_FREQ_CUR r.toNat)] s t ∧ Frame [.regs, .regions] s t)) ∧
  (∀ (d : Die) (i : Fin 4) (v : BitVec 16) (s : State), Completes (.sensorConversion (.die d i) v) s (fun t =>
    t.rd d (Reg.THM_TEMP_T i) = v.toNat ∧
    ((256 * s.rd d Reg.THM_CFG_T_HOT : Nat) ≤ v.toInt → t.rd d (Reg.AVS_FREQ_TCAP (i / 2)) = 0) ∧
    Frame ([.regs, .regions] ++ mPost) s t)) ∧
  (∀ (d : Die) (r : Region) (u : Nat) (s : State), (s.region d r.toNat).coolSince = some u →
    Completes (.thermalCapLift d r) s (fun t => t.rd d (Reg.AVS_FREQ_TCAP r.toNat) = 8 ∧
      (t.region d r.toNat).coolSince = none ∧ RegsKept [(d, Reg.AVS_FREQ_TCAP r.toNat)] s t ∧
      Frame ([.regs, .regions] ++ mPost) s t)) ∧
  ∀ (d : Die) (h c i : Nat) (s : State), s.bit d Reg.PL_CFG_EN = true → (s.adaptOf d).subst = none →
    h ∈ s.loadClusters d → c ∈ s.loadClusters d →
    (∀ x ∈ s.loadClusters d, x ≠ h → s.clusterTemp d x < s.clusterTemp d h) →
    (∀ x ∈ s.loadClusters d, x ≠ c → s.clusterTemp d c < s.clusterTemp d x) →
    (256 * s.rd d Reg.PL_CFG_DT : Nat) < s.clusterTemp d h - s.clusterTemp d c → s.entriesOn d h = [i] →
    (s.place d i).movable = true → (s.place d i).desc.getD c 0xFF ≠ 0xFF →
    s.costFits d c (s.costOn d c + (s.place d i).cost) = true → tabGet 0 s.movedAt (128 * d.toNat + i) = 0 →
    Completes (.placementEval d) s (fun t => t.placedOn d i = some c ∧ Frame [.regs, .placed, .movedAt] s t)

/-- Clusters and their spare: a spare that fails its test is consumed, with event 252, and one that passes or is in use already is left
as it is (R448); the records of a substituted cluster are applied again to that cluster of its die, whose loops then show their MODE, and to nothing else: no
other memory, no other register or shadow of either die; a read-back
that fails with the spare in use takes a passive die out of service with cause CLUSTER, and with its state copied from the other die
the cluster is ready to restart (R449, R469); a lost cluster's program moves to the idle engine with its state memory as the records
give it, and with no place for it the package stops (R475). -/
def Obligations.Substitution : Prop :=
  (∀ (d : Die) (b : Bool) (s : State),
    (b = false → s.bit d Reg.PL_MAP_SPARE_USED = false → s.lost d = false → Completes (.spareSelfTest d b) s (fun t =>
      t.bit d Reg.PL_MAP_SPARE_USED = true ∧ Output.event d 252 ∈ t.out ∧ RegsKept [(d, Reg.PL_MAP_SPARE_USED)] s t ∧
      Frame (.regs :: mPost) s t)) ∧
    (b = true ∨ s.bit d Reg.PL_MAP_SPARE_USED = true → exec (.spareSelfTest d b) s = .next s)) ∧
  (∀ (d : Die) (c : Nat) (s : State), (s.adaptOf d).subst = some c → c < 4 → Completes (.substReapplyDone d true) s (fun t =>
    (∀ r ∈ clusterMem c, ∀ a, r.1 ≤ a → a < r.1 + r.2 →
      t.ram8 d.toNat a = (s.appliedRecs.foldl State.putRecord s).ram8 d.toNat a) ∧
    (∀ r ∈ clusterWords c, ∀ f : Field, f.lo < 32 → r.1 ≤ f.addr → f.addr < r.1 + r.2 →
      t.rd d f = ((s.appliedRecs.foldl State.putRecord s).showModes d c).rd d f) ∧
    (∀ f : Field, f.lo < 32 → (∀ r ∈ clusterWords c, f.addr < r.1 ∨ r.1 + r.2 ≤ f.addr) →
      t.rd d f = s.rd d f ∧ t.rdSh d f = s.rdSh d f) ∧
    (∀ a, (∀ r ∈ clusterMem c, a < r.1 ∨ r.1 + r.2 ≤ a) → t.ram8 d.toNat a = s.ram8 d.toNat a) ∧
    (∀ f : Field, f.lo < 32 → 0x50000000 ≤ f.addr → f.addr < 0x70000000 →
      t.rd d.other f = s.rd d.other f ∧ t.rdSh d.other f = s.rdSh d.other f) ∧
    (∀ a, a < 2 ^ 32 → t.ram8 d.other.toNat a = s.ram8 d.other.toNat a) ∧
    Frame [.regs, .shadow, .ram] s t)) ∧
  (∀ (d : Die) (c : Nat) (s : State), (s.adaptOf d).subst = some c → c < 4 → c ≠ s.spare d →
    (s.adaptOf d).lostClusters.getLsbD c = false → s.isWorker d = false → s.lost d = false → s.dieState d ≠ 5 →
    s.bit d Reg.PL_MAP_SPARE_USED = true → Completes (.substReapplyDone d false) s (fun t =>
      (t.adaptOf d).subst = none ∧ t.rd d Reg.PL_MAP_SUBST = 0 ∧ t.dieState d = 6 ∧
      t.io (Reg.RED_DIE_CAUSE d.toNat) = causeCluster)) ∧
  (∀ (d : Die) (c c' : Nat) (s : State), (s.adaptOf d).subst = none → (s.adaptOf d).moveCle = some (c, c') → c < 4 → c' < 4 →
    Completes (.substReapplyDone d true) s (fun t => (t.adaptOf d).moveCle = none ∧
      (t.cle d c').firstNext = BitVec.allOnes 32 ∧
      ∀ a, a < 0x10000 → t.ram8 d.toNat (0x30000000 + 0x10000 * c' + a) =
        (s.appliedRecs.foldl State.putRecord State.reset).ram8 d.toNat (0x30000000 + 0x10000 * c + a)) ∧
    (s.io Reg.RED_GRADE_GRADE < 4 → s.red.gradeAt ≠ some s.tb.ticks → Completes (.substReapplyDone d false) s (fun t => (t.adaptOf d).moveCle = none ∧
      t.io Reg.RED_GRADE_GRADE = 4 ∧ t.io Reg.RED_GRADE_CAUSE = causeFit))) ∧
  ∀ (d : Die) (c : Nat) (s : State), (s.adaptOf d).subst = some c → c < 4 → Completes (.substStateCopyDone d) s (fun t =>
    (t.adaptOf d).substReady = true ∧
    (s.inService d.other = true → ∀ w, w < 8192 → t.ram32 d.toNat (0x30008000 + 0x10000 * c + 4 * w) =
      s.ram32 d.other.toNat (0x30008000 + 0x10000 * c + 4 * w)) ∧
    (s.inService d.other = false → t.ram = s.ram) ∧
    (∀ a, a < 2 ^ 32 → t.ram8 d.other.toNat a = s.ram8 d.other.toNat a) ∧ Frame [.adapt, .ram, .red] s t)

/-- Couching and rejoining: couching snapshots both dies' couched words and images at T_START, unless the period ends before it (R66);
at its end each word, and each item of the ladder image, that differs and that the other die has not written since takes the worker's value, and
the worker's memory stays (R461), where no CLE has written the word in that tick (R222); a full pass copies
every used entry of the couching table and the image, and is noted; one that fails or is late puts the SYNCING die out (R462); an OUT die with attempts left is reset and
rejoins as SYNCING, or goes out again (R470), but leaves no boot ROM in the test state (R52) and is
not reset in maintenance-only mode (R97). -/
def Obligations.Couching : Prop :=
  (∀ s : State, s.inPeriod (s.io Reg.RED_COUCH_T_START) = false → exec .couchStart s = .next s) ∧
  (∀ (d p : Die) (s : State), s.couchPair = some (d, p) → s.inPeriod (s.io Reg.RED_COUCH_T_START) = true →
    Completes .couchStart s (fun t => t.red.couching = true ∧ t.red.snapI = s.snapImage d p ∧
    t.red.snapW = s.snapWords d (s.couchWords d) ∧ t.red.snapP = s.snapWords p (s.couchWords d) ∧ t.red.dirty = [] ∧
    Frame [.red, .tb] s t)) ∧
  (∀ (d p : Die) (s : State), s.red.couching = true → s.couchPair = some (d, p) → s.asideOverflow = none →
    (∀ w ∈ s.red.snapW, w.1 + 4 ≤ 2 ^ 32) → Completes (.couchStreamDone [] []) s (fun t => t.red.couching = false ∧
      t.red.couched = true ∧ t.red.dirty = [] ∧ (∀ a, a < 2 ^ 32 → t.ram8 d.toNat a = s.ram8 d.toNat a) ∧
      (s.red.snapW.Pairwise (fun v w => v.1 + 4 ≤ w.1 ∨ w.1 + 4 ≤ v.1) →
        (∀ w ∈ s.red.snapW, w.1 + 4 ≤ healthAddr 0 ∨ healthAddr 0 + 0x800 ≤ w.1) → (s.red.snapI.map (·.1)).Nodup →
        (∀ e ∈ s.red.snapW.zip s.red.snapP, e.1.2 < 2 ^ 32 → t.ram32 p.toNat e.1.1 =
          (if e.1.2 = e.2.2 ∨ s.red.dirty.any (fun q => q.1 = ramKey p.toNat e.1.1) = true ∨ s.smTaken p e.1.1 = true
           then s.ram32 p.toNat e.1.1 else e.1.2)) ∧
        (∀ e ∈ s.red.snapI, e.1.fits e.2.1 = true → t.imageRead p e.1 =
          (if e.2.1 = e.2.2 ∨ s.imageWritten p e.1 e.2.2 = true then s.imageRead p e.1 else e.2.1))) ∧
      Frame [.red, .ram, .regs, .freeCtr, .hubArm, .hubMem] s t)) ∧
  (∀ (d p : Die) (s : State), s.couchPair = some (d, p) → s.dieState p = 2 →
    Completes (.fullPassDone true) s (fun t => t.red.passDone = true ∧ t.dieState p = 2 ∧
      ((∀ a ∈ entryAddrs (s.couchEntries d), a + 4 ≤ 2 ^ 32 ∧ s.smTaken p a = false) →
        ∀ a ∈ entryAddrs (s.couchEntries d), t.ram32 p.toNat a = s.ram32 d.toNat a) ∧
      (s.bit d Reg.BAL_CFG_EN = true → ∀ it ∈ s.imageItems, s.imageRead d it ≠ [] → t.imageRead p it = s.imageRead d it) ∧
      Frame [.red, .ram, .regs, .hubArm, .hubMem] s t) ∧
    Completes (.fullPassDone false) s (fun t => (t.dieState p = 4 ∨ t.dieState p = 6) ∧
      t.io (Reg.RED_DIE_CAUSE p.toNat) = causeCouch) ∧
    (s.red.passDone = false → Completes .fullPassTimeout s (fun t => (t.dieState p = 4 ∨ t.dieState p = 6) ∧
      t.io (Reg.RED_DIE_CAUSE p.toNat) = causeCouch))) ∧
  (∀ (d : Die) (s : State), s.phase = phaseMaint → exec (.dieRejoinReset d) s = .next s) ∧
  (∀ (d : Die) (s : State), s.dieState d = 4 → s.phase ≠ phaseMaint → s.io (Reg.RED_DIE_REJOINS d.toNat) < s.io Reg.RED_CFG_REJOIN_MAX →
    Completes (.dieRejoinReset d) s (fun t => t.dieState d = 5 ∧
      t.io (Reg.RED_DIE_REJOINS d.toNat) = (s.io (Reg.RED_DIE_REJOINS d.toNat) + 1) % 2 ^ (Reg.RED_DIE_REJOINS d.toNat).width ∧
      t.pins = s.pins ∧ t.flash = s.flash)) ∧
  (∀ (d : Die) (a : Bool) (s : State), s.testState = true → exec (.dieRejoinReady d a) s = .next s) ∧
  ∀ (d : Die) (s : State), s.dieState d = 5 → s.testState = false → s.phase ≠ phaseMaint →
    Completes (.dieRejoinReady d true) s (fun t => t.dieState d = 2 ∧ t.red.passDone = false ∧ t.flash = s.flash) ∧
    Completes (.dieRejoinReady d false) s (fun t => (t.dieState d = 4 ∨ t.dieState d = 6) ∧
      t.io (Reg.RED_DIE_CAUSE d.toNat) = causeBoot) ∧
    Completes (.rejoinTimeout d) s (fun t => (t.dieState d = 4 ∨ t.dieState d = 6) ∧
      t.io (Reg.RED_DIE_CAUSE d.toNat) = causeBoot)

/-- Verdicts and roles: both dies that pass keep the worker and put the other to SYNCING; a failed worker is taken over, a failed
passive leaves; two failures stop the package (R466, R481). The role change makes the other die the worker (R467). A spare bank
takes its place (R472), an ended window zeroes the bank counts (R471); the controlled stop, which waits for a Cell's LEAVE to depart,
halts the cores and shows STOPPED (R385, R478); a record waiting, and behind them a trip record, is written to flash (R479, R480), or lost in a
full FIFO (R60); between t_v and the role change it waits (R467). -/
def Obligations.VerdictsAndRoles : Prop :=
  (∀ (d : Die) (s : State), s.red.checking = true → s.worker = some d → s.dieState d.other = 3 → s.red.workerFault = none →
    Completes (.dieSelfCheckVerdict true true) s (fun t => t.red.checking = false ∧ t.dieState d = 0 ∧
      t.dieState d.other = 2) ∧
    (s.red.takeover = none → Completes (.dieSelfCheckVerdict false true) s (fun t =>
      t.red.takeover = some ⟨d, t.tb.ticks⟩ ∧ t.dieState d.other = 1 ∧ t.io (Reg.RED_DIE_CAUSE d.toNat) = causeSelfCheck)) ∧
    Completes (.dieSelfCheckVerdict true false) s (fun t => t.dieState d = 0 ∧
      (t.dieState d.other = 4 ∨ t.dieState d.other = 6)) ∧
    (s.io Reg.RED_GRADE_GRADE < 4 → s.red.gradeAt ≠ some s.tb.ticks → Completes (.dieSelfCheckVerdict false false) s (fun t =>
      t.io Reg.RED_GRADE_GRADE = 4 ∧ t.io Reg.RED_GRADE_CAUSE = causeBothCheck ∧ t.trip.package = true))) ∧
  (∀ (x : Takeover) (s : State), s.red.takeover = some x → s.red.takeoverSync = false → Completes .roleChange s (fun t =>
    t.worker = some x.from_.other ∧ t.dieState x.from_.other = 0 ∧ t.io (Reg.RED_DIE_WORKER x.from_.toNat) = 0 ∧
    t.red.takeover = none ∧ t.flash = s.flash)) ∧
  (∀ (d : Die) (r : Region) (s : State), s.bit d (Reg.MEM_SPARE_COPYING r.toNat) = true →
    Completes (.spareBankCopyDone d r) s (fun t => t.rd d (Reg.MEM_SPARE_COPYING r.toNat) = 0 ∧
      t.bit d (Reg.MEM_SPARE_USED r.toNat) = true ∧ Frame mGrade s t)) ∧
  (∀ (d : Die) (s : State), Completes (.ceWindowEnd d) s (fun t =>
    (∀ r b, r < 2 → b < 16 → t.rd d (Reg.MEM_BANK_CE_COUNT r b) = 0) ∧ Frame [.regs] s t)) ∧
  (∀ (u : Nat) (s : State), s.red.stopAt = some u → s.red.stopped = false → s.awaitsLeave = false → Completes .stopHalt s (fun t =>
    t.phase = phaseStopped ∧ t.red.stopped = true ∧ (∀ d c, c < 12 → (t.core d c).mode = .halted) ∧
    (∀ d c, c < 4 → t.rd d (Reg.CLE_STAT_STATE c) = cleStopped) ∧ Frame [.cores, .regs, .red, .trip] s t)) ∧
  (∀ s : State, s.awaitsLeave = true → exec .stopHalt s = .next s) ∧
  (∀ (f : Bool) (s : State), s.red.takeover.isSome = true → exec (.logRecordWrite f) s = .next s) ∧
  (∀ (r : LogRec) (rs : List LogRec) (s : State), s.red.takeover = none → s.red.logq = r :: rs →
    Completes (.logRecordWrite false) s (fun t => t.red.logq = rs ∧ Frame [.flash, .red] s t) ∧
    (s.boot.flashOk = true → (r.type = recStop ∨ ∃ d, s.worker = some d ∧ s.inService d = true) →
      Completes (.logRecordWrite false) s (fun t => t.flash = (s.logWrite (logBytes r)).flash) ∧
      Completes (.logRecordWrite true) s (fun t => t.red.logq = rs ∧
        (∀ d, s.lost d = false → Output.event d 255 ∈ t.out) ∧ Frame (.red :: mPost) s t))) ∧
  ∀ (d : Die) (i : Nat) (s : State), s.red.takeover = none → s.red.logq = [] → s.worker = some d → s.tripToCopy = some i →
    Completes (.logRecordWrite false) s (fun t => t.red.tripCopied = i + 1 ∧ Frame [.flash, .red] s t ∧
      (s.boot.flashOk = true → t.flash = (s.logWrite (s.ramBytes d.toNat (tripRing + 32 * (i % 512)) 32)).flash))
end

