-- ==== Sys2Proof/Laws/State.lean ====
section
/-! SUPPORT. Laws of the named updates of the state: each leaves every field but its own as it was. The update of a
register is State.wr; the tables of the state have their own laws in Laws/Tab.lean. -/

namespace Sys2Proof.Laws
open Sys2Proof.Machine

variable (s : State)

/-! ### State.wr -/

@[simp] theorem wr_shadow (d : Die) (f : Field) (v : Nat) : (s.wr d f v).shadow = s.shadow := rfl
@[simp] theorem wr_shadowP (d : Die) (f : Field) (v : Nat) : (s.wr d f v).shadowP = s.shadowP := rfl
@[simp] theorem wr_stagedW (d : Die) (f : Field) (v : Nat) : (s.wr d f v).stagedW = s.stagedW := rfl
@[simp] theorem wr_stagedP (d : Die) (f : Field) (v : Nat) : (s.wr d f v).stagedP = s.stagedP := rfl
@[simp] theorem wr_sets (d : Die) (f : Field) (v : Nat) : (s.wr d f v).sets = s.sets := rfl
@[simp] theorem wr_ram (d : Die) (f : Field) (v : Nat) : (s.wr d f v).ram = s.ram := rfl
@[simp] theorem wr_flash (d : Die) (f : Field) (v : Nat) : (s.wr d f v).flash = s.flash := rfl
@[simp] theorem wr_tb (d : Die) (f : Field) (v : Nat) : (s.wr d f v).tb = s.tb := rfl
@[simp] theorem wr_pins (d : Die) (f : Field) (v : Nat) : (s.wr d f v).pins = s.pins := rfl
@[simp] theorem wr_power (d : Die) (f : Field) (v : Nat) : (s.wr d f v).power = s.power := rfl
@[simp] theorem wr_jtag (d : Die) (f : Field) (v : Nat) : (s.wr d f v).jtag = s.jtag := rfl
@[simp] theorem wr_boot (d : Die) (f : Field) (v : Nat) : (s.wr d f v).boot = s.boot := rfl
@[simp] theorem wr_rewrite (d : Die) (f : Field) (v : Nat) : (s.wr d f v).rewrite = s.rewrite := rfl
@[simp] theorem wr_bobs (d : Die) (f : Field) (v : Nat) : (s.wr d f v).bobs = s.bobs := rfl
@[simp] theorem wr_cores (d : Die) (f : Field) (v : Nat) : (s.wr d f v).cores = s.cores := rfl
@[simp] theorem wr_locks (d : Die) (f : Field) (v : Nat) : (s.wr d f v).locks = s.locks := rfl
@[simp] theorem wr_lockLast (d : Die) (f : Field) (v : Nat) : (s.wr d f v).lockLast = s.lockLast := rfl
@[simp] theorem wr_latched (d : Die) (f : Field) (v : Nat) : (s.wr d f v).latched = s.latched := rfl
@[simp] theorem wr_faultTicks (d : Die) (f : Field) (v : Nat) : (s.wr d f v).faultTicks = s.faultTicks := rfl
@[simp] theorem wr_gnd (d : Die) (f : Field) (v : Nat) : (s.wr d f v).gnd = s.gnd := rfl
@[simp] theorem wr_lfsr (d : Die) (f : Field) (v : Nat) : (s.wr d f v).lfsr = s.lfsr := rfl
@[simp] theorem wr_gndClk (d : Die) (f : Field) (v : Nat) : (s.wr d f v).gndClk = s.gndClk := rfl
@[simp] theorem wr_gndEm (d : Die) (f : Field) (v : Nat) : (s.wr d f v).gndEm = s.gndEm := rfl
@[simp] theorem wr_gen (d : Die) (f : Field) (v : Nat) : (s.wr d f v).gen = s.gen := rfl
@[simp] theorem wr_sync (d : Die) (f : Field) (v : Nat) : (s.wr d f v).sync = s.sync := rfl
@[simp] theorem wr_trip (d : Die) (f : Field) (v : Nat) : (s.wr d f v).trip = s.trip := rfl
@[simp] theorem wr_red (d : Die) (f : Field) (v : Nat) : (s.wr d f v).red = s.red := rfl
@[simp] theorem wr_adapt (d : Die) (f : Field) (v : Nat) : (s.wr d f v).adapt = s.adapt := rfl
@[simp] theorem wr_gooseSt (d : Die) (f : Field) (v : Nat) : (s.wr d f v).gooseSt = s.gooseSt := rfl
@[simp] theorem wr_goosePub (d : Die) (f : Field) (v : Nat) : (s.wr d f v).goosePub = s.goosePub := rfl
@[simp] theorem wr_cleReq (d : Die) (f : Field) (v : Nat) : (s.wr d f v).cleReq = s.cleReq := rfl
@[simp] theorem wr_links (d : Die) (f : Field) (v : Nat) : (s.wr d f v).links = s.links := rfl
@[simp] theorem wr_nol (d : Die) (f : Field) (v : Nat) : (s.wr d f v).nol = s.nol := rfl
@[simp] theorem wr_regions (d : Die) (f : Field) (v : Nat) : (s.wr d f v).regions = s.regions := rfl
@[simp] theorem wr_placed (d : Die) (f : Field) (v : Nat) : (s.wr d f v).placed = s.placed := rfl
@[simp] theorem wr_movedAt (d : Die) (f : Field) (v : Nat) : (s.wr d f v).movedAt = s.movedAt := rfl
@[simp] theorem wr_cles (d : Die) (f : Field) (v : Nat) : (s.wr d f v).cles = s.cles := rfl
@[simp] theorem wr_meas (d : Die) (f : Field) (v : Nat) : (s.wr d f v).meas = s.meas := rfl
@[simp] theorem wr_inj (d : Die) (f : Field) (v : Nat) : (s.wr d f v).inj = s.inj := rfl
@[simp] theorem wr_balCh (d : Die) (f : Field) (v : Nat) : (s.wr d f v).balCh = s.balCh := rfl
@[simp] theorem wr_balCell (d : Die) (f : Field) (v : Nat) : (s.wr d f v).balCell = s.balCell := rfl
@[simp] theorem wr_hubMem (d : Die) (f : Field) (v : Nat) : (s.wr d f v).hubMem = s.hubMem := rfl
@[simp] theorem wr_hubArm (d : Die) (f : Field) (v : Nat) : (s.wr d f v).hubArm = s.hubArm := rfl
@[simp] theorem wr_lanes (d : Die) (f : Field) (v : Nat) : (s.wr d f v).lanes = s.lanes := rfl
@[simp] theorem wr_servo (d : Die) (f : Field) (v : Nat) : (s.wr d f v).servo = s.servo := rfl
@[simp] theorem wr_ptp (d : Die) (f : Field) (v : Nat) : (s.wr d f v).ptp = s.ptp := rfl
@[simp] theorem wr_picot (d : Die) (f : Field) (v : Nat) : (s.wr d f v).picot = s.picot := rfl
@[simp] theorem wr_netPair (d : Die) (f : Field) (v : Nat) : (s.wr d f v).netPair = s.netPair := rfl
@[simp] theorem wr_eth (d : Die) (f : Field) (v : Nat) : (s.wr d f v).eth = s.eth := rfl
@[simp] theorem wr_svSub (d : Die) (f : Field) (v : Nat) : (s.wr d f v).svSub = s.svSub := rfl
@[simp] theorem wr_gooseSub (d : Die) (f : Field) (v : Nat) : (s.wr d f v).gooseSub = s.gooseSub := rfl
@[simp] theorem wr_maint (d : Die) (f : Field) (v : Nat) : (s.wr d f v).maint = s.maint := rfl
@[simp] theorem wr_freeCtr (d : Die) (f : Field) (v : Nat) : (s.wr d f v).freeCtr = s.freeCtr := rfl
@[simp] theorem wr_out (d : Die) (f : Field) (v : Nat) : (s.wr d f v).out = s.out := rfl
@[simp] theorem wr_pending (d : Die) (f : Field) (v : Nat) : (s.wr d f v).pending = s.pending := rfl

/-! ### State.setIo -/

@[simp] theorem setIo_shadow (f : Field) (v : Nat) : (s.setIo f v).shadow = s.shadow := rfl
@[simp] theorem setIo_shadowP (f : Field) (v : Nat) : (s.setIo f v).shadowP = s.shadowP := rfl
@[simp] theorem setIo_stagedW (f : Field) (v : Nat) : (s.setIo f v).stagedW = s.stagedW := rfl
@[simp] theorem setIo_stagedP (f : Field) (v : Nat) : (s.setIo f v).stagedP = s.stagedP := rfl
@[simp] theorem setIo_sets (f : Field) (v : Nat) : (s.setIo f v).sets = s.sets := rfl
@[simp] theorem setIo_ram (f : Field) (v : Nat) : (s.setIo f v).ram = s.ram := rfl
@[simp] theorem setIo_flash (f : Field) (v : Nat) : (s.setIo f v).flash = s.flash := rfl
@[simp] theorem setIo_tb (f : Field) (v : Nat) : (s.setIo f v).tb = s.tb := rfl
@[simp] theorem setIo_pins (f : Field) (v : Nat) : (s.setIo f v).pins = s.pins := rfl
@[simp] theorem setIo_power (f : Field) (v : Nat) : (s.setIo f v).power = s.power := rfl
@[simp] theorem setIo_jtag (f : Field) (v : Nat) : (s.setIo f v).jtag = s.jtag := rfl
@[simp] theorem setIo_boot (f : Field) (v : Nat) : (s.setIo f v).boot = s.boot := rfl
@[simp] theorem setIo_rewrite (f : Field) (v : Nat) : (s.setIo f v).rewrite = s.rewrite := rfl
@[simp] theorem setIo_bobs (f : Field) (v : Nat) : (s.setIo f v).bobs = s.bobs := rfl
@[simp] theorem setIo_cores (f : Field) (v : Nat) : (s.setIo f v).cores = s.cores := rfl
@[simp] theorem setIo_locks (f : Field) (v : Nat) : (s.setIo f v).locks = s.locks := rfl
@[simp] theorem setIo_lockLast (f : Field) (v : Nat) : (s.setIo f v).lockLast = s.lockLast := rfl
@[simp] theorem setIo_latched (f : Field) (v : Nat) : (s.setIo f v).latched = s.latched := rfl
@[simp] theorem setIo_faultTicks (f : Field) (v : Nat) : (s.setIo f v).faultTicks = s.faultTicks := rfl
@[simp] theorem setIo_gnd (f : Field) (v : Nat) : (s.setIo f v).gnd = s.gnd := rfl
@[simp] theorem setIo_lfsr (f : Field) (v : Nat) : (s.setIo f v).lfsr = s.lfsr := rfl
@[simp] theorem setIo_gndClk (f : Field) (v : Nat) : (s.setIo f v).gndClk = s.gndClk := rfl
@[simp] theorem setIo_gndEm (f : Field) (v : Nat) : (s.setIo f v).gndEm = s.gndEm := rfl
@[simp] theorem setIo_gen (f : Field) (v : Nat) : (s.setIo f v).gen = s.gen := rfl
@[simp] theorem setIo_sync (f : Field) (v : Nat) : (s.setIo f v).sync = s.sync := rfl
@[simp] theorem setIo_trip (f : Field) (v : Nat) : (s.setIo f v).trip = s.trip := rfl
@[simp] theorem setIo_red (f : Field) (v : Nat) : (s.setIo f v).red = s.red := rfl
@[simp] theorem setIo_adapt (f : Field) (v : Nat) : (s.setIo f v).adapt = s.adapt := rfl
@[simp] theorem setIo_gooseSt (f : Field) (v : Nat) : (s.setIo f v).gooseSt = s.gooseSt := rfl
@[simp] theorem setIo_goosePub (f : Field) (v : Nat) : (s.setIo f v).goosePub = s.goosePub := rfl
@[simp] theorem setIo_cleReq (f : Field) (v : Nat) : (s.setIo f v).cleReq = s.cleReq := rfl
@[simp] theorem setIo_links (f : Field) (v : Nat) : (s.setIo f v).links = s.links := rfl
@[simp] theorem setIo_nol (f : Field) (v : Nat) : (s.setIo f v).nol = s.nol := rfl
@[simp] theorem setIo_regions (f : Field) (v : Nat) : (s.setIo f v).regions = s.regions := rfl
@[simp] theorem setIo_placed (f : Field) (v : Nat) : (s.setIo f v).placed = s.placed := rfl
@[simp] theorem setIo_movedAt (f : Field) (v : Nat) : (s.setIo f v).movedAt = s.movedAt := rfl
@[simp] theorem setIo_cles (f : Field) (v : Nat) : (s.setIo f v).cles = s.cles := rfl
@[simp] theorem setIo_meas (f : Field) (v : Nat) : (s.setIo f v).meas = s.meas := rfl
@[simp] theorem setIo_inj (f : Field) (v : Nat) : (s.setIo f v).inj = s.inj := rfl
@[simp] theorem setIo_balCh (f : Field) (v : Nat) : (s.setIo f v).balCh = s.balCh := rfl
@[simp] theorem setIo_balCell (f : Field) (v : Nat) : (s.setIo f v).balCell = s.balCell := rfl
@[simp] theorem setIo_hubMem (f : Field) (v : Nat) : (s.setIo f v).hubMem = s.hubMem := rfl
@[simp] theorem setIo_hubArm (f : Field) (v : Nat) : (s.setIo f v).hubArm = s.hubArm := rfl
@[simp] theorem setIo_lanes (f : Field) (v : Nat) : (s.setIo f v).lanes = s.lanes := rfl
@[simp] theorem setIo_servo (f : Field) (v : Nat) : (s.setIo f v).servo = s.servo := rfl
@[simp] theorem setIo_ptp (f : Field) (v : Nat) : (s.setIo f v).ptp = s.ptp := rfl
@[simp] theorem setIo_picot (f : Field) (v : Nat) : (s.setIo f v).picot = s.picot := rfl
@[simp] theorem setIo_netPair (f : Field) (v : Nat) : (s.setIo f v).netPair = s.netPair := rfl
@[simp] theorem setIo_eth (f : Field) (v : Nat) : (s.setIo f v).eth = s.eth := rfl
@[simp] theorem setIo_svSub (f : Field) (v : Nat) : (s.setIo f v).svSub = s.svSub := rfl
@[simp] theorem setIo_gooseSub (f : Field) (v : Nat) : (s.setIo f v).gooseSub = s.gooseSub := rfl
@[simp] theorem setIo_maint (f : Field) (v : Nat) : (s.setIo f v).maint = s.maint := rfl
@[simp] theorem setIo_freeCtr (f : Field) (v : Nat) : (s.setIo f v).freeCtr = s.freeCtr := rfl
@[simp] theorem setIo_out (f : Field) (v : Nat) : (s.setIo f v).out = s.out := rfl
@[simp] theorem setIo_pending (f : Field) (v : Nat) : (s.setIo f v).pending = s.pending := rfl

/-! ### State.raise -/

@[simp] theorem raise_shadow (d : Die) (f : Field) : (s.raise d f).shadow = s.shadow := rfl
@[simp] theorem raise_shadowP (d : Die) (f : Field) : (s.raise d f).shadowP = s.shadowP := rfl
@[simp] theorem raise_stagedW (d : Die) (f : Field) : (s.raise d f).stagedW = s.stagedW := rfl
@[simp] theorem raise_stagedP (d : Die) (f : Field) : (s.raise d f).stagedP = s.stagedP := rfl
@[simp] theorem raise_sets (d : Die) (f : Field) : (s.raise d f).sets = s.sets := rfl
@[simp] theorem raise_ram (d : Die) (f : Field) : (s.raise d f).ram = s.ram := rfl
@[simp] theorem raise_flash (d : Die) (f : Field) : (s.raise d f).flash = s.flash := rfl
@[simp] theorem raise_tb (d : Die) (f : Field) : (s.raise d f).tb = s.tb := rfl
@[simp] theorem raise_pins (d : Die) (f : Field) : (s.raise d f).pins = s.pins := rfl
@[simp] theorem raise_power (d : Die) (f : Field) : (s.raise d f).power = s.power := rfl
@[simp] theorem raise_jtag (d : Die) (f : Field) : (s.raise d f).jtag = s.jtag := rfl
@[simp] theorem raise_boot (d : Die) (f : Field) : (s.raise d f).boot = s.boot := rfl
@[simp] theorem raise_rewrite (d : Die) (f : Field) : (s.raise d f).rewrite = s.rewrite := rfl
@[simp] theorem raise_bobs (d : Die) (f : Field) : (s.raise d f).bobs = s.bobs := rfl
@[simp] theorem raise_cores (d : Die) (f : Field) : (s.raise d f).cores = s.cores := rfl
@[simp] theorem raise_locks (d : Die) (f : Field) : (s.raise d f).locks = s.locks := rfl
@[simp] theorem raise_lockLast (d : Die) (f : Field) : (s.raise d f).lockLast = s.lockLast := rfl
@[simp] theorem raise_latched (d : Die) (f : Field) : (s.raise d f).latched = s.latched := rfl
@[simp] theorem raise_faultTicks (d : Die) (f : Field) : (s.raise d f).faultTicks = s.faultTicks := rfl
@[simp] theorem raise_gnd (d : Die) (f : Field) : (s.raise d f).gnd = s.gnd := rfl
@[simp] theorem raise_lfsr (d : Die) (f : Field) : (s.raise d f).lfsr = s.lfsr := rfl
@[simp] theorem raise_gndClk (d : Die) (f : Field) : (s.raise d f).gndClk = s.gndClk := rfl
@[simp] theorem raise_gndEm (d : Die) (f : Field) : (s.raise d f).gndEm = s.gndEm := rfl
@[simp] theorem raise_gen (d : Die) (f : Field) : (s.raise d f).gen = s.gen := rfl
@[simp] theorem raise_sync (d : Die) (f : Field) : (s.raise d f).sync = s.sync := rfl
@[simp] theorem raise_trip (d : Die) (f : Field) : (s.raise d f).trip = s.trip := rfl
@[simp] theorem raise_red (d : Die) (f : Field) : (s.raise d f).red = s.red := rfl
@[simp] theorem raise_adapt (d : Die) (f : Field) : (s.raise d f).adapt = s.adapt := rfl
@[simp] theorem raise_gooseSt (d : Die) (f : Field) : (s.raise d f).gooseSt = s.gooseSt := rfl
@[simp] theorem raise_goosePub (d : Die) (f : Field) : (s.raise d f).goosePub = s.goosePub := rfl
@[simp] theorem raise_cleReq (d : Die) (f : Field) : (s.raise d f).cleReq = s.cleReq := rfl
@[simp] theorem raise_links (d : Die) (f : Field) : (s.raise d f).links = s.links := rfl
@[simp] theorem raise_nol (d : Die) (f : Field) : (s.raise d f).nol = s.nol := rfl
@[simp] theorem raise_regions (d : Die) (f : Field) : (s.raise d f).regions = s.regions := rfl
@[simp] theorem raise_placed (d : Die) (f : Field) : (s.raise d f).placed = s.placed := rfl
@[simp] theorem raise_movedAt (d : Die) (f : Field) : (s.raise d f).movedAt = s.movedAt := rfl
@[simp] theorem raise_cles (d : Die) (f : Field) : (s.raise d f).cles = s.cles := rfl
@[simp] theorem raise_meas (d : Die) (f : Field) : (s.raise d f).meas = s.meas := rfl
@[simp] theorem raise_inj (d : Die) (f : Field) : (s.raise d f).inj = s.inj := rfl
@[simp] theorem raise_balCh (d : Die) (f : Field) : (s.raise d f).balCh = s.balCh := rfl
@[simp] theorem raise_balCell (d : Die) (f : Field) : (s.raise d f).balCell = s.balCell := rfl
@[simp] theorem raise_hubMem (d : Die) (f : Field) : (s.raise d f).hubMem = s.hubMem := rfl
@[simp] theorem raise_hubArm (d : Die) (f : Field) : (s.raise d f).hubArm = s.hubArm := rfl
@[simp] theorem raise_lanes (d : Die) (f : Field) : (s.raise d f).lanes = s.lanes := rfl
@[simp] theorem raise_servo (d : Die) (f : Field) : (s.raise d f).servo = s.servo := rfl
@[simp] theorem raise_ptp (d : Die) (f : Field) : (s.raise d f).ptp = s.ptp := rfl
@[simp] theorem raise_picot (d : Die) (f : Field) : (s.raise d f).picot = s.picot := rfl
@[simp] theorem raise_netPair (d : Die) (f : Field) : (s.raise d f).netPair = s.netPair := rfl
@[simp] theorem raise_eth (d : Die) (f : Field) : (s.raise d f).eth = s.eth := rfl
@[simp] theorem raise_svSub (d : Die) (f : Field) : (s.raise d f).svSub = s.svSub := rfl
@[simp] theorem raise_gooseSub (d : Die) (f : Field) : (s.raise d f).gooseSub = s.gooseSub := rfl
@[simp] theorem raise_maint (d : Die) (f : Field) : (s.raise d f).maint = s.maint := rfl
@[simp] theorem raise_freeCtr (d : Die) (f : Field) : (s.raise d f).freeCtr = s.freeCtr := rfl
@[simp] theorem raise_out (d : Die) (f : Field) : (s.raise d f).out = s.out := rfl
@[simp] theorem raise_pending (d : Die) (f : Field) : (s.raise d f).pending = s.pending := rfl

/-! ### State.raiseIo -/

@[simp] theorem raiseIo_shadow (f : Field) : (s.raiseIo f).shadow = s.shadow := rfl
@[simp] theorem raiseIo_shadowP (f : Field) : (s.raiseIo f).shadowP = s.shadowP := rfl
@[simp] theorem raiseIo_stagedW (f : Field) : (s.raiseIo f).stagedW = s.stagedW := rfl
@[simp] theorem raiseIo_stagedP (f : Field) : (s.raiseIo f).stagedP = s.stagedP := rfl
@[simp] theorem raiseIo_sets (f : Field) : (s.raiseIo f).sets = s.sets := rfl
@[simp] theorem raiseIo_ram (f : Field) : (s.raiseIo f).ram = s.ram := rfl
@[simp] theorem raiseIo_flash (f : Field) : (s.raiseIo f).flash = s.flash := rfl
@[simp] theorem raiseIo_tb (f : Field) : (s.raiseIo f).tb = s.tb := rfl
@[simp] theorem raiseIo_pins (f : Field) : (s.raiseIo f).pins = s.pins := rfl
@[simp] theorem raiseIo_power (f : Field) : (s.raiseIo f).power = s.power := rfl
@[simp] theorem raiseIo_jtag (f : Field) : (s.raiseIo f).jtag = s.jtag := rfl
@[simp] theorem raiseIo_boot (f : Field) : (s.raiseIo f).boot = s.boot := rfl
@[simp] theorem raiseIo_rewrite (f : Field) : (s.raiseIo f).rewrite = s.rewrite := rfl
@[simp] theorem raiseIo_bobs (f : Field) : (s.raiseIo f).bobs = s.bobs := rfl
@[simp] theorem raiseIo_cores (f : Field) : (s.raiseIo f).cores = s.cores := rfl
@[simp] theorem raiseIo_locks (f : Field) : (s.raiseIo f).locks = s.locks := rfl
@[simp] theorem raiseIo_lockLast (f : Field) : (s.raiseIo f).lockLast = s.lockLast := rfl
@[simp] theorem raiseIo_latched (f : Field) : (s.raiseIo f).latched = s.latched := rfl
@[simp] theorem raiseIo_faultTicks (f : Field) : (s.raiseIo f).faultTicks = s.faultTicks := rfl
@[simp] theorem raiseIo_gnd (f : Field) : (s.raiseIo f).gnd = s.gnd := rfl
@[simp] theorem raiseIo_lfsr (f : Field) : (s.raiseIo f).lfsr = s.lfsr := rfl
@[simp] theorem raiseIo_gndClk (f : Field) : (s.raiseIo f).gndClk = s.gndClk := rfl
@[simp] theorem raiseIo_gndEm (f : Field) : (s.raiseIo f).gndEm = s.gndEm := rfl
@[simp] theorem raiseIo_gen (f : Field) : (s.raiseIo f).gen = s.gen := rfl
@[simp] theorem raiseIo_sync (f : Field) : (s.raiseIo f).sync = s.sync := rfl
@[simp] theorem raiseIo_trip (f : Field) : (s.raiseIo f).trip = s.trip := rfl
@[simp] theorem raiseIo_red (f : Field) : (s.raiseIo f).red = s.red := rfl
@[simp] theorem raiseIo_adapt (f : Field) : (s.raiseIo f).adapt = s.adapt := rfl
@[simp] theorem raiseIo_gooseSt (f : Field) : (s.raiseIo f).gooseSt = s.gooseSt := rfl
@[simp] theorem raiseIo_goosePub (f : Field) : (s.raiseIo f).goosePub = s.goosePub := rfl
@[simp] theorem raiseIo_cleReq (f : Field) : (s.raiseIo f).cleReq = s.cleReq := rfl
@[simp] theorem raiseIo_links (f : Field) : (s.raiseIo f).links = s.links := rfl
@[simp] theorem raiseIo_nol (f : Field) : (s.raiseIo f).nol = s.nol := rfl
@[simp] theorem raiseIo_regions (f : Field) : (s.raiseIo f).regions = s.regions := rfl
@[simp] theorem raiseIo_placed (f : Field) : (s.raiseIo f).placed = s.placed := rfl
@[simp] theorem raiseIo_movedAt (f : Field) : (s.raiseIo f).movedAt = s.movedAt := rfl
@[simp] theorem raiseIo_cles (f : Field) : (s.raiseIo f).cles = s.cles := rfl
@[simp] theorem raiseIo_meas (f : Field) : (s.raiseIo f).meas = s.meas := rfl
@[simp] theorem raiseIo_inj (f : Field) : (s.raiseIo f).inj = s.inj := rfl
@[simp] theorem raiseIo_balCh (f : Field) : (s.raiseIo f).balCh = s.balCh := rfl
@[simp] theorem raiseIo_balCell (f : Field) : (s.raiseIo f).balCell = s.balCell := rfl
@[simp] theorem raiseIo_hubMem (f : Field) : (s.raiseIo f).hubMem = s.hubMem := rfl
@[simp] theorem raiseIo_hubArm (f : Field) : (s.raiseIo f).hubArm = s.hubArm := rfl
@[simp] theorem raiseIo_lanes (f : Field) : (s.raiseIo f).lanes = s.lanes := rfl
@[simp] theorem raiseIo_servo (f : Field) : (s.raiseIo f).servo = s.servo := rfl
@[simp] theorem raiseIo_ptp (f : Field) : (s.raiseIo f).ptp = s.ptp := rfl
@[simp] theorem raiseIo_picot (f : Field) : (s.raiseIo f).picot = s.picot := rfl
@[simp] theorem raiseIo_netPair (f : Field) : (s.raiseIo f).netPair = s.netPair := rfl
@[simp] theorem raiseIo_eth (f : Field) : (s.raiseIo f).eth = s.eth := rfl
@[simp] theorem raiseIo_svSub (f : Field) : (s.raiseIo f).svSub = s.svSub := rfl
@[simp] theorem raiseIo_gooseSub (f : Field) : (s.raiseIo f).gooseSub = s.gooseSub := rfl
@[simp] theorem raiseIo_maint (f : Field) : (s.raiseIo f).maint = s.maint := rfl
@[simp] theorem raiseIo_freeCtr (f : Field) : (s.raiseIo f).freeCtr = s.freeCtr := rfl
@[simp] theorem raiseIo_out (f : Field) : (s.raiseIo f).out = s.out := rfl
@[simp] theorem raiseIo_pending (f : Field) : (s.raiseIo f).pending = s.pending := rfl

/-! ### State.wrSh -/

@[simp] theorem wrSh_regs (d : Die) (f : Field) (v : Nat) : (s.wrSh d f v).regs = s.regs := rfl
@[simp] theorem wrSh_shadowP (d : Die) (f : Field) (v : Nat) : (s.wrSh d f v).shadowP = s.shadowP := rfl
@[simp] theorem wrSh_stagedW (d : Die) (f : Field) (v : Nat) : (s.wrSh d f v).stagedW = s.stagedW := rfl
@[simp] theorem wrSh_stagedP (d : Die) (f : Field) (v : Nat) : (s.wrSh d f v).stagedP = s.stagedP := rfl
@[simp] theorem wrSh_sets (d : Die) (f : Field) (v : Nat) : (s.wrSh d f v).sets = s.sets := rfl
@[simp] theorem wrSh_ram (d : Die) (f : Field) (v : Nat) : (s.wrSh d f v).ram = s.ram := rfl
@[simp] theorem wrSh_flash (d : Die) (f : Field) (v : Nat) : (s.wrSh d f v).flash = s.flash := rfl
@[simp] theorem wrSh_tb (d : Die) (f : Field) (v : Nat) : (s.wrSh d f v).tb = s.tb := rfl
@[simp] theorem wrSh_pins (d : Die) (f : Field) (v : Nat) : (s.wrSh d f v).pins = s.pins := rfl
@[simp] theorem wrSh_power (d : Die) (f : Field) (v : Nat) : (s.wrSh d f v).power = s.power := rfl
@[simp] theorem wrSh_jtag (d : Die) (f : Field) (v : Nat) : (s.wrSh d f v).jtag = s.jtag := rfl
@[simp] theorem wrSh_boot (d : Die) (f : Field) (v : Nat) : (s.wrSh d f v).boot = s.boot := rfl
@[simp] theorem wrSh_rewrite (d : Die) (f : Field) (v : Nat) : (s.wrSh d f v).rewrite = s.rewrite := rfl
@[simp] theorem wrSh_bobs (d : Die) (f : Field) (v : Nat) : (s.wrSh d f v).bobs = s.bobs := rfl
@[simp] theorem wrSh_cores (d : Die) (f : Field) (v : Nat) : (s.wrSh d f v).cores = s.cores := rfl
@[simp] theorem wrSh_locks (d : Die) (f : Field) (v : Nat) : (s.wrSh d f v).locks = s.locks := rfl
@[simp] theorem wrSh_lockLast (d : Die) (f : Field) (v : Nat) : (s.wrSh d f v).lockLast = s.lockLast := rfl
@[simp] theorem wrSh_latched (d : Die) (f : Field) (v : Nat) : (s.wrSh d f v).latched = s.latched := rfl
@[simp] theorem wrSh_faultTicks (d : Die) (f : Field) (v : Nat) : (s.wrSh d f v).faultTicks = s.faultTicks := rfl
@[simp] theorem wrSh_gnd (d : Die) (f : Field) (v : Nat) : (s.wrSh d f v).gnd = s.gnd := rfl
@[simp] theorem wrSh_lfsr (d : Die) (f : Field) (v : Nat) : (s.wrSh d f v).lfsr = s.lfsr := rfl
@[simp] theorem wrSh_gndClk (d : Die) (f : Field) (v : Nat) : (s.wrSh d f v).gndClk = s.gndClk := rfl
@[simp] theorem wrSh_gndEm (d : Die) (f : Field) (v : Nat) : (s.wrSh d f v).gndEm = s.gndEm := rfl
@[simp] theorem wrSh_gen (d : Die) (f : Field) (v : Nat) : (s.wrSh d f v).gen = s.gen := rfl
@[simp] theorem wrSh_sync (d : Die) (f : Field) (v : Nat) : (s.wrSh d f v).sync = s.sync := rfl
@[simp] theorem wrSh_trip (d : Die) (f : Field) (v : Nat) : (s.wrSh d f v).trip = s.trip := rfl
@[simp] theorem wrSh_red (d : Die) (f : Field) (v : Nat) : (s.wrSh d f v).red = s.red := rfl
@[simp] theorem wrSh_adapt (d : Die) (f : Field) (v : Nat) : (s.wrSh d f v).adapt = s.adapt := rfl
@[simp] theorem wrSh_gooseSt (d : Die) (f : Field) (v : Nat) : (s.wrSh d f v).gooseSt = s.gooseSt := rfl
@[simp] theorem wrSh_goosePub (d : Die) (f : Field) (v : Nat) : (s.wrSh d f v).goosePub = s.goosePub := rfl
@[simp] theorem wrSh_cleReq (d : Die) (f : Field) (v : Nat) : (s.wrSh d f v).cleReq = s.cleReq := rfl
@[simp] theorem wrSh_links (d : Die) (f : Field) (v : Nat) : (s.wrSh d f v).links = s.links := rfl
@[simp] theorem wrSh_nol (d : Die) (f : Field) (v : Nat) : (s.wrSh d f v).nol = s.nol := rfl
@[simp] theorem wrSh_regions (d : Die) (f : Field) (v : Nat) : (s.wrSh d f v).regions = s.regions := rfl
@[simp] theorem wrSh_placed (d : Die) (f : Field) (v : Nat) : (s.wrSh d f v).placed = s.placed := rfl
@[simp] theorem wrSh_movedAt (d : Die) (f : Field) (v : Nat) : (s.wrSh d f v).movedAt = s.movedAt := rfl
@[simp] theorem wrSh_cles (d : Die) (f : Field) (v : Nat) : (s.wrSh d f v).cles = s.cles := rfl
@[simp] theorem wrSh_meas (d : Die) (f : Field) (v : Nat) : (s.wrSh d f v).meas = s.meas := rfl
@[simp] theorem wrSh_inj (d : Die) (f : Field) (v : Nat) : (s.wrSh d f v).inj = s.inj := rfl
@[simp] theorem wrSh_balCh (d : Die) (f : Field) (v : Nat) : (s.wrSh d f v).balCh = s.balCh := rfl
@[simp] theorem wrSh_balCell (d : Die) (f : Field) (v : Nat) : (s.wrSh d f v).balCell = s.balCell := rfl
@[simp] theorem wrSh_hubMem (d : Die) (f : Field) (v : Nat) : (s.wrSh d f v).hubMem = s.hubMem := rfl
@[simp] theorem wrSh_hubArm (d : Die) (f : Field) (v : Nat) : (s.wrSh d f v).hubArm = s.hubArm := rfl
@[simp] theorem wrSh_lanes (d : Die) (f : Field) (v : Nat) : (s.wrSh d f v).lanes = s.lanes := rfl
@[simp] theorem wrSh_servo (d : Die) (f : Field) (v : Nat) : (s.wrSh d f v).servo = s.servo := rfl
@[simp] theorem wrSh_ptp (d : Die) (f : Field) (v : Nat) : (s.wrSh d f v).ptp = s.ptp := rfl
@[simp] theorem wrSh_picot (d : Die) (f : Field) (v : Nat) : (s.wrSh d f v).picot = s.picot := rfl
@[simp] theorem wrSh_netPair (d : Die) (f : Field) (v : Nat) : (s.wrSh d f v).netPair = s.netPair := rfl
@[simp] theorem wrSh_eth (d : Die) (f : Field) (v : Nat) : (s.wrSh d f v).eth = s.eth := rfl
@[simp] theorem wrSh_svSub (d : Die) (f : Field) (v : Nat) : (s.wrSh d f v).svSub = s.svSub := rfl
@[simp] theorem wrSh_gooseSub (d : Die) (f : Field) (v : Nat) : (s.wrSh d f v).gooseSub = s.gooseSub := rfl
@[simp] theorem wrSh_maint (d : Die) (f : Field) (v : Nat) : (s.wrSh d f v).maint = s.maint := rfl
@[simp] theorem wrSh_freeCtr (d : Die) (f : Field) (v : Nat) : (s.wrSh d f v).freeCtr = s.freeCtr := rfl
@[simp] theorem wrSh_out (d : Die) (f : Field) (v : Nat) : (s.wrSh d f v).out = s.out := rfl
@[simp] theorem wrSh_pending (d : Die) (f : Field) (v : Nat) : (s.wrSh d f v).pending = s.pending := rfl
@[simp] theorem wrSh_rd (d : Die) (f : Field) (v : Nat) (e : Die) (fld : Field) : (s.wrSh d f v).rd e fld = s.rd e fld := rfl
@[simp] theorem wrSh_io (d : Die) (f : Field) (v : Nat) (fld : Field) : (s.wrSh d f v).io fld = s.io fld := rfl

/-! ### State.wrShP -/

@[simp] theorem wrShP_regs (d : Die) (f : Field) (v : Nat) : (s.wrShP d f v).regs = s.regs := rfl
@[simp] theorem wrShP_shadow (d : Die) (f : Field) (v : Nat) : (s.wrShP d f v).shadow = s.shadow := rfl
@[simp] theorem wrShP_stagedW (d : Die) (f : Field) (v : Nat) : (s.wrShP d f v).stagedW = s.stagedW := rfl
@[simp] theorem wrShP_stagedP (d : Die) (f : Field) (v : Nat) : (s.wrShP d f v).stagedP = s.stagedP := rfl
@[simp] theorem wrShP_sets (d : Die) (f : Field) (v : Nat) : (s.wrShP d f v).sets = s.sets := rfl
@[simp] theorem wrShP_ram (d : Die) (f : Field) (v : Nat) : (s.wrShP d f v).ram = s.ram := rfl
@[simp] theorem wrShP_flash (d : Die) (f : Field) (v : Nat) : (s.wrShP d f v).flash = s.flash := rfl
@[simp] theorem wrShP_tb (d : Die) (f : Field) (v : Nat) : (s.wrShP d f v).tb = s.tb := rfl
@[simp] theorem wrShP_pins (d : Die) (f : Field) (v : Nat) : (s.wrShP d f v).pins = s.pins := rfl
@[simp] theorem wrShP_power (d : Die) (f : Field) (v : Nat) : (s.wrShP d f v).power = s.power := rfl
@[simp] theorem wrShP_jtag (d : Die) (f : Field) (v : Nat) : (s.wrShP d f v).jtag = s.jtag := rfl
@[simp] theorem wrShP_boot (d : Die) (f : Field) (v : Nat) : (s.wrShP d f v).boot = s.boot := rfl
@[simp] theorem wrShP_rewrite (d : Die) (f : Field) (v : Nat) : (s.wrShP d f v).rewrite = s.rewrite := rfl
@[simp] theorem wrShP_bobs (d : Die) (f : Field) (v : Nat) : (s.wrShP d f v).bobs = s.bobs := rfl
@[simp] theorem wrShP_cores (d : Die) (f : Field) (v : Nat) : (s.wrShP d f v).cores = s.cores := rfl
@[simp] theorem wrShP_locks (d : Die) (f : Field) (v : Nat) : (s.wrShP d f v).locks = s.locks := rfl
@[simp] theorem wrShP_lockLast (d : Die) (f : Field) (v : Nat) : (s.wrShP d f v).lockLast = s.lockLast := rfl
@[simp] theorem wrShP_latched (d : Die) (f : Field) (v : Nat) : (s.wrShP d f v).latched = s.latched := rfl
@[simp] theorem wrShP_faultTicks (d : Die) (f : Field) (v : Nat) : (s.wrShP d f v).faultTicks = s.faultTicks := rfl
@[simp] theorem wrShP_gnd (d : Die) (f : Field) (v : Nat) : (s.wrShP d f v).gnd = s.gnd := rfl
@[simp] theorem wrShP_lfsr (d : Die) (f : Field) (v : Nat) : (s.wrShP d f v).lfsr = s.lfsr := rfl
@[simp] theorem wrShP_gndClk (d : Die) (f : Field) (v : Nat) : (s.wrShP d f v).gndClk = s.gndClk := rfl
@[simp] theorem wrShP_gndEm (d : Die) (f : Field) (v : Nat) : (s.wrShP d f v).gndEm = s.gndEm := rfl
@[simp] theorem wrShP_gen (d : Die) (f : Field) (v : Nat) : (s.wrShP d f v).gen = s.gen := rfl
@[simp] theorem wrShP_sync (d : Die) (f : Field) (v : Nat) : (s.wrShP d f v).sync = s.sync := rfl
@[simp] theorem wrShP_trip (d : Die) (f : Field) (v : Nat) : (s.wrShP d f v).trip = s.trip := rfl
@[simp] theorem wrShP_red (d : Die) (f : Field) (v : Nat) : (s.wrShP d f v).red = s.red := rfl
@[simp] theorem wrShP_adapt (d : Die) (f : Field) (v : Nat) : (s.wrShP d f v).adapt = s.adapt := rfl
@[simp] theorem wrShP_gooseSt (d : Die) (f : Field) (v : Nat) : (s.wrShP d f v).gooseSt = s.gooseSt := rfl
@[simp] theorem wrShP_goosePub (d : Die) (f : Field) (v : Nat) : (s.wrShP d f v).goosePub = s.goosePub := rfl
@[simp] theorem wrShP_cleReq (d : Die) (f : Field) (v : Nat) : (s.wrShP d f v).cleReq = s.cleReq := rfl
@[simp] theorem wrShP_links (d : Die) (f : Field) (v : Nat) : (s.wrShP d f v).links = s.links := rfl
@[simp] theorem wrShP_nol (d : Die) (f : Field) (v : Nat) : (s.wrShP d f v).nol = s.nol := rfl
@[simp] theorem wrShP_regions (d : Die) (f : Field) (v : Nat) : (s.wrShP d f v).regions = s.regions := rfl
@[simp] theorem wrShP_placed (d : Die) (f : Field) (v : Nat) : (s.wrShP d f v).placed = s.placed := rfl
@[simp] theorem wrShP_movedAt (d : Die) (f : Field) (v : Nat) : (s.wrShP d f v).movedAt = s.movedAt := rfl
@[simp] theorem wrShP_cles (d : Die) (f : Field) (v : Nat) : (s.wrShP d f v).cles = s.cles := rfl
@[simp] theorem wrShP_meas (d : Die) (f : Field) (v : Nat) : (s.wrShP d f v).meas = s.meas := rfl
@[simp] theorem wrShP_inj (d : Die) (f : Field) (v : Nat) : (s.wrShP d f v).inj = s.inj := rfl
@[simp] theorem wrShP_balCh (d : Die) (f : Field) (v : Nat) : (s.wrShP d f v).balCh = s.balCh := rfl
@[simp] theorem wrShP_balCell (d : Die) (f : Field) (v : Nat) : (s.wrShP d f v).balCell = s.balCell := rfl
@[simp] theorem wrShP_hubMem (d : Die) (f : Field) (v : Nat) : (s.wrShP d f v).hubMem = s.hubMem := rfl
@[simp] theorem wrShP_hubArm (d : Die) (f : Field) (v : Nat) : (s.wrShP d f v).hubArm = s.hubArm := rfl
@[simp] theorem wrShP_lanes (d : Die) (f : Field) (v : Nat) : (s.wrShP d f v).lanes = s.lanes := rfl
@[simp] theorem wrShP_servo (d : Die) (f : Field) (v : Nat) : (s.wrShP d f v).servo = s.servo := rfl
@[simp] theorem wrShP_ptp (d : Die) (f : Field) (v : Nat) : (s.wrShP d f v).ptp = s.ptp := rfl
@[simp] theorem wrShP_picot (d : Die) (f : Field) (v : Nat) : (s.wrShP d f v).picot = s.picot := rfl
@[simp] theorem wrShP_netPair (d : Die) (f : Field) (v : Nat) : (s.wrShP d f v).netPair = s.netPair := rfl
@[simp] theorem wrShP_eth (d : Die) (f : Field) (v : Nat) : (s.wrShP d f v).eth = s.eth := rfl
@[simp] theorem wrShP_svSub (d : Die) (f : Field) (v : Nat) : (s.wrShP d f v).svSub = s.svSub := rfl
@[simp] theorem wrShP_gooseSub (d : Die) (f : Field) (v : Nat) : (s.wrShP d f v).gooseSub = s.gooseSub := rfl
@[simp] theorem wrShP_maint (d : Die) (f : Field) (v : Nat) : (s.wrShP d f v).maint = s.maint := rfl
@[simp] theorem wrShP_freeCtr (d : Die) (f : Field) (v : Nat) : (s.wrShP d f v).freeCtr = s.freeCtr := rfl
@[simp] theorem wrShP_out (d : Die) (f : Field) (v : Nat) : (s.wrShP d f v).out = s.out := rfl
@[simp] theorem wrShP_pending (d : Die) (f : Field) (v : Nat) : (s.wrShP d f v).pending = s.pending := rfl
@[simp] theorem wrShP_rd (d : Die) (f : Field) (v : Nat) (e : Die) (fld : Field) : (s.wrShP d f v).rd e fld = s.rd e fld := rfl
@[simp] theorem wrShP_io (d : Die) (f : Field) (v : Nat) (fld : Field) : (s.wrShP d f v).io fld = s.io fld := rfl

/-! ### State.draw -/

@[simp] theorem draw_regs (n : Nat) : (s.draw n).regs = s.regs := rfl
@[simp] theorem draw_shadow (n : Nat) : (s.draw n).shadow = s.shadow := rfl
@[simp] theorem draw_shadowP (n : Nat) : (s.draw n).shadowP = s.shadowP := rfl
@[simp] theorem draw_stagedW (n : Nat) : (s.draw n).stagedW = s.stagedW := rfl
@[simp] theorem draw_stagedP (n : Nat) : (s.draw n).stagedP = s.stagedP := rfl
@[simp] theorem draw_sets (n : Nat) : (s.draw n).sets = s.sets := rfl
@[simp] theorem draw_ram (n : Nat) : (s.draw n).ram = s.ram := rfl
@[simp] theorem draw_flash (n : Nat) : (s.draw n).flash = s.flash := rfl
@[simp] theorem draw_tb (n : Nat) : (s.draw n).tb = s.tb := rfl
@[simp] theorem draw_pins (n : Nat) : (s.draw n).pins = s.pins := rfl
@[simp] theorem draw_power (n : Nat) : (s.draw n).power = s.power := rfl
@[simp] theorem draw_jtag (n : Nat) : (s.draw n).jtag = s.jtag := rfl
@[simp] theorem draw_boot (n : Nat) : (s.draw n).boot = s.boot := rfl
@[simp] theorem draw_rewrite (n : Nat) : (s.draw n).rewrite = s.rewrite := rfl
@[simp] theorem draw_bobs (n : Nat) : (s.draw n).bobs = s.bobs := rfl
@[simp] theorem draw_cores (n : Nat) : (s.draw n).cores = s.cores := rfl
@[simp] theorem draw_locks (n : Nat) : (s.draw n).locks = s.locks := rfl
@[simp] theorem draw_lockLast (n : Nat) : (s.draw n).lockLast = s.lockLast := rfl
@[simp] theorem draw_latched (n : Nat) : (s.draw n).latched = s.latched := rfl
@[simp] theorem draw_faultTicks (n : Nat) : (s.draw n).faultTicks = s.faultTicks := rfl
@[simp] theorem draw_gnd (n : Nat) : (s.draw n).gnd = s.gnd := rfl
@[simp] theorem draw_lfsr (n : Nat) : (s.draw n).lfsr = s.lfsr := rfl
@[simp] theorem draw_gndClk (n : Nat) : (s.draw n).gndClk = s.gndClk := rfl
@[simp] theorem draw_gndEm (n : Nat) : (s.draw n).gndEm = s.gndEm := rfl
@[simp] theorem draw_gen (n : Nat) : (s.draw n).gen = s.gen := rfl
@[simp] theorem draw_sync (n : Nat) : (s.draw n).sync = s.sync := rfl
@[simp] theorem draw_trip (n : Nat) : (s.draw n).trip = s.trip := rfl
@[simp] theorem draw_red (n : Nat) : (s.draw n).red = s.red := rfl
@[simp] theorem draw_adapt (n : Nat) : (s.draw n).adapt = s.adapt := rfl
@[simp] theorem draw_gooseSt (n : Nat) : (s.draw n).gooseSt = s.gooseSt := rfl
@[simp] theorem draw_goosePub (n : Nat) : (s.draw n).goosePub = s.goosePub := rfl
@[simp] theorem draw_cleReq (n : Nat) : (s.draw n).cleReq = s.cleReq := rfl
@[simp] theorem draw_links (n : Nat) : (s.draw n).links = s.links := rfl
@[simp] theorem draw_nol (n : Nat) : (s.draw n).nol = s.nol := rfl
@[simp] theorem draw_regions (n : Nat) : (s.draw n).regions = s.regions := rfl
@[simp] theorem draw_placed (n : Nat) : (s.draw n).placed = s.placed := rfl
@[simp] theorem draw_movedAt (n : Nat) : (s.draw n).movedAt = s.movedAt := rfl
@[simp] theorem draw_cles (n : Nat) : (s.draw n).cles = s.cles := rfl
@[simp] theorem draw_meas (n : Nat) : (s.draw n).meas = s.meas := rfl
@[simp] theorem draw_inj (n : Nat) : (s.draw n).inj = s.inj := rfl
@[simp] theorem draw_balCh (n : Nat) : (s.draw n).balCh = s.balCh := rfl
@[simp] theorem draw_balCell (n : Nat) : (s.draw n).balCell = s.balCell := rfl
@[simp] theorem draw_hubMem (n : Nat) : (s.draw n).hubMem = s.hubMem := rfl
@[simp] theorem draw_hubArm (n : Nat) : (s.draw n).hubArm = s.hubArm := rfl
@[simp] theorem draw_lanes (n : Nat) : (s.draw n).lanes = s.lanes := rfl
@[simp] theorem draw_servo (n : Nat) : (s.draw n).servo = s.servo := rfl
@[simp] theorem draw_ptp (n : Nat) : (s.draw n).ptp = s.ptp := rfl
@[simp] theorem draw_picot (n : Nat) : (s.draw n).picot = s.picot := rfl
@[simp] theorem draw_netPair (n : Nat) : (s.draw n).netPair = s.netPair := rfl
@[simp] theorem draw_eth (n : Nat) : (s.draw n).eth = s.eth := rfl
@[simp] theorem draw_svSub (n : Nat) : (s.draw n).svSub = s.svSub := rfl
@[simp] theorem draw_gooseSub (n : Nat) : (s.draw n).gooseSub = s.gooseSub := rfl
@[simp] theorem draw_maint (n : Nat) : (s.draw n).maint = s.maint := rfl
@[simp] theorem draw_out (n : Nat) : (s.draw n).out = s.out := rfl
@[simp] theorem draw_pending (n : Nat) : (s.draw n).pending = s.pending := rfl
@[simp] theorem draw_rd (n : Nat) (e : Die) (fld : Field) : (s.draw n).rd e fld = s.rd e fld := rfl
@[simp] theorem draw_io (n : Nat) (fld : Field) : (s.draw n).io fld = s.io fld := rfl

/-! ### State.send -/

@[simp] theorem send_regs (o : Output) : (s.send o).regs = s.regs := rfl
@[simp] theorem send_shadow (o : Output) : (s.send o).shadow = s.shadow := rfl
@[simp] theorem send_shadowP (o : Output) : (s.send o).shadowP = s.shadowP := rfl
@[simp] theorem send_stagedW (o : Output) : (s.send o).stagedW = s.stagedW := rfl
@[simp] theorem send_stagedP (o : Output) : (s.send o).stagedP = s.stagedP := rfl
@[simp] theorem send_sets (o : Output) : (s.send o).sets = s.sets := rfl
@[simp] theorem send_ram (o : Output) : (s.send o).ram = s.ram := rfl
@[simp] theorem send_flash (o : Output) : (s.send o).flash = s.flash := rfl
@[simp] theorem send_tb (o : Output) : (s.send o).tb = s.tb := rfl
@[simp] theorem send_pins (o : Output) : (s.send o).pins = s.pins := rfl
@[simp] theorem send_power (o : Output) : (s.send o).power = s.power := rfl
@[simp] theorem send_jtag (o : Output) : (s.send o).jtag = s.jtag := rfl
@[simp] theorem send_boot (o : Output) : (s.send o).boot = s.boot := rfl
@[simp] theorem send_rewrite (o : Output) : (s.send o).rewrite = s.rewrite := rfl
@[simp] theorem send_bobs (o : Output) : (s.send o).bobs = s.bobs := rfl
@[simp] theorem send_cores (o : Output) : (s.send o).cores = s.cores := rfl
@[simp] theorem send_locks (o : Output) : (s.send o).locks = s.locks := rfl
@[simp] theorem send_lockLast (o : Output) : (s.send o).lockLast = s.lockLast := rfl
@[simp] theorem send_latched (o : Output) : (s.send o).latched = s.latched := rfl
@[simp] theorem send_faultTicks (o : Output) : (s.send o).faultTicks = s.faultTicks := rfl
@[simp] theorem send_gnd (o : Output) : (s.send o).gnd = s.gnd := rfl
@[simp] theorem send_lfsr (o : Output) : (s.send o).lfsr = s.lfsr := rfl
@[simp] theorem send_gndClk (o : Output) : (s.send o).gndClk = s.gndClk := rfl
@[simp] theorem send_gndEm (o : Output) : (s.send o).gndEm = s.gndEm := rfl
@[simp] theorem send_gen (o : Output) : (s.send o).gen = s.gen := rfl
@[simp] theorem send_sync (o : Output) : (s.send o).sync = s.sync := rfl
@[simp] theorem send_trip (o : Output) : (s.send o).trip = s.trip := rfl
@[simp] theorem send_red (o : Output) : (s.send o).red = s.red := rfl
@[simp] theorem send_adapt (o : Output) : (s.send o).adapt = s.adapt := rfl
@[simp] theorem send_gooseSt (o : Output) : (s.send o).gooseSt = s.gooseSt := rfl
@[simp] theorem send_goosePub (o : Output) : (s.send o).goosePub = s.goosePub := rfl
@[simp] theorem send_cleReq (o : Output) : (s.send o).cleReq = s.cleReq := rfl
@[simp] theorem send_links (o : Output) : (s.send o).links = s.links := rfl
@[simp] theorem send_nol (o : Output) : (s.send o).nol = s.nol := rfl
@[simp] theorem send_regions (o : Output) : (s.send o).regions = s.regions := rfl
@[simp] theorem send_placed (o : Output) : (s.send o).placed = s.placed := rfl
@[simp] theorem send_movedAt (o : Output) : (s.send o).movedAt = s.movedAt := rfl
@[simp] theorem send_cles (o : Output) : (s.send o).cles = s.cles := rfl
@[simp] theorem send_meas (o : Output) : (s.send o).meas = s.meas := rfl
@[simp] theorem send_inj (o : Output) : (s.send o).inj = s.inj := rfl
@[simp] theorem send_balCh (o : Output) : (s.send o).balCh = s.balCh := rfl
@[simp] theorem send_balCell (o : Output) : (s.send o).balCell = s.balCell := rfl
@[simp] theorem send_hubMem (o : Output) : (s.send o).hubMem = s.hubMem := rfl
@[simp] theorem send_hubArm (o : Output) : (s.send o).hubArm = s.hubArm := rfl
@[simp] theorem send_lanes (o : Output) : (s.send o).lanes = s.lanes := rfl
@[simp] theorem send_servo (o : Output) : (s.send o).servo = s.servo := rfl
@[simp] theorem send_ptp (o : Output) : (s.send o).ptp = s.ptp := rfl
@[simp] theorem send_picot (o : Output) : (s.send o).picot = s.picot := rfl
@[simp] theorem send_netPair (o : Output) : (s.send o).netPair = s.netPair := rfl
@[simp] theorem send_eth (o : Output) : (s.send o).eth = s.eth := rfl
@[simp] theorem send_svSub (o : Output) : (s.send o).svSub = s.svSub := rfl
@[simp] theorem send_gooseSub (o : Output) : (s.send o).gooseSub = s.gooseSub := rfl
@[simp] theorem send_maint (o : Output) : (s.send o).maint = s.maint := rfl
@[simp] theorem send_freeCtr (o : Output) : (s.send o).freeCtr = s.freeCtr := rfl
@[simp] theorem send_pending (o : Output) : (s.send o).pending = s.pending := rfl
@[simp] theorem send_rd (o : Output) (e : Die) (fld : Field) : (s.send o).rd e fld = s.rd e fld := rfl
@[simp] theorem send_io (o : Output) (fld : Field) : (s.send o).io fld = s.io fld := rfl

/-! ### State.setRam8 -/

@[simp] theorem setRam8_regs (loc a : Nat) (b : Byte) : (s.setRam8 loc a b).regs = s.regs := rfl
@[simp] theorem setRam8_shadow (loc a : Nat) (b : Byte) : (s.setRam8 loc a b).shadow = s.shadow := rfl
@[simp] theorem setRam8_shadowP (loc a : Nat) (b : Byte) : (s.setRam8 loc a b).shadowP = s.shadowP := rfl
@[simp] theorem setRam8_stagedW (loc a : Nat) (b : Byte) : (s.setRam8 loc a b).stagedW = s.stagedW := rfl
@[simp] theorem setRam8_stagedP (loc a : Nat) (b : Byte) : (s.setRam8 loc a b).stagedP = s.stagedP := rfl
@[simp] theorem setRam8_sets (loc a : Nat) (b : Byte) : (s.setRam8 loc a b).sets = s.sets := rfl
@[simp] theorem setRam8_flash (loc a : Nat) (b : Byte) : (s.setRam8 loc a b).flash = s.flash := rfl
@[simp] theorem setRam8_tb (loc a : Nat) (b : Byte) : (s.setRam8 loc a b).tb = s.tb := rfl
@[simp] theorem setRam8_pins (loc a : Nat) (b : Byte) : (s.setRam8 loc a b).pins = s.pins := rfl
@[simp] theorem setRam8_power (loc a : Nat) (b : Byte) : (s.setRam8 loc a b).power = s.power := rfl
@[simp] theorem setRam8_jtag (loc a : Nat) (b : Byte) : (s.setRam8 loc a b).jtag = s.jtag := rfl
@[simp] theorem setRam8_boot (loc a : Nat) (b : Byte) : (s.setRam8 loc a b).boot = s.boot := rfl
@[simp] theorem setRam8_rewrite (loc a : Nat) (b : Byte) : (s.setRam8 loc a b).rewrite = s.rewrite := rfl
@[simp] theorem setRam8_bobs (loc a : Nat) (b : Byte) : (s.setRam8 loc a b).bobs = s.bobs := rfl
@[simp] theorem setRam8_cores (loc a : Nat) (b : Byte) : (s.setRam8 loc a b).cores = s.cores := rfl
@[simp] theorem setRam8_locks (loc a : Nat) (b : Byte) : (s.setRam8 loc a b).locks = s.locks := rfl
@[simp] theorem setRam8_lockLast (loc a : Nat) (b : Byte) : (s.setRam8 loc a b).lockLast = s.lockLast := rfl
@[simp] theorem setRam8_latched (loc a : Nat) (b : Byte) : (s.setRam8 loc a b).latched = s.latched := rfl
@[simp] theorem setRam8_faultTicks (loc a : Nat) (b : Byte) : (s.setRam8 loc a b).faultTicks = s.faultTicks := rfl
@[simp] theorem setRam8_gnd (loc a : Nat) (b : Byte) : (s.setRam8 loc a b).gnd = s.gnd := rfl
@[simp] theorem setRam8_lfsr (loc a : Nat) (b : Byte) : (s.setRam8 loc a b).lfsr = s.lfsr := rfl
@[simp] theorem setRam8_gndClk (loc a : Nat) (b : Byte) : (s.setRam8 loc a b).gndClk = s.gndClk := rfl
@[simp] theorem setRam8_gndEm (loc a : Nat) (b : Byte) : (s.setRam8 loc a b).gndEm = s.gndEm := rfl
@[simp] theorem setRam8_gen (loc a : Nat) (b : Byte) : (s.setRam8 loc a b).gen = s.gen := rfl
@[simp] theorem setRam8_sync (loc a : Nat) (b : Byte) : (s.setRam8 loc a b).sync = s.sync := rfl
@[simp] theorem setRam8_trip (loc a : Nat) (b : Byte) : (s.setRam8 loc a b).trip = s.trip := rfl
@[simp] theorem setRam8_adapt (loc a : Nat) (b : Byte) : (s.setRam8 loc a b).adapt = s.adapt := rfl
@[simp] theorem setRam8_gooseSt (loc a : Nat) (b : Byte) : (s.setRam8 loc a b).gooseSt = s.gooseSt := rfl
@[simp] theorem setRam8_goosePub (loc a : Nat) (b : Byte) : (s.setRam8 loc a b).goosePub = s.goosePub := rfl
@[simp] theorem setRam8_cleReq (loc a : Nat) (b : Byte) : (s.setRam8 loc a b).cleReq = s.cleReq := rfl
@[simp] theorem setRam8_links (loc a : Nat) (b : Byte) : (s.setRam8 loc a b).links = s.links := rfl
@[simp] theorem setRam8_nol (loc a : Nat) (b : Byte) : (s.setRam8 loc a b).nol = s.nol := rfl
@[simp] theorem setRam8_regions (loc a : Nat) (b : Byte) : (s.setRam8 loc a b).regions = s.regions := rfl
@[simp] theorem setRam8_placed (loc a : Nat) (b : Byte) : (s.setRam8 loc a b).placed = s.placed := rfl
@[simp] theorem setRam8_movedAt (loc a : Nat) (b : Byte) : (s.setRam8 loc a b).movedAt = s.movedAt := rfl
@[simp] theorem setRam8_cles (loc a : Nat) (b : Byte) : (s.setRam8 loc a b).cles = s.cles := rfl
@[simp] theorem setRam8_meas (loc a : Nat) (b : Byte) : (s.setRam8 loc a b).meas = s.meas := rfl
@[simp] theorem setRam8_inj (loc a : Nat) (b : Byte) : (s.setRam8 loc a b).inj = s.inj := rfl
@[simp] theorem setRam8_balCh (loc a : Nat) (b : Byte) : (s.setRam8 loc a b).balCh = s.balCh := rfl
@[simp] theorem setRam8_balCell (loc a : Nat) (b : Byte) : (s.setRam8 loc a b).balCell = s.balCell := rfl
@[simp] theorem setRam8_hubMem (loc a : Nat) (b : Byte) : (s.setRam8 loc a b).hubMem = s.hubMem := rfl
@[simp] theorem setRam8_hubArm (loc a : Nat) (b : Byte) : (s.setRam8 loc a b).hubArm = s.hubArm := rfl
@[simp] theorem setRam8_lanes (loc a : Nat) (b : Byte) : (s.setRam8 loc a b).lanes = s.lanes := rfl
@[simp] theorem setRam8_servo (loc a : Nat) (b : Byte) : (s.setRam8 loc a b).servo = s.servo := rfl
@[simp] theorem setRam8_ptp (loc a : Nat) (b : Byte) : (s.setRam8 loc a b).ptp = s.ptp := rfl
@[simp] theorem setRam8_picot (loc a : Nat) (b : Byte) : (s.setRam8 loc a b).picot = s.picot := rfl
@[simp] theorem setRam8_netPair (loc a : Nat) (b : Byte) : (s.setRam8 loc a b).netPair = s.netPair := rfl
@[simp] theorem setRam8_eth (loc a : Nat) (b : Byte) : (s.setRam8 loc a b).eth = s.eth := rfl
@[simp] theorem setRam8_svSub (loc a : Nat) (b : Byte) : (s.setRam8 loc a b).svSub = s.svSub := rfl
@[simp] theorem setRam8_gooseSub (loc a : Nat) (b : Byte) : (s.setRam8 loc a b).gooseSub = s.gooseSub := rfl
@[simp] theorem setRam8_maint (loc a : Nat) (b : Byte) : (s.setRam8 loc a b).maint = s.maint := rfl
@[simp] theorem setRam8_freeCtr (loc a : Nat) (b : Byte) : (s.setRam8 loc a b).freeCtr = s.freeCtr := rfl
@[simp] theorem setRam8_out (loc a : Nat) (b : Byte) : (s.setRam8 loc a b).out = s.out := rfl
@[simp] theorem setRam8_pending (loc a : Nat) (b : Byte) : (s.setRam8 loc a b).pending = s.pending := rfl
@[simp] theorem setRam8_rd (loc a : Nat) (b : Byte) (e : Die) (fld : Field) : (s.setRam8 loc a b).rd e fld = s.rd e fld := rfl
@[simp] theorem setRam8_io (loc a : Nat) (b : Byte) (fld : Field) : (s.setRam8 loc a b).io fld = s.io fld := rfl

/-! ### State.setBob -/

@[simp] theorem setBob_regs (d : Die) (c : Nat) (b : Bobbin) : (s.setBob d c b).regs = s.regs := rfl
@[simp] theorem setBob_shadow (d : Die) (c : Nat) (b : Bobbin) : (s.setBob d c b).shadow = s.shadow := rfl
@[simp] theorem setBob_shadowP (d : Die) (c : Nat) (b : Bobbin) : (s.setBob d c b).shadowP = s.shadowP := rfl
@[simp] theorem setBob_stagedW (d : Die) (c : Nat) (b : Bobbin) : (s.setBob d c b).stagedW = s.stagedW := rfl
@[simp] theorem setBob_stagedP (d : Die) (c : Nat) (b : Bobbin) : (s.setBob d c b).stagedP = s.stagedP := rfl
@[simp] theorem setBob_sets (d : Die) (c : Nat) (b : Bobbin) : (s.setBob d c b).sets = s.sets := rfl
@[simp] theorem setBob_ram (d : Die) (c : Nat) (b : Bobbin) : (s.setBob d c b).ram = s.ram := rfl
@[simp] theorem setBob_flash (d : Die) (c : Nat) (b : Bobbin) : (s.setBob d c b).flash = s.flash := rfl
@[simp] theorem setBob_tb (d : Die) (c : Nat) (b : Bobbin) : (s.setBob d c b).tb = s.tb := rfl
@[simp] theorem setBob_pins (d : Die) (c : Nat) (b : Bobbin) : (s.setBob d c b).pins = s.pins := rfl
@[simp] theorem setBob_power (d : Die) (c : Nat) (b : Bobbin) : (s.setBob d c b).power = s.power := rfl
@[simp] theorem setBob_jtag (d : Die) (c : Nat) (b : Bobbin) : (s.setBob d c b).jtag = s.jtag := rfl
@[simp] theorem setBob_boot (d : Die) (c : Nat) (b : Bobbin) : (s.setBob d c b).boot = s.boot := rfl
@[simp] theorem setBob_rewrite (d : Die) (c : Nat) (b : Bobbin) : (s.setBob d c b).rewrite = s.rewrite := rfl
@[simp] theorem setBob_cores (d : Die) (c : Nat) (b : Bobbin) : (s.setBob d c b).cores = s.cores := rfl
@[simp] theorem setBob_locks (d : Die) (c : Nat) (b : Bobbin) : (s.setBob d c b).locks = s.locks := rfl
@[simp] theorem setBob_lockLast (d : Die) (c : Nat) (b : Bobbin) : (s.setBob d c b).lockLast = s.lockLast := rfl
@[simp] theorem setBob_latched (d : Die) (c : Nat) (b : Bobbin) : (s.setBob d c b).latched = s.latched := rfl
@[simp] theorem setBob_faultTicks (d : Die) (c : Nat) (b : Bobbin) : (s.setBob d c b).faultTicks = s.faultTicks := rfl
@[simp] theorem setBob_gnd (d : Die) (c : Nat) (b : Bobbin) : (s.setBob d c b).gnd = s.gnd := rfl
@[simp] theorem setBob_lfsr (d : Die) (c : Nat) (b : Bobbin) : (s.setBob d c b).lfsr = s.lfsr := rfl
@[simp] theorem setBob_gndClk (d : Die) (c : Nat) (b : Bobbin) : (s.setBob d c b).gndClk = s.gndClk := rfl
@[simp] theorem setBob_gndEm (d : Die) (c : Nat) (b : Bobbin) : (s.setBob d c b).gndEm = s.gndEm := rfl
@[simp] theorem setBob_gen (d : Die) (c : Nat) (b : Bobbin) : (s.setBob d c b).gen = s.gen := rfl
@[simp] theorem setBob_sync (d : Die) (c : Nat) (b : Bobbin) : (s.setBob d c b).sync = s.sync := rfl
@[simp] theorem setBob_trip (d : Die) (c : Nat) (b : Bobbin) : (s.setBob d c b).trip = s.trip := rfl
@[simp] theorem setBob_red (d : Die) (c : Nat) (b : Bobbin) : (s.setBob d c b).red = s.red := rfl
@[simp] theorem setBob_adapt (d : Die) (c : Nat) (b : Bobbin) : (s.setBob d c b).adapt = s.adapt := rfl
@[simp] theorem setBob_gooseSt (d : Die) (c : Nat) (b : Bobbin) : (s.setBob d c b).gooseSt = s.gooseSt := rfl
@[simp] theorem setBob_goosePub (d : Die) (c : Nat) (b : Bobbin) : (s.setBob d c b).goosePub = s.goosePub := rfl
@[simp] theorem setBob_cleReq (d : Die) (c : Nat) (b : Bobbin) : (s.setBob d c b).cleReq = s.cleReq := rfl
@[simp] theorem setBob_links (d : Die) (c : Nat) (b : Bobbin) : (s.setBob d c b).links = s.links := rfl
@[simp] theorem setBob_nol (d : Die) (c : Nat) (b : Bobbin) : (s.setBob d c b).nol = s.nol := rfl
@[simp] theorem setBob_regions (d : Die) (c : Nat) (b : Bobbin) : (s.setBob d c b).regions = s.regions := rfl
@[simp] theorem setBob_placed (d : Die) (c : Nat) (b : Bobbin) : (s.setBob d c b).placed = s.placed := rfl
@[simp] theorem setBob_movedAt (d : Die) (c : Nat) (b : Bobbin) : (s.setBob d c b).movedAt = s.movedAt := rfl
@[simp] theorem setBob_cles (d : Die) (c : Nat) (b : Bobbin) : (s.setBob d c b).cles = s.cles := rfl
@[simp] theorem setBob_meas (d : Die) (c : Nat) (b : Bobbin) : (s.setBob d c b).meas = s.meas := rfl
@[simp] theorem setBob_inj (d : Die) (c : Nat) (b : Bobbin) : (s.setBob d c b).inj = s.inj := rfl
@[simp] theorem setBob_balCh (d : Die) (c : Nat) (b : Bobbin) : (s.setBob d c b).balCh = s.balCh := rfl
@[simp] theorem setBob_balCell (d : Die) (c : Nat) (b : Bobbin) : (s.setBob d c b).balCell = s.balCell := rfl
@[simp] theorem setBob_hubMem (d : Die) (c : Nat) (b : Bobbin) : (s.setBob d c b).hubMem = s.hubMem := rfl
@[simp] theorem setBob_hubArm (d : Die) (c : Nat) (b : Bobbin) : (s.setBob d c b).hubArm = s.hubArm := rfl
@[simp] theorem setBob_lanes (d : Die) (c : Nat) (b : Bobbin) : (s.setBob d c b).lanes = s.lanes := rfl
@[simp] theorem setBob_servo (d : Die) (c : Nat) (b : Bobbin) : (s.setBob d c b).servo = s.servo := rfl
@[simp] theorem setBob_ptp (d : Die) (c : Nat) (b : Bobbin) : (s.setBob d c b).ptp = s.ptp := rfl
@[simp] theorem setBob_picot (d : Die) (c : Nat) (b : Bobbin) : (s.setBob d c b).picot = s.picot := rfl
@[simp] theorem setBob_netPair (d : Die) (c : Nat) (b : Bobbin) : (s.setBob d c b).netPair = s.netPair := rfl
@[simp] theorem setBob_eth (d : Die) (c : Nat) (b : Bobbin) : (s.setBob d c b).eth = s.eth := rfl
@[simp] theorem setBob_svSub (d : Die) (c : Nat) (b : Bobbin) : (s.setBob d c b).svSub = s.svSub := rfl
@[simp] theorem setBob_gooseSub (d : Die) (c : Nat) (b : Bobbin) : (s.setBob d c b).gooseSub = s.gooseSub := rfl
@[simp] theorem setBob_maint (d : Die) (c : Nat) (b : Bobbin) : (s.setBob d c b).maint = s.maint := rfl
@[simp] theorem setBob_freeCtr (d : Die) (c : Nat) (b : Bobbin) : (s.setBob d c b).freeCtr = s.freeCtr := rfl
@[simp] theorem setBob_out (d : Die) (c : Nat) (b : Bobbin) : (s.setBob d c b).out = s.out := rfl
@[simp] theorem setBob_pending (d : Die) (c : Nat) (b : Bobbin) : (s.setBob d c b).pending = s.pending := rfl
@[simp] theorem setBob_rd (d : Die) (c : Nat) (b : Bobbin) (e : Die) (fld : Field) : (s.setBob d c b).rd e fld = s.rd e fld := rfl
@[simp] theorem setBob_io (d : Die) (c : Nat) (b : Bobbin) (fld : Field) : (s.setBob d c b).io fld = s.io fld := rfl

/-! ### State.setCore -/

@[simp] theorem setCore_regs (d : Die) (c : Nat) (x : CoreSt) : (s.setCore d c x).regs = s.regs := rfl
@[simp] theorem setCore_shadow (d : Die) (c : Nat) (x : CoreSt) : (s.setCore d c x).shadow = s.shadow := rfl
@[simp] theorem setCore_shadowP (d : Die) (c : Nat) (x : CoreSt) : (s.setCore d c x).shadowP = s.shadowP := rfl
@[simp] theorem setCore_stagedW (d : Die) (c : Nat) (x : CoreSt) : (s.setCore d c x).stagedW = s.stagedW := rfl
@[simp] theorem setCore_stagedP (d : Die) (c : Nat) (x : CoreSt) : (s.setCore d c x).stagedP = s.stagedP := rfl
@[simp] theorem setCore_sets (d : Die) (c : Nat) (x : CoreSt) : (s.setCore d c x).sets = s.sets := rfl
@[simp] theorem setCore_ram (d : Die) (c : Nat) (x : CoreSt) : (s.setCore d c x).ram = s.ram := rfl
@[simp] theorem setCore_flash (d : Die) (c : Nat) (x : CoreSt) : (s.setCore d c x).flash = s.flash := rfl
@[simp] theorem setCore_tb (d : Die) (c : Nat) (x : CoreSt) : (s.setCore d c x).tb = s.tb := rfl
@[simp] theorem setCore_pins (d : Die) (c : Nat) (x : CoreSt) : (s.setCore d c x).pins = s.pins := rfl
@[simp] theorem setCore_power (d : Die) (c : Nat) (x : CoreSt) : (s.setCore d c x).power = s.power := rfl
@[simp] theorem setCore_jtag (d : Die) (c : Nat) (x : CoreSt) : (s.setCore d c x).jtag = s.jtag := rfl
@[simp] theorem setCore_boot (d : Die) (c : Nat) (x : CoreSt) : (s.setCore d c x).boot = s.boot := rfl
@[simp] theorem setCore_rewrite (d : Die) (c : Nat) (x : CoreSt) : (s.setCore d c x).rewrite = s.rewrite := rfl
@[simp] theorem setCore_bobs (d : Die) (c : Nat) (x : CoreSt) : (s.setCore d c x).bobs = s.bobs := rfl
@[simp] theorem setCore_locks (d : Die) (c : Nat) (x : CoreSt) : (s.setCore d c x).locks = s.locks := rfl
@[simp] theorem setCore_lockLast (d : Die) (c : Nat) (x : CoreSt) : (s.setCore d c x).lockLast = s.lockLast := rfl
@[simp] theorem setCore_latched (d : Die) (c : Nat) (x : CoreSt) : (s.setCore d c x).latched = s.latched := rfl
@[simp] theorem setCore_faultTicks (d : Die) (c : Nat) (x : CoreSt) : (s.setCore d c x).faultTicks = s.faultTicks := rfl
@[simp] theorem setCore_gnd (d : Die) (c : Nat) (x : CoreSt) : (s.setCore d c x).gnd = s.gnd := rfl
@[simp] theorem setCore_lfsr (d : Die) (c : Nat) (x : CoreSt) : (s.setCore d c x).lfsr = s.lfsr := rfl
@[simp] theorem setCore_gndClk (d : Die) (c : Nat) (x : CoreSt) : (s.setCore d c x).gndClk = s.gndClk := rfl
@[simp] theorem setCore_gndEm (d : Die) (c : Nat) (x : CoreSt) : (s.setCore d c x).gndEm = s.gndEm := rfl
@[simp] theorem setCore_gen (d : Die) (c : Nat) (x : CoreSt) : (s.setCore d c x).gen = s.gen := rfl
@[simp] theorem setCore_sync (d : Die) (c : Nat) (x : CoreSt) : (s.setCore d c x).sync = s.sync := rfl
@[simp] theorem setCore_trip (d : Die) (c : Nat) (x : CoreSt) : (s.setCore d c x).trip = s.trip := rfl
@[simp] theorem setCore_red (d : Die) (c : Nat) (x : CoreSt) : (s.setCore d c x).red = s.red := rfl
@[simp] theorem setCore_adapt (d : Die) (c : Nat) (x : CoreSt) : (s.setCore d c x).adapt = s.adapt := rfl
@[simp] theorem setCore_gooseSt (d : Die) (c : Nat) (x : CoreSt) : (s.setCore d c x).gooseSt = s.gooseSt := rfl
@[simp] theorem setCore_goosePub (d : Die) (c : Nat) (x : CoreSt) : (s.setCore d c x).goosePub = s.goosePub := rfl
@[simp] theorem setCore_cleReq (d : Die) (c : Nat) (x : CoreSt) : (s.setCore d c x).cleReq = s.cleReq := rfl
@[simp] theorem setCore_links (d : Die) (c : Nat) (x : CoreSt) : (s.setCore d c x).links = s.links := rfl
@[simp] theorem setCore_nol (d : Die) (c : Nat) (x : CoreSt) : (s.setCore d c x).nol = s.nol := rfl
@[simp] theorem setCore_regions (d : Die) (c : Nat) (x : CoreSt) : (s.setCore d c x).regions = s.regions := rfl
@[simp] theorem setCore_placed (d : Die) (c : Nat) (x : CoreSt) : (s.setCore d c x).placed = s.placed := rfl
@[simp] theorem setCore_movedAt (d : Die) (c : Nat) (x : CoreSt) : (s.setCore d c x).movedAt = s.movedAt := rfl
@[simp] theorem setCore_cles (d : Die) (c : Nat) (x : CoreSt) : (s.setCore d c x).cles = s.cles := rfl
@[simp] theorem setCore_meas (d : Die) (c : Nat) (x : CoreSt) : (s.setCore d c x).meas = s.meas := rfl
@[simp] theorem setCore_inj (d : Die) (c : Nat) (x : CoreSt) : (s.setCore d c x).inj = s.inj := rfl
@[simp] theorem setCore_balCh (d : Die) (c : Nat) (x : CoreSt) : (s.setCore d c x).balCh = s.balCh := rfl
@[simp] theorem setCore_balCell (d : Die) (c : Nat) (x : CoreSt) : (s.setCore d c x).balCell = s.balCell := rfl
@[simp] theorem setCore_hubMem (d : Die) (c : Nat) (x : CoreSt) : (s.setCore d c x).hubMem = s.hubMem := rfl
@[simp] theorem setCore_hubArm (d : Die) (c : Nat) (x : CoreSt) : (s.setCore d c x).hubArm = s.hubArm := rfl
@[simp] theorem setCore_lanes (d : Die) (c : Nat) (x : CoreSt) : (s.setCore d c x).lanes = s.lanes := rfl
@[simp] theorem setCore_servo (d : Die) (c : Nat) (x : CoreSt) : (s.setCore d c x).servo = s.servo := rfl
@[simp] theorem setCore_ptp (d : Die) (c : Nat) (x : CoreSt) : (s.setCore d c x).ptp = s.ptp := rfl
@[simp] theorem setCore_picot (d : Die) (c : Nat) (x : CoreSt) : (s.setCore d c x).picot = s.picot := rfl
@[simp] theorem setCore_netPair (d : Die) (c : Nat) (x : CoreSt) : (s.setCore d c x).netPair = s.netPair := rfl
@[simp] theorem setCore_eth (d : Die) (c : Nat) (x : CoreSt) : (s.setCore d c x).eth = s.eth := rfl
@[simp] theorem setCore_svSub (d : Die) (c : Nat) (x : CoreSt) : (s.setCore d c x).svSub = s.svSub := rfl
@[simp] theorem setCore_gooseSub (d : Die) (c : Nat) (x : CoreSt) : (s.setCore d c x).gooseSub = s.gooseSub := rfl
@[simp] theorem setCore_maint (d : Die) (c : Nat) (x : CoreSt) : (s.setCore d c x).maint = s.maint := rfl
@[simp] theorem setCore_freeCtr (d : Die) (c : Nat) (x : CoreSt) : (s.setCore d c x).freeCtr = s.freeCtr := rfl
@[simp] theorem setCore_out (d : Die) (c : Nat) (x : CoreSt) : (s.setCore d c x).out = s.out := rfl
@[simp] theorem setCore_pending (d : Die) (c : Nat) (x : CoreSt) : (s.setCore d c x).pending = s.pending := rfl
@[simp] theorem setCore_rd (d : Die) (c : Nat) (x : CoreSt) (e : Die) (fld : Field) : (s.setCore d c x).rd e fld = s.rd e fld := rfl
@[simp] theorem setCore_io (d : Die) (c : Nat) (x : CoreSt) (fld : Field) : (s.setCore d c x).io fld = s.io fld := rfl

/-! ### State.setGenCh -/

@[simp] theorem setGenCh_regs (n : Nat) (g : GenCh) : (s.setGenCh n g).regs = s.regs := rfl
@[simp] theorem setGenCh_shadow (n : Nat) (g : GenCh) : (s.setGenCh n g).shadow = s.shadow := rfl
@[simp] theorem setGenCh_shadowP (n : Nat) (g : GenCh) : (s.setGenCh n g).shadowP = s.shadowP := rfl
@[simp] theorem setGenCh_stagedW (n : Nat) (g : GenCh) : (s.setGenCh n g).stagedW = s.stagedW := rfl
@[simp] theorem setGenCh_stagedP (n : Nat) (g : GenCh) : (s.setGenCh n g).stagedP = s.stagedP := rfl
@[simp] theorem setGenCh_sets (n : Nat) (g : GenCh) : (s.setGenCh n g).sets = s.sets := rfl
@[simp] theorem setGenCh_ram (n : Nat) (g : GenCh) : (s.setGenCh n g).ram = s.ram := rfl
@[simp] theorem setGenCh_flash (n : Nat) (g : GenCh) : (s.setGenCh n g).flash = s.flash := rfl
@[simp] theorem setGenCh_tb (n : Nat) (g : GenCh) : (s.setGenCh n g).tb = s.tb := rfl
@[simp] theorem setGenCh_pins (n : Nat) (g : GenCh) : (s.setGenCh n g).pins = s.pins := rfl
@[simp] theorem setGenCh_power (n : Nat) (g : GenCh) : (s.setGenCh n g).power = s.power := rfl
@[simp] theorem setGenCh_jtag (n : Nat) (g : GenCh) : (s.setGenCh n g).jtag = s.jtag := rfl
@[simp] theorem setGenCh_boot (n : Nat) (g : GenCh) : (s.setGenCh n g).boot = s.boot := rfl
@[simp] theorem setGenCh_rewrite (n : Nat) (g : GenCh) : (s.setGenCh n g).rewrite = s.rewrite := rfl
@[simp] theorem setGenCh_bobs (n : Nat) (g : GenCh) : (s.setGenCh n g).bobs = s.bobs := rfl
@[simp] theorem setGenCh_cores (n : Nat) (g : GenCh) : (s.setGenCh n g).cores = s.cores := rfl
@[simp] theorem setGenCh_locks (n : Nat) (g : GenCh) : (s.setGenCh n g).locks = s.locks := rfl
@[simp] theorem setGenCh_lockLast (n : Nat) (g : GenCh) : (s.setGenCh n g).lockLast = s.lockLast := rfl
@[simp] theorem setGenCh_latched (n : Nat) (g : GenCh) : (s.setGenCh n g).latched = s.latched := rfl
@[simp] theorem setGenCh_faultTicks (n : Nat) (g : GenCh) : (s.setGenCh n g).faultTicks = s.faultTicks := rfl
@[simp] theorem setGenCh_gnd (n : Nat) (g : GenCh) : (s.setGenCh n g).gnd = s.gnd := rfl
@[simp] theorem setGenCh_lfsr (n : Nat) (g : GenCh) : (s.setGenCh n g).lfsr = s.lfsr := rfl
@[simp] theorem setGenCh_gndClk (n : Nat) (g : GenCh) : (s.setGenCh n g).gndClk = s.gndClk := rfl
@[simp] theorem setGenCh_gndEm (n : Nat) (g : GenCh) : (s.setGenCh n g).gndEm = s.gndEm := rfl
@[simp] theorem setGenCh_sync (n : Nat) (g : GenCh) : (s.setGenCh n g).sync = s.sync := rfl
@[simp] theorem setGenCh_trip (n : Nat) (g : GenCh) : (s.setGenCh n g).trip = s.trip := rfl
@[simp] theorem setGenCh_red (n : Nat) (g : GenCh) : (s.setGenCh n g).red = s.red := rfl
@[simp] theorem setGenCh_adapt (n : Nat) (g : GenCh) : (s.setGenCh n g).adapt = s.adapt := rfl
@[simp] theorem setGenCh_gooseSt (n : Nat) (g : GenCh) : (s.setGenCh n g).gooseSt = s.gooseSt := rfl
@[simp] theorem setGenCh_goosePub (n : Nat) (g : GenCh) : (s.setGenCh n g).goosePub = s.goosePub := rfl
@[simp] theorem setGenCh_cleReq (n : Nat) (g : GenCh) : (s.setGenCh n g).cleReq = s.cleReq := rfl
@[simp] theorem setGenCh_links (n : Nat) (g : GenCh) : (s.setGenCh n g).links = s.links := rfl
@[simp] theorem setGenCh_nol (n : Nat) (g : GenCh) : (s.setGenCh n g).nol = s.nol := rfl
@[simp] theorem setGenCh_regions (n : Nat) (g : GenCh) : (s.setGenCh n g).regions = s.regions := rfl
@[simp] theorem setGenCh_placed (n : Nat) (g : GenCh) : (s.setGenCh n g).placed = s.placed := rfl
@[simp] theorem setGenCh_movedAt (n : Nat) (g : GenCh) : (s.setGenCh n g).movedAt = s.movedAt := rfl
@[simp] theorem setGenCh_cles (n : Nat) (g : GenCh) : (s.setGenCh n g).cles = s.cles := rfl
@[simp] theorem setGenCh_meas (n : Nat) (g : GenCh) : (s.setGenCh n g).meas = s.meas := rfl
@[simp] theorem setGenCh_inj (n : Nat) (g : GenCh) : (s.setGenCh n g).inj = s.inj := rfl
@[simp] theorem setGenCh_balCh (n : Nat) (g : GenCh) : (s.setGenCh n g).balCh = s.balCh := rfl
@[simp] theorem setGenCh_balCell (n : Nat) (g : GenCh) : (s.setGenCh n g).balCell = s.balCell := rfl
@[simp] theorem setGenCh_hubMem (n : Nat) (g : GenCh) : (s.setGenCh n g).hubMem = s.hubMem := rfl
@[simp] theorem setGenCh_hubArm (n : Nat) (g : GenCh) : (s.setGenCh n g).hubArm = s.hubArm := rfl
@[simp] theorem setGenCh_lanes (n : Nat) (g : GenCh) : (s.setGenCh n g).lanes = s.lanes := rfl
@[simp] theorem setGenCh_servo (n : Nat) (g : GenCh) : (s.setGenCh n g).servo = s.servo := rfl
@[simp] theorem setGenCh_ptp (n : Nat) (g : GenCh) : (s.setGenCh n g).ptp = s.ptp := rfl
@[simp] theorem setGenCh_picot (n : Nat) (g : GenCh) : (s.setGenCh n g).picot = s.picot := rfl
@[simp] theorem setGenCh_netPair (n : Nat) (g : GenCh) : (s.setGenCh n g).netPair = s.netPair := rfl
@[simp] theorem setGenCh_eth (n : Nat) (g : GenCh) : (s.setGenCh n g).eth = s.eth := rfl
@[simp] theorem setGenCh_svSub (n : Nat) (g : GenCh) : (s.setGenCh n g).svSub = s.svSub := rfl
@[simp] theorem setGenCh_gooseSub (n : Nat) (g : GenCh) : (s.setGenCh n g).gooseSub = s.gooseSub := rfl
@[simp] theorem setGenCh_maint (n : Nat) (g : GenCh) : (s.setGenCh n g).maint = s.maint := rfl
@[simp] theorem setGenCh_freeCtr (n : Nat) (g : GenCh) : (s.setGenCh n g).freeCtr = s.freeCtr := rfl
@[simp] theorem setGenCh_out (n : Nat) (g : GenCh) : (s.setGenCh n g).out = s.out := rfl
@[simp] theorem setGenCh_pending (n : Nat) (g : GenCh) : (s.setGenCh n g).pending = s.pending := rfl
@[simp] theorem setGenCh_rd (n : Nat) (g : GenCh) (e : Die) (fld : Field) : (s.setGenCh n g).rd e fld = s.rd e fld := rfl
@[simp] theorem setGenCh_io (n : Nat) (g : GenCh) (fld : Field) : (s.setGenCh n g).io fld = s.io fld := rfl

/-! ### State.setGrp -/

@[simp] theorem setGrp_regs (g : Nat) (x : Grp) : (s.setGrp g x).regs = s.regs := rfl
@[simp] theorem setGrp_shadow (g : Nat) (x : Grp) : (s.setGrp g x).shadow = s.shadow := rfl
@[simp] theorem setGrp_shadowP (g : Nat) (x : Grp) : (s.setGrp g x).shadowP = s.shadowP := rfl
@[simp] theorem setGrp_stagedW (g : Nat) (x : Grp) : (s.setGrp g x).stagedW = s.stagedW := rfl
@[simp] theorem setGrp_stagedP (g : Nat) (x : Grp) : (s.setGrp g x).stagedP = s.stagedP := rfl
@[simp] theorem setGrp_sets (g : Nat) (x : Grp) : (s.setGrp g x).sets = s.sets := rfl
@[simp] theorem setGrp_ram (g : Nat) (x : Grp) : (s.setGrp g x).ram = s.ram := rfl
@[simp] theorem setGrp_flash (g : Nat) (x : Grp) : (s.setGrp g x).flash = s.flash := rfl
@[simp] theorem setGrp_tb (g : Nat) (x : Grp) : (s.setGrp g x).tb = s.tb := rfl
@[simp] theorem setGrp_pins (g : Nat) (x : Grp) : (s.setGrp g x).pins = s.pins := rfl
@[simp] theorem setGrp_power (g : Nat) (x : Grp) : (s.setGrp g x).power = s.power := rfl
@[simp] theorem setGrp_jtag (g : Nat) (x : Grp) : (s.setGrp g x).jtag = s.jtag := rfl
@[simp] theorem setGrp_boot (g : Nat) (x : Grp) : (s.setGrp g x).boot = s.boot := rfl
@[simp] theorem setGrp_rewrite (g : Nat) (x : Grp) : (s.setGrp g x).rewrite = s.rewrite := rfl
@[simp] theorem setGrp_bobs (g : Nat) (x : Grp) : (s.setGrp g x).bobs = s.bobs := rfl
@[simp] theorem setGrp_cores (g : Nat) (x : Grp) : (s.setGrp g x).cores = s.cores := rfl
@[simp] theorem setGrp_locks (g : Nat) (x : Grp) : (s.setGrp g x).locks = s.locks := rfl
@[simp] theorem setGrp_lockLast (g : Nat) (x : Grp) : (s.setGrp g x).lockLast = s.lockLast := rfl
@[simp] theorem setGrp_latched (g : Nat) (x : Grp) : (s.setGrp g x).latched = s.latched := rfl
@[simp] theorem setGrp_faultTicks (g : Nat) (x : Grp) : (s.setGrp g x).faultTicks = s.faultTicks := rfl
@[simp] theorem setGrp_gnd (g : Nat) (x : Grp) : (s.setGrp g x).gnd = s.gnd := rfl
@[simp] theorem setGrp_lfsr (g : Nat) (x : Grp) : (s.setGrp g x).lfsr = s.lfsr := rfl
@[simp] theorem setGrp_gndClk (g : Nat) (x : Grp) : (s.setGrp g x).gndClk = s.gndClk := rfl
@[simp] theorem setGrp_gndEm (g : Nat) (x : Grp) : (s.setGrp g x).gndEm = s.gndEm := rfl
@[simp] theorem setGrp_gen (g : Nat) (x : Grp) : (s.setGrp g x).gen = s.gen := rfl
@[simp] theorem setGrp_sync (g : Nat) (x : Grp) : (s.setGrp g x).sync = s.sync := rfl
@[simp] theorem setGrp_red (g : Nat) (x : Grp) : (s.setGrp g x).red = s.red := rfl
@[simp] theorem setGrp_adapt (g : Nat) (x : Grp) : (s.setGrp g x).adapt = s.adapt := rfl
@[simp] theorem setGrp_gooseSt (g : Nat) (x : Grp) : (s.setGrp g x).gooseSt = s.gooseSt := rfl
@[simp] theorem setGrp_goosePub (g : Nat) (x : Grp) : (s.setGrp g x).goosePub = s.goosePub := rfl
@[simp] theorem setGrp_cleReq (g : Nat) (x : Grp) : (s.setGrp g x).cleReq = s.cleReq := rfl
@[simp] theorem setGrp_links (g : Nat) (x : Grp) : (s.setGrp g x).links = s.links := rfl
@[simp] theorem setGrp_nol (g : Nat) (x : Grp) : (s.setGrp g x).nol = s.nol := rfl
@[simp] theorem setGrp_regions (g : Nat) (x : Grp) : (s.setGrp g x).regions = s.regions := rfl
@[simp] theorem setGrp_placed (g : Nat) (x : Grp) : (s.setGrp g x).placed = s.placed := rfl
@[simp] theorem setGrp_movedAt (g : Nat) (x : Grp) : (s.setGrp g x).movedAt = s.movedAt := rfl
@[simp] theorem setGrp_cles (g : Nat) (x : Grp) : (s.setGrp g x).cles = s.cles := rfl
@[simp] theorem setGrp_meas (g : Nat) (x : Grp) : (s.setGrp g x).meas = s.meas := rfl
@[simp] theorem setGrp_inj (g : Nat) (x : Grp) : (s.setGrp g x).inj = s.inj := rfl
@[simp] theorem setGrp_balCh (g : Nat) (x : Grp) : (s.setGrp g x).balCh = s.balCh := rfl
@[simp] theorem setGrp_balCell (g : Nat) (x : Grp) : (s.setGrp g x).balCell = s.balCell := rfl
@[simp] theorem setGrp_hubMem (g : Nat) (x : Grp) : (s.setGrp g x).hubMem = s.hubMem := rfl
@[simp] theorem setGrp_hubArm (g : Nat) (x : Grp) : (s.setGrp g x).hubArm = s.hubArm := rfl
@[simp] theorem setGrp_lanes (g : Nat) (x : Grp) : (s.setGrp g x).lanes = s.lanes := rfl
@[simp] theorem setGrp_servo (g : Nat) (x : Grp) : (s.setGrp g x).servo = s.servo := rfl
@[simp] theorem setGrp_ptp (g : Nat) (x : Grp) : (s.setGrp g x).ptp = s.ptp := rfl
@[simp] theorem setGrp_picot (g : Nat) (x : Grp) : (s.setGrp g x).picot = s.picot := rfl
@[simp] theorem setGrp_netPair (g : Nat) (x : Grp) : (s.setGrp g x).netPair = s.netPair := rfl
@[simp] theorem setGrp_eth (g : Nat) (x : Grp) : (s.setGrp g x).eth = s.eth := rfl
@[simp] theorem setGrp_svSub (g : Nat) (x : Grp) : (s.setGrp g x).svSub = s.svSub := rfl
@[simp] theorem setGrp_gooseSub (g : Nat) (x : Grp) : (s.setGrp g x).gooseSub = s.gooseSub := rfl
@[simp] theorem setGrp_maint (g : Nat) (x : Grp) : (s.setGrp g x).maint = s.maint := rfl
@[simp] theorem setGrp_freeCtr (g : Nat) (x : Grp) : (s.setGrp g x).freeCtr = s.freeCtr := rfl
@[simp] theorem setGrp_out (g : Nat) (x : Grp) : (s.setGrp g x).out = s.out := rfl
@[simp] theorem setGrp_pending (g : Nat) (x : Grp) : (s.setGrp g x).pending = s.pending := rfl
@[simp] theorem setGrp_rd (g : Nat) (x : Grp) (e : Die) (fld : Field) : (s.setGrp g x).rd e fld = s.rd e fld := rfl
@[simp] theorem setGrp_io (g : Nat) (x : Grp) (fld : Field) : (s.setGrp g x).io fld = s.io fld := rfl

/-! ### State.setAdapt -/

@[simp] theorem setAdapt_regs (d : Die) (a : AdaptDie) : (s.setAdapt d a).regs = s.regs := rfl
@[simp] theorem setAdapt_shadow (d : Die) (a : AdaptDie) : (s.setAdapt d a).shadow = s.shadow := rfl
@[simp] theorem setAdapt_shadowP (d : Die) (a : AdaptDie) : (s.setAdapt d a).shadowP = s.shadowP := rfl
@[simp] theorem setAdapt_stagedW (d : Die) (a : AdaptDie) : (s.setAdapt d a).stagedW = s.stagedW := rfl
@[simp] theorem setAdapt_stagedP (d : Die) (a : AdaptDie) : (s.setAdapt d a).stagedP = s.stagedP := rfl
@[simp] theorem setAdapt_sets (d : Die) (a : AdaptDie) : (s.setAdapt d a).sets = s.sets := rfl
@[simp] theorem setAdapt_ram (d : Die) (a : AdaptDie) : (s.setAdapt d a).ram = s.ram := rfl
@[simp] theorem setAdapt_flash (d : Die) (a : AdaptDie) : (s.setAdapt d a).flash = s.flash := rfl
@[simp] theorem setAdapt_tb (d : Die) (a : AdaptDie) : (s.setAdapt d a).tb = s.tb := rfl
@[simp] theorem setAdapt_pins (d : Die) (a : AdaptDie) : (s.setAdapt d a).pins = s.pins := rfl
@[simp] theorem setAdapt_power (d : Die) (a : AdaptDie) : (s.setAdapt d a).power = s.power := rfl
@[simp] theorem setAdapt_jtag (d : Die) (a : AdaptDie) : (s.setAdapt d a).jtag = s.jtag := rfl
@[simp] theorem setAdapt_boot (d : Die) (a : AdaptDie) : (s.setAdapt d a).boot = s.boot := rfl
@[simp] theorem setAdapt_rewrite (d : Die) (a : AdaptDie) : (s.setAdapt d a).rewrite = s.rewrite := rfl
@[simp] theorem setAdapt_bobs (d : Die) (a : AdaptDie) : (s.setAdapt d a).bobs = s.bobs := rfl
@[simp] theorem setAdapt_cores (d : Die) (a : AdaptDie) : (s.setAdapt d a).cores = s.cores := rfl
@[simp] theorem setAdapt_locks (d : Die) (a : AdaptDie) : (s.setAdapt d a).locks = s.locks := rfl
@[simp] theorem setAdapt_lockLast (d : Die) (a : AdaptDie) : (s.setAdapt d a).lockLast = s.lockLast := rfl
@[simp] theorem setAdapt_latched (d : Die) (a : AdaptDie) : (s.setAdapt d a).latched = s.latched := rfl
@[simp] theorem setAdapt_faultTicks (d : Die) (a : AdaptDie) : (s.setAdapt d a).faultTicks = s.faultTicks := rfl
@[simp] theorem setAdapt_gnd (d : Die) (a : AdaptDie) : (s.setAdapt d a).gnd = s.gnd := rfl
@[simp] theorem setAdapt_lfsr (d : Die) (a : AdaptDie) : (s.setAdapt d a).lfsr = s.lfsr := rfl
@[simp] theorem setAdapt_gndClk (d : Die) (a : AdaptDie) : (s.setAdapt d a).gndClk = s.gndClk := rfl
@[simp] theorem setAdapt_gndEm (d : Die) (a : AdaptDie) : (s.setAdapt d a).gndEm = s.gndEm := rfl
@[simp] theorem setAdapt_gen (d : Die) (a : AdaptDie) : (s.setAdapt d a).gen = s.gen := rfl
@[simp] theorem setAdapt_sync (d : Die) (a : AdaptDie) : (s.setAdapt d a).sync = s.sync := rfl
@[simp] theorem setAdapt_trip (d : Die) (a : AdaptDie) : (s.setAdapt d a).trip = s.trip := rfl
@[simp] theorem setAdapt_red (d : Die) (a : AdaptDie) : (s.setAdapt d a).red = s.red := rfl
@[simp] theorem setAdapt_gooseSt (d : Die) (a : AdaptDie) : (s.setAdapt d a).gooseSt = s.gooseSt := rfl
@[simp] theorem setAdapt_goosePub (d : Die) (a : AdaptDie) : (s.setAdapt d a).goosePub = s.goosePub := rfl
@[simp] theorem setAdapt_cleReq (d : Die) (a : AdaptDie) : (s.setAdapt d a).cleReq = s.cleReq := rfl
@[simp] theorem setAdapt_links (d : Die) (a : AdaptDie) : (s.setAdapt d a).links = s.links := rfl
@[simp] theorem setAdapt_nol (d : Die) (a : AdaptDie) : (s.setAdapt d a).nol = s.nol := rfl
@[simp] theorem setAdapt_regions (d : Die) (a : AdaptDie) : (s.setAdapt d a).regions = s.regions := rfl
@[simp] theorem setAdapt_placed (d : Die) (a : AdaptDie) : (s.setAdapt d a).placed = s.placed := rfl
@[simp] theorem setAdapt_movedAt (d : Die) (a : AdaptDie) : (s.setAdapt d a).movedAt = s.movedAt := rfl
@[simp] theorem setAdapt_cles (d : Die) (a : AdaptDie) : (s.setAdapt d a).cles = s.cles := rfl
@[simp] theorem setAdapt_meas (d : Die) (a : AdaptDie) : (s.setAdapt d a).meas = s.meas := rfl
@[simp] theorem setAdapt_inj (d : Die) (a : AdaptDie) : (s.setAdapt d a).inj = s.inj := rfl
@[simp] theorem setAdapt_balCh (d : Die) (a : AdaptDie) : (s.setAdapt d a).balCh = s.balCh := rfl
@[simp] theorem setAdapt_balCell (d : Die) (a : AdaptDie) : (s.setAdapt d a).balCell = s.balCell := rfl
@[simp] theorem setAdapt_hubMem (d : Die) (a : AdaptDie) : (s.setAdapt d a).hubMem = s.hubMem := rfl
@[simp] theorem setAdapt_hubArm (d : Die) (a : AdaptDie) : (s.setAdapt d a).hubArm = s.hubArm := rfl
@[simp] theorem setAdapt_lanes (d : Die) (a : AdaptDie) : (s.setAdapt d a).lanes = s.lanes := rfl
@[simp] theorem setAdapt_servo (d : Die) (a : AdaptDie) : (s.setAdapt d a).servo = s.servo := rfl
@[simp] theorem setAdapt_ptp (d : Die) (a : AdaptDie) : (s.setAdapt d a).ptp = s.ptp := rfl
@[simp] theorem setAdapt_picot (d : Die) (a : AdaptDie) : (s.setAdapt d a).picot = s.picot := rfl
@[simp] theorem setAdapt_netPair (d : Die) (a : AdaptDie) : (s.setAdapt d a).netPair = s.netPair := rfl
@[simp] theorem setAdapt_eth (d : Die) (a : AdaptDie) : (s.setAdapt d a).eth = s.eth := rfl
@[simp] theorem setAdapt_svSub (d : Die) (a : AdaptDie) : (s.setAdapt d a).svSub = s.svSub := rfl
@[simp] theorem setAdapt_gooseSub (d : Die) (a : AdaptDie) : (s.setAdapt d a).gooseSub = s.gooseSub := rfl
@[simp] theorem setAdapt_maint (d : Die) (a : AdaptDie) : (s.setAdapt d a).maint = s.maint := rfl
@[simp] theorem setAdapt_freeCtr (d : Die) (a : AdaptDie) : (s.setAdapt d a).freeCtr = s.freeCtr := rfl
@[simp] theorem setAdapt_out (d : Die) (a : AdaptDie) : (s.setAdapt d a).out = s.out := rfl
@[simp] theorem setAdapt_pending (d : Die) (a : AdaptDie) : (s.setAdapt d a).pending = s.pending := rfl
@[simp] theorem setAdapt_rd (d : Die) (a : AdaptDie) (e : Die) (fld : Field) : (s.setAdapt d a).rd e fld = s.rd e fld := rfl
@[simp] theorem setAdapt_io (d : Die) (a : AdaptDie) (fld : Field) : (s.setAdapt d a).io fld = s.io fld := rfl

/-! ### State.setSet -/

@[simp] theorem setSet_regs (n : Nat) (x : SetSt) : (s.setSet n x).regs = s.regs := rfl
@[simp] theorem setSet_shadow (n : Nat) (x : SetSt) : (s.setSet n x).shadow = s.shadow := rfl
@[simp] theorem setSet_shadowP (n : Nat) (x : SetSt) : (s.setSet n x).shadowP = s.shadowP := rfl
@[simp] theorem setSet_stagedW (n : Nat) (x : SetSt) : (s.setSet n x).stagedW = s.stagedW := rfl
@[simp] theorem setSet_stagedP (n : Nat) (x : SetSt) : (s.setSet n x).stagedP = s.stagedP := rfl
@[simp] theorem setSet_ram (n : Nat) (x : SetSt) : (s.setSet n x).ram = s.ram := rfl
@[simp] theorem setSet_flash (n : Nat) (x : SetSt) : (s.setSet n x).flash = s.flash := rfl
@[simp] theorem setSet_tb (n : Nat) (x : SetSt) : (s.setSet n x).tb = s.tb := rfl
@[simp] theorem setSet_pins (n : Nat) (x : SetSt) : (s.setSet n x).pins = s.pins := rfl
@[simp] theorem setSet_power (n : Nat) (x : SetSt) : (s.setSet n x).power = s.power := rfl
@[simp] theorem setSet_jtag (n : Nat) (x : SetSt) : (s.setSet n x).jtag = s.jtag := rfl
@[simp] theorem setSet_boot (n : Nat) (x : SetSt) : (s.setSet n x).boot = s.boot := rfl
@[simp] theorem setSet_rewrite (n : Nat) (x : SetSt) : (s.setSet n x).rewrite = s.rewrite := rfl
@[simp] theorem setSet_bobs (n : Nat) (x : SetSt) : (s.setSet n x).bobs = s.bobs := rfl
@[simp] theorem setSet_cores (n : Nat) (x : SetSt) : (s.setSet n x).cores = s.cores := rfl
@[simp] theorem setSet_locks (n : Nat) (x : SetSt) : (s.setSet n x).locks = s.locks := rfl
@[simp] theorem setSet_lockLast (n : Nat) (x : SetSt) : (s.setSet n x).lockLast = s.lockLast := rfl
@[simp] theorem setSet_latched (n : Nat) (x : SetSt) : (s.setSet n x).latched = s.latched := rfl
@[simp] theorem setSet_faultTicks (n : Nat) (x : SetSt) : (s.setSet n x).faultTicks = s.faultTicks := rfl
@[simp] theorem setSet_gnd (n : Nat) (x : SetSt) : (s.setSet n x).gnd = s.gnd := rfl
@[simp] theorem setSet_lfsr (n : Nat) (x : SetSt) : (s.setSet n x).lfsr = s.lfsr := rfl
@[simp] theorem setSet_gndClk (n : Nat) (x : SetSt) : (s.setSet n x).gndClk = s.gndClk := rfl
@[simp] theorem setSet_gndEm (n : Nat) (x : SetSt) : (s.setSet n x).gndEm = s.gndEm := rfl
@[simp] theorem setSet_gen (n : Nat) (x : SetSt) : (s.setSet n x).gen = s.gen := rfl
@[simp] theorem setSet_sync (n : Nat) (x : SetSt) : (s.setSet n x).sync = s.sync := rfl
@[simp] theorem setSet_trip (n : Nat) (x : SetSt) : (s.setSet n x).trip = s.trip := rfl
@[simp] theorem setSet_red (n : Nat) (x : SetSt) : (s.setSet n x).red = s.red := rfl
@[simp] theorem setSet_adapt (n : Nat) (x : SetSt) : (s.setSet n x).adapt = s.adapt := rfl
@[simp] theorem setSet_gooseSt (n : Nat) (x : SetSt) : (s.setSet n x).gooseSt = s.gooseSt := rfl
@[simp] theorem setSet_goosePub (n : Nat) (x : SetSt) : (s.setSet n x).goosePub = s.goosePub := rfl
@[simp] theorem setSet_cleReq (n : Nat) (x : SetSt) : (s.setSet n x).cleReq = s.cleReq := rfl
@[simp] theorem setSet_links (n : Nat) (x : SetSt) : (s.setSet n x).links = s.links := rfl
@[simp] theorem setSet_nol (n : Nat) (x : SetSt) : (s.setSet n x).nol = s.nol := rfl
@[simp] theorem setSet_regions (n : Nat) (x : SetSt) : (s.setSet n x).regions = s.regions := rfl
@[simp] theorem setSet_placed (n : Nat) (x : SetSt) : (s.setSet n x).placed = s.placed := rfl
@[simp] theorem setSet_movedAt (n : Nat) (x : SetSt) : (s.setSet n x).movedAt = s.movedAt := rfl
@[simp] theorem setSet_cles (n : Nat) (x : SetSt) : (s.setSet n x).cles = s.cles := rfl
@[simp] theorem setSet_meas (n : Nat) (x : SetSt) : (s.setSet n x).meas = s.meas := rfl
@[simp] theorem setSet_inj (n : Nat) (x : SetSt) : (s.setSet n x).inj = s.inj := rfl
@[simp] theorem setSet_balCh (n : Nat) (x : SetSt) : (s.setSet n x).balCh = s.balCh := rfl
@[simp] theorem setSet_balCell (n : Nat) (x : SetSt) : (s.setSet n x).balCell = s.balCell := rfl
@[simp] theorem setSet_hubMem (n : Nat) (x : SetSt) : (s.setSet n x).hubMem = s.hubMem := rfl
@[simp] theorem setSet_hubArm (n : Nat) (x : SetSt) : (s.setSet n x).hubArm = s.hubArm := rfl
@[simp] theorem setSet_lanes (n : Nat) (x : SetSt) : (s.setSet n x).lanes = s.lanes := rfl
@[simp] theorem setSet_servo (n : Nat) (x : SetSt) : (s.setSet n x).servo = s.servo := rfl
@[simp] theorem setSet_ptp (n : Nat) (x : SetSt) : (s.setSet n x).ptp = s.ptp := rfl
@[simp] theorem setSet_picot (n : Nat) (x : SetSt) : (s.setSet n x).picot = s.picot := rfl
@[simp] theorem setSet_netPair (n : Nat) (x : SetSt) : (s.setSet n x).netPair = s.netPair := rfl
@[simp] theorem setSet_eth (n : Nat) (x : SetSt) : (s.setSet n x).eth = s.eth := rfl
@[simp] theorem setSet_svSub (n : Nat) (x : SetSt) : (s.setSet n x).svSub = s.svSub := rfl
@[simp] theorem setSet_gooseSub (n : Nat) (x : SetSt) : (s.setSet n x).gooseSub = s.gooseSub := rfl
@[simp] theorem setSet_maint (n : Nat) (x : SetSt) : (s.setSet n x).maint = s.maint := rfl
@[simp] theorem setSet_freeCtr (n : Nat) (x : SetSt) : (s.setSet n x).freeCtr = s.freeCtr := rfl
@[simp] theorem setSet_out (n : Nat) (x : SetSt) : (s.setSet n x).out = s.out := rfl
@[simp] theorem setSet_pending (n : Nat) (x : SetSt) : (s.setSet n x).pending = s.pending := rfl
@[simp] theorem setSet_rd (n : Nat) (x : SetSt) (e : Die) (fld : Field) : (s.setSet n x).rd e fld = s.rd e fld := rfl
@[simp] theorem setSet_io (n : Nat) (x : SetSt) (fld : Field) : (s.setSet n x).io fld = s.io fld := rfl

end Sys2Proof.Laws
end

