-- ==== Sys2Proof/Laws/Tab.lean ====
section
/-! SUPPORT. Laws of sparse tables: read after write, writes elsewhere, and the canonical form. -/

namespace Sys2Proof.Laws
open Sys2Proof.Machine

theorem tabGet_erase_same {α : Type} (d : α) (t : Tab α) (i : Nat) : tabGet d (tabErase t i) i = d := by
  induction t with
  | nil => rfl
  | cons p t ih => obtain ⟨k, v⟩ := p; by_cases h : k = i <;> simp [tabErase, tabGet, h, ih]

theorem tabGet_erase_other {α : Type} (d : α) (t : Tab α) {i j : Nat} (h : j ≠ i) :
    tabGet d (tabErase t i) j = tabGet d t j := by
  induction t with
  | nil => rfl
  | cons p t ih =>
    obtain ⟨k, v⟩ := p
    by_cases hk : k = i
    · subst hk; simp [tabErase, tabGet, ih, Ne.symm h]
    · simp [tabErase, tabGet, hk, ih]

theorem tabGet_insert_same {α : Type} (d : α) (t : Tab α) (i : Nat) (x : α) :
    tabGet d (tabInsert t i x) i = x := by
  induction t with
  | nil => simp [tabInsert, tabGet]
  | cons p t ih =>
    obtain ⟨k, v⟩ := p
    unfold tabInsert
    split
    · simp [tabGet]
    · split
      · simp [tabGet]
      · rename_i h1 h2; simp [tabGet, ih, Ne.symm h2]

theorem tabGet_insert_other {α : Type} (d : α) (t : Tab α) {i j : Nat} (x : α) (h : j ≠ i) :
    tabGet d (tabInsert t i x) j = tabGet d t j := by
  induction t with
  | nil => simp [tabInsert, tabGet, Ne.symm h]
  | cons p t ih =>
    obtain ⟨k, v⟩ := p
    unfold tabInsert
    split
    · simp [tabGet, Ne.symm h]
    · split
      · rename_i h1 h2; subst h2; simp [tabGet, Ne.symm h]
      · simp [tabGet, ih]

/-- A table reads back what was written. -/
@[simp] theorem tabGet_set_same {α : Type} [DecidableEq α] (d : α) (t : Tab α) (i : Nat) (x : α) :
    tabGet d (tabSet d t i x) i = x := by
  unfold tabSet
  split
  · rename_i h; rw [tabGet_erase_same, h]
  · exact tabGet_insert_same d t i x

/-- A write leaves every other key alone. -/
theorem tabGet_set_other {α : Type} [DecidableEq α] (d : α) (t : Tab α) {i j : Nat} (x : α) (h : j ≠ i) :
    tabGet d (tabSet d t i x) j = tabGet d t j := by
  unfold tabSet
  split
  · exact tabGet_erase_other d t h
  · exact tabGet_insert_other d t x h

theorem tabWfFrom_mono {α : Type} [DecidableEq α] (d : α) (t : Tab α) {a b : Option Nat}
    (hab : ∀ x, a = some x → ∃ y, b = some y ∧ x ≤ y) (h : tabWfFrom d b t = true) : tabWfFrom d a t = true := by
  cases t with
  | nil => rfl
  | cons p t =>
    obtain ⟨k, v⟩ := p
    cases a with
    | none => simp only [tabWfFrom, Bool.and_eq_true] at h ⊢; exact ⟨⟨rfl, h.1.2⟩, h.2⟩
    | some x =>
      obtain ⟨y, hb, hxy⟩ := hab x rfl
      subst hb
      simp only [tabWfFrom, Bool.and_eq_true, decide_eq_true_eq] at h ⊢
      exact ⟨⟨by simp only [tabAbove, decide_eq_true_eq] at *; omega, h.1.2⟩, h.2⟩

theorem tabWfFrom_erase {α : Type} [DecidableEq α] (d : α) (t : Tab α) (i : Nat) :
    ∀ lo, tabWfFrom d lo t = true → tabWfFrom d lo (tabErase t i) = true := by
  induction t with
  | nil => intro lo h; exact h
  | cons p t ih =>
    obtain ⟨k, v⟩ := p
    intro lo h
    simp only [tabWfFrom, Bool.and_eq_true] at h
    unfold tabErase
    split
    · apply tabWfFrom_mono d _ _ (ih (some k) h.2)
      intro x hx
      subst hx
      have := h.1.1
      simp only [tabAbove, decide_eq_true_eq] at this
      exact ⟨k, rfl, Nat.le_of_lt this⟩
    · simp only [tabWfFrom, Bool.and_eq_true]
      exact ⟨h.1, ih (some k) h.2⟩

theorem tabWfFrom_insert {α : Type} [DecidableEq α] (d : α) (t : Tab α) (i : Nat) (x : α) (hx : x ≠ d) :
    ∀ lo, (∀ l, lo = some l → l < i) → tabWfFrom d lo t = true → tabWfFrom d lo (tabInsert t i x) = true := by
  induction t with
  | nil =>
    intro lo hlo _
    cases lo with
    | none => simp [tabInsert, tabWfFrom, tabAbove, hx]
    | some l => simp [tabInsert, tabWfFrom, tabAbove, hx, hlo l rfl]
  | cons p t ih =>
    obtain ⟨k, v⟩ := p
    intro lo hlo h
    have hl : tabAbove lo i = true := by
      cases lo with
      | none => rfl
      | some l => simp [tabAbove, hlo l rfl]
    have h' := h
    simp only [tabWfFrom, Bool.and_eq_true] at h
    unfold tabInsert
    split
    · rename_i hik
      simp only [tabWfFrom, Bool.and_eq_true]
      refine ⟨⟨hl, by simp [hx]⟩, ⟨by simp [tabAbove, hik], h.1.2⟩, h.2⟩
    · split
      · rename_i h1 h2
        subst h2
        simp only [tabWfFrom, Bool.and_eq_true]
        exact ⟨⟨hl, by simp [hx]⟩, h.2⟩
      · rename_i h1 h2
        simp only [tabWfFrom, Bool.and_eq_true]
        refine ⟨h.1, ih (some k) ?_ h.2⟩
        intro l hl; cases hl; omega

/-- Every write keeps the canonical form. -/
theorem tabWf_set {α : Type} [DecidableEq α] (d : α) (t : Tab α) (i : Nat) (x : α) (h : tabWf d t = true) :
    tabWf d (tabSet d t i x) = true := by
  unfold tabWf tabSet at *
  split
  · exact tabWfFrom_erase d t i none h
  · rename_i hx; exact tabWfFrom_insert d t i x hx none (by intro l hl; cases hl) h

end Sys2Proof.Laws
end

