-- ==== Sys2Proof/Laws/Regs.lean ====
section
/-! SUPPORT. Laws of register fields: a field reads back what was written, cut to its width, and every other field is as it
was; what the sticky flags and the counters do. -/

namespace Sys2Proof.Laws
open Sys2Proof.Machine

/-- Two writes to different fields do not meet. -/
theorem rd_wr_other (s : State) {d e : Die} {f g : Field} (v : Nat) (h : fieldKey e g ≠ fieldKey d f) :
    (s.wr d f v).rd e g = s.rd e g := by
  unfold State.rd State.wr
  simp only
  rw [tabGet_set_other _ _ _ h]

/-- A field reads back the value written, cut to its width. -/
@[simp] theorem rd_wr_same (s : State) (d : Die) (f : Field) (v : Nat) : (s.wr d f v).rd d f = v % 2 ^ f.width := by
  unfold State.rd State.wr
  simp only [tabGet_set_same, Nat.xor_assoc, Nat.xor_self, Nat.xor_zero, Nat.mod_mod]

/-- A field of the I/O die window is one field, whichever die addresses it. -/
theorem fieldKey_io (d e : Die) (f : Field) (h : f.addr < 0x50000000) : fieldKey d f = fieldKey e f := by
  unfold fieldKey fieldLoc
  have h1 : ¬ 0x70000000 ≤ f.addr := by omega
  have h2 : ¬ 0x50000000 ≤ f.addr := by omega
  simp [h1, h2]

theorem io_wr_other (s : State) {d : Die} {f g : Field} (v : Nat) (h : fieldKey .d0 g ≠ fieldKey d f) :
    (s.wr d f v).io g = s.io g := rd_wr_other s v h

theorem io_setIo_other (s : State) {f g : Field} (v : Nat) (h : fieldKey .d0 g ≠ fieldKey .d0 f) :
    (s.setIo f v).io g = s.io g := rd_wr_other s v h

@[simp] theorem io_setIo_same (s : State) (f : Field) (v : Nat) : (s.setIo f v).io f = v % 2 ^ f.width := rd_wr_same s .d0 f v

/-- The keys of two fields differ where their addresses or their low bits do. -/
theorem fieldKey_ne (d e : Die) {f g : Field} (hf : f.lo < 32) (hg : g.lo < 32)
    (h : f.addr % 2 ^ 32 ≠ g.addr % 2 ^ 32 ∨ f.lo ≠ g.lo) : fieldKey d f ≠ fieldKey e g := by
  unfold fieldKey
  generalize fieldLoc d f.addr = a
  generalize fieldLoc e g.addr = b
  intro hk
  omega

/-- A field of one die is not the same field of the other, in the peripheral space. -/
theorem fieldKey_die_ne (f g : Field) (hf : f.lo < 32) (hg : g.lo < 32) (ha : f.addr < 2 ^ 32) (hb : g.addr < 2 ^ 32)
    (h1 : 0x50000000 ≤ f.addr) (h2 : f.addr < 0x70000000) : fieldKey .d0 f ≠ fieldKey .d1 g := by
  unfold fieldKey fieldLoc
  have : ¬ 0x70000000 ≤ f.addr := by omega
  simp only [this, h1, if_true, if_false, Die.toNat]
  intro hk
  split at hk
  · omega
  · split at hk <;> omega

/-- A field reads within its width, in every state. -/
theorem rd_lt (s : State) (d : Die) (f : Field) : s.rd d f < 2 ^ f.width := Nat.mod_lt _ (Nat.two_pow_pos _)

theorem io_lt (s : State) (f : Field) : s.io f < 2 ^ f.width := rd_lt s .d0 f

/-- A sticky flag set by the hardware reads 1. -/
@[simp] theorem rd_raise_same (s : State) (d : Die) (f : Field) (h : 1 ≤ f.width) : (s.raise d f).rd d f = 1 := by
  unfold State.raise
  rw [rd_wr_same]
  exact Nat.mod_eq_of_lt (Nat.one_lt_two_pow (by omega))

/-- A counter adds what fits (R9). -/
theorem count_below (s : State) (d : Die) (cnt sat : Field) (n : Nat) (h : s.rd d cnt + n ≤ counterMax) :
    s.count d cnt sat n = s.wr d cnt (s.rd d cnt + n) := by
  unfold State.count
  simp [h]

/-- A counter that would pass its maximum holds it and sets its SAT bit (R9). -/
theorem count_above (s : State) (d : Die) (cnt sat : Field) (n : Nat) (h : counterMax < s.rd d cnt + n) :
    s.count d cnt sat n = (s.wr d cnt counterMax).wr d sat 1 := by
  unfold State.count
  simp [Nat.not_le.mpr h]

/-- Counting touches no register but the counter and its SAT bit. -/
theorem rd_count_other (s : State) {d e : Die} {cnt sat g : Field} (n : Nat) (h1 : fieldKey e g ≠ fieldKey d cnt)
    (h2 : fieldKey e g ≠ fieldKey d sat) : (s.count d cnt sat n).rd e g = s.rd e g := by
  unfold State.count
  split
  · exact rd_wr_other s _ h1
  · rw [rd_wr_other _ _ h2, rd_wr_other _ _ h1]

/-- Clearing a SAT bit touches no register but the counter and its SAT bit (R10). -/
theorem rd_satClear_other (s : State) {d e : Die} {cnt sat g : Field} (n : Nat) (h1 : fieldKey e g ≠ fieldKey d cnt)
    (h2 : fieldKey e g ≠ fieldKey d sat) : (s.satClear d cnt sat n).rd e g = s.rd e g := by
  unfold State.satClear
  rw [rd_count_other _ _ h1 h2, rd_wr_other _ _ h1, rd_wr_other _ _ h2]

/-- Register writes keep the canonical form of the register table. -/
theorem wr_wf (s : State) (d : Die) (f : Field) (v : Nat) (h : tabWf 0 s.regs = true) : tabWf 0 (s.wr d f v).regs = true :=
  tabWf_set 0 s.regs _ _ h

end Sys2Proof.Laws
end

