-- ==== Sys2Proof/Laws/Memory.lean ====
section
/-! SUPPORT. Laws of the memories: a byte written reads back, every other byte is as it was, and every memory operation
keeps the canonical form. -/

namespace Sys2Proof.Laws
open Sys2Proof.Machine

/-! ### One byte -/

@[simp] theorem ram8_setRam8_same (s : State) (loc a : Nat) (b : Byte) : (s.setRam8 loc a b).ram8 loc a = b := by
  simp [State.ram8, State.setRam8]

theorem ram8_setRam8_other (s : State) {loc a loc' a' : Nat} (b : Byte) (h : ramKey loc' a' ≠ ramKey loc a) :
    (s.setRam8 loc a b).ram8 loc' a' = s.ram8 loc' a' := by
  simp only [State.ram8, State.setRam8]
  rw [tabGet_set_other _ _ _ h]

/-! ### Runs of bytes -/

/-- Writing a run of bytes touches the memory and the notes of couching, nothing else. -/
theorem setRamBytes_only (bs : List Byte) : ∀ (s : State) (loc a : Nat),
    s.setRamBytes loc a bs = { s with ram := (s.setRamBytes loc a bs).ram, red := (s.setRamBytes loc a bs).red } := by
  induction bs with
  | nil => intro s loc a; rfl
  | cons b bs ih => intro s loc a; exact (ih (s.setRam8 loc a b) loc (a + 1)).trans rfl

/-- A byte outside the run is as it was. -/
theorem ram8_setRamBytes_other (bs : List Byte) : ∀ (s : State) (loc a loc' a' : Nat),
    (∀ i, i < bs.length → ramKey loc' a' ≠ ramKey loc (a + i)) → (s.setRamBytes loc a bs).ram8 loc' a' = s.ram8 loc' a' := by
  induction bs with
  | nil => intro s loc a loc' a' _; rfl
  | cons b bs ih =>
    intro s loc a loc' a' h
    unfold State.setRamBytes
    rw [ih]
    · exact ram8_setRam8_other s b (h 0 (by simp))
    · intro i hi
      have := h (i + 1) (by simp; omega)
      rwa [show a + 1 + i = a + (i + 1) by omega]

/-- A byte of the run reads as written. -/
theorem ram8_setRamBytes_in (bs : List Byte) : ∀ (s : State) (loc a i : Nat) (h : i < bs.length),
    (s.setRamBytes loc a bs).ram8 loc (a + i) = bs[i] := by
  induction bs with
  | nil => intro s loc a i h; exact absurd h (by simp)
  | cons b bs ih =>
    intro s loc a i h
    unfold State.setRamBytes
    cases i with
    | zero =>
      rw [ram8_setRamBytes_other]
      · simp
      · intro i _; unfold ramKey; omega
    | succ i =>
      have h' : i < bs.length := by simpa using h
      have := ih (s.setRam8 loc a b) loc (a + 1) i h'
      rw [show a + 1 + i = a + (i + 1) by omega] at this
      simpa using this

/-! ### The canonical form -/

/-- The canonical form of the RAM, and of the flash. -/
theorem memory_wf_iff (s : State) : Memory.wf s = true ↔ tabWf ramDefault s.ram = true ∧ tabWf flashDefault s.flash = true := by
  simp [Memory.wf]

/-- An operation that leaves both memories alone keeps the form. -/
theorem memory_wf_same {s t : State} (hr : t.ram = s.ram) (hf : t.flash = s.flash) (h : Memory.wf s = true) :
    Memory.wf t = true := by
  unfold Memory.wf
  rw [hr, hf]
  exact h

theorem setRam8_memory_wf (s : State) (loc a : Nat) (b : Byte) (h : Memory.wf s = true) :
    Memory.wf (s.setRam8 loc a b) = true := by
  rw [memory_wf_iff] at h ⊢
  exact ⟨tabWf_set _ _ _ _ h.1, h.2⟩

theorem setRamBytes_memory_wf (bs : List Byte) : ∀ (s : State) (loc a : Nat), Memory.wf s = true →
    Memory.wf (s.setRamBytes loc a bs) = true := by
  induction bs with
  | nil => intro s loc a h; exact h
  | cons b bs ih => intro s loc a h; exact ih _ _ _ (setRam8_memory_wf s loc a b h)

theorem setRam32_memory_wf (s : State) (loc a v : Nat) (h : Memory.wf s = true) : Memory.wf (s.setRam32 loc a v) = true :=
  setRamBytes_memory_wf _ s loc a h

theorem setFlashBytes_memory_wf (bs : List Byte) : ∀ (s : State) (off : Nat), Memory.wf s = true →
    Memory.wf (s.setFlashBytes off bs) = true := by
  induction bs with
  | nil => intro s off h; exact h
  | cons b bs ih =>
    intro s off h
    refine ih _ _ ?_
    rw [memory_wf_iff] at h ⊢
    exact ⟨h.1, tabWf_set _ _ _ _ h.2⟩

/-- A canonical table stays one when entries are taken out. -/
theorem tabWfFrom_filter {α : Type} [DecidableEq α] (d : α) (p : Nat × α → Bool) (t : Tab α) :
    ∀ lo, tabWfFrom d lo t = true → tabWfFrom d lo (t.filter p) = true := by
  induction t with
  | nil => intro lo h; exact h
  | cons q t ih =>
    obtain ⟨k, v⟩ := q
    intro lo h
    simp only [tabWfFrom, Bool.and_eq_true] at h
    rw [List.filter_cons]
    split
    · simp only [tabWfFrom, Bool.and_eq_true]
      exact ⟨h.1, ih (some k) h.2⟩
    · refine ih lo (tabWfFrom_mono d t ?_ h.2)
      intro x hx
      subst hx
      have := h.1.1
      simp only [tabAbove, decide_eq_true_eq] at this
      exact ⟨k, rfl, Nat.le_of_lt this⟩

theorem tabWf_filter {α : Type} [DecidableEq α] (d : α) (p : Nat × α → Bool) (t : Tab α) (h : tabWf d t = true) :
    tabWf d (t.filter p) = true := tabWfFrom_filter d p t none h

/-- The canonical form in other words: keys rise strictly, and no entry is the default. -/
theorem tabWfFrom_iff {α : Type} [DecidableEq α] (d : α) (t : Tab α) : ∀ lo, tabWfFrom d lo t = true ↔
    (∀ l, lo = some l → ∀ p ∈ t, l < p.1) ∧ t.Pairwise (fun p q => p.1 < q.1) ∧ ∀ p ∈ t, p.2 ≠ d := by
  induction t with
  | nil => intro lo; simp [tabWfFrom]
  | cons q t ih =>
    obtain ⟨k, v⟩ := q
    intro lo
    simp only [tabWfFrom, Bool.and_eq_true, decide_eq_true_eq, ih (some k), List.pairwise_cons, List.mem_cons,
      forall_eq_or_imp, Option.some.injEq, forall_eq']
    constructor
    · rintro ⟨⟨h1, h2⟩, h3, h4, h5⟩
      refine ⟨?_, ⟨h3, h4⟩, h2, h5⟩
      intro l hl
      subst hl
      simp only [tabAbove, decide_eq_true_eq] at h1
      exact ⟨h1, fun p hp => Nat.lt_trans h1 (h3 p hp)⟩
    · rintro ⟨h1, ⟨h3, h4⟩, h2, h5⟩
      refine ⟨⟨?_, h2⟩, h3, h4, h5⟩
      cases lo with
      | none => rfl
      | some l => simpa [tabAbove] using (h1 l rfl).1

theorem tabWf_iff {α : Type} [DecidableEq α] (d : α) (t : Tab α) : tabWf d t = true ↔
    t.Pairwise (fun p q => p.1 < q.1) ∧ ∀ p ∈ t, p.2 ≠ d := by
  unfold tabWf
  rw [tabWfFrom_iff]
  simp

/-- A range taken over from another table keeps the form. -/
theorem takeRange_wf {α : Type} [DecidableEq α] (d : α) (lo len src : Nat) (t u : Tab α) (ht : tabWf d t = true)
    (hu : tabWf d u = true) : tabWf d (takeRange lo len src t u) = true := by
  rw [tabWf_iff] at *
  unfold takeRange
  constructor
  · simp only [List.pairwise_append, List.pairwise_map, List.mem_append, List.mem_map, List.mem_filter, Bool.and_eq_true,
      decide_eq_true_eq]
    refine ⟨⟨ht.1.filter _, ?_, ?_⟩, ht.1.filter _, ?_⟩
    · refine (List.Pairwise.and_mem.mp (hu.1.filter _)).imp ?_
      intro p q h
      simp only [List.mem_filter, Bool.and_eq_true, decide_eq_true_eq] at h
      omega
    · rintro p hp q ⟨r, hr, rfl⟩
      omega
    · rintro p (hp | ⟨r, hr, rfl⟩) q hq <;> omega
  · intro p hp
    simp only [List.mem_append, List.mem_map, List.mem_filter] at hp
    obtain (hp | ⟨r, hr, rfl⟩) | hp := hp
    · exact ht.2 p hp.1
    · exact hu.2 r hr.1
    · exact ht.2 p hp.1

/-- A die's keys taken over from another table keep the form. -/
theorem takeDie_wf {α : Type} [DecidableEq α] (d : α) (n : Nat) (e : Die) (t u : Tab α) (ht : tabWf d t = true)
    (hu : tabWf d u = true) : tabWf d (takeDie n e t u) = true := by
  rw [tabWf_iff] at *
  unfold takeDie
  have hn : n * e.toNat ≤ n * (e.toNat + 1) := Nat.mul_le_mul_left _ (by omega)
  constructor
  · simp only [List.pairwise_append, List.mem_append, List.mem_filter, Bool.and_eq_true, decide_eq_true_eq]
    refine ⟨⟨ht.1.filter _, hu.1.filter _, ?_⟩, ht.1.filter _, ?_⟩
    · intro p hp q hq; omega
    · rintro p (hp | hp) q hq <;> omega
  · intro p hp
    simp only [List.mem_append, List.mem_filter] at hp
    obtain (hp | hp) | hp := hp
    · exact ht.2 p hp.1
    · exact hu.2 p hp.1
    · exact ht.2 p hp.1

theorem eraseFlash_memory_wf (s : State) (off n : Nat) (h : Memory.wf s = true) : Memory.wf (s.eraseFlash off n) = true := by
  rw [memory_wf_iff] at h ⊢
  exact ⟨h.1, tabWf_filter _ _ _ h.2⟩

/-- Erased flash reads FF, and flash outside the erased range is as it was. -/
theorem flash8_setFlash_other (s : State) {off off' : Nat} (b : Byte) (h : off' ≠ off) :
    State.flash8 { s with flash := tabSet flashDefault s.flash off b } off' = s.flash8 off' := by
  simp only [State.flash8]
  rw [tabGet_set_other _ _ _ h]

theorem flash8_setFlashBytes_other (bs : List Byte) : ∀ (s : State) (off off' : Nat),
    (off' < off ∨ off + bs.length ≤ off') → (s.setFlashBytes off bs).flash8 off' = s.flash8 off' := by
  induction bs with
  | nil => intro s off off' _; rfl
  | cons b bs ih =>
    intro s off off' h
    simp only [List.length_cons] at h
    unfold State.setFlashBytes
    rw [ih _ _ _ (by omega)]
    exact flash8_setFlash_other s b (by omega)

/-- The memory after reset lists nothing. -/
theorem reset_memory_wf : Memory.wf State.reset = true := rfl

end Sys2Proof.Laws
end

