-- ==== Sys2Proof/Laws/Ops.lean ====
section
/-! SUPPORT. What the shared operations can do, each said once: an operation is equal to its argument with the named fields
replaced, so that every other field is as it was. -/

namespace Sys2Proof.Laws
open Sys2Proof.Machine

/-! ### Bobbin and events (R138, R140, R148) -/

/-- A fold of operations on cores touches cores alone. -/
theorem foldl_cores_only {α : Type} (g : State → α → State) (hg : ∀ s a, g s a = { s with cores := (g s a).cores }) (l : List α) :
    ∀ s : State, l.foldl g s = { s with cores := (l.foldl g s).cores } := by
  induction l with
  | nil => intro s; rfl
  | cons a l ih =>
    intro s
    simp only [List.foldl_cons]
    rw [ih (g s a), hg s a]

/-- What a cancel's status touches: Bobbin's list of cancels and the cores' rd (R133, R142). -/
theorem noteCancel_only (s : State) (d : Die) (c dsc st : Nat) : s.noteCancel d c dsc st =
    { s with bobs := (s.noteCancel d c dsc st).bobs, cores := (s.noteCancel d c dsc st).cores } := by
  unfold State.noteCancel
  simp only
  split
  · rfl
  · rw [foldl_cores_only]
    · rfl
    · intro s a
      split <;> rfl

/-- What an entry into the ready list touches. -/
theorem enter_only (s : State) (d : Die) (c : Nat) (t : Task) :
    s.enter d c t = { s with bobs := (s.enter d c t).bobs, cores := (s.enter d c t).cores } := by
  unfold State.enter
  simp only
  split
  · exact noteCancel_only _ _ _ _ _
  · rfl

/-- What admitting the head of the held-poster queue touches. -/
theorem admit_only (s : State) (d : Die) (c : Nat) : s.admitHeld d c =
    { s with bobs := (s.admitHeld d c).bobs, latched := (s.admitHeld d c).latched, cores := (s.admitHeld d c).cores } := by
  unfold State.admitHeld
  simp only
  split
  · split
    · rfl
    · rw [enter_only]
      rfl
  · rfl

theorem dispatchOne_only (s t : State) (d : Die) (c : Nat) (h : s.dispatchOne d c = some t) :
    t = { s with bobs := t.bobs, latched := t.latched, cores := t.cores } := by
  unfold State.dispatchOne at h
  split at h
  · cases h
  · simp only [Option.some.injEq] at h
    rw [admit_only, noteCancel_only] at h
    subst h
    rfl

/-- What a dispatch touches: lists, latches and cores (R138). -/
theorem dispatch_only (n : Nat) : ∀ (s : State) (d : Die) (c : Nat), s.dispatch d c n =
    { s with bobs := (s.dispatch d c n).bobs, latched := (s.dispatch d c n).latched, cores := (s.dispatch d c n).cores } := by
  induction n with
  | zero => intro s d c; rfl
  | succ n ih =>
    intro s d c
    unfold State.dispatch
    split
    · rfl
    · rename_i t h
      have h1 := dispatchOne_only s t d c h
      have h2 := ih t d c
      rw [h2]
      rw [h1]

theorem postReady_only (s : State) (d : Die) (c : Nat) (t : Task) : s.postReady d c t =
    { s with bobs := (s.postReady d c t).bobs, latched := (s.postReady d c t).latched,
             cores := (s.postReady d c t).cores } := by
  unfold State.postReady
  rw [dispatch_only 3, enter_only]

theorem giveWay_only (s : State) (d : Die) (c : Nat) (u : Task) : s.giveWay d c u =
    { s with bobs := (s.giveWay d c u).bobs, latched := (s.giveWay d c u).latched, cores := (s.giveWay d c u).cores } := by
  unfold State.giveWay
  split
  · rfl
  · split
    · rfl
    · rfl
    · split <;> rfl

/-- What an entry that finds the ready list full touches. -/
theorem takePlace_only (s t : State) (d : Die) (c : Nat) (u : Task) (h : s.takePlace d c u = some t) :
    t = { s with bobs := t.bobs, latched := t.latched, cores := t.cores } := by
  unfold State.takePlace at h
  simp only at h
  split at h
  · cases h
    rw [noteCancel_only]
  · split at h
    · obtain ⟨p, -, hp⟩ := Option.map_eq_some_iff.mp h
      rw [dispatch_only, giveWay_only] at hp
      subst hp
      rfl
    · cases h

/-- What an event that finds the list full touches: it takes a place, or is held. -/
theorem takeOrHold_only (s : State) (d : Die) (c e dsc : Nat) (u : Task) : (s.takePlace d c u).getD (s.holdEvent d c e dsc) =
    { s with bobs := ((s.takePlace d c u).getD (s.holdEvent d c e dsc)).bobs
             latched := ((s.takePlace d c u).getD (s.holdEvent d c e dsc)).latched
             cores := ((s.takePlace d c u).getD (s.holdEvent d c e dsc)).cores } := by
  cases h : s.takePlace d c u with
  | none => rfl
  | some t => exact takePlace_only s t d c u h

theorem postEventDie_only (s : State) (d : Die) (e : Nat) : s.postEventDie d e =
    { s with bobs := (s.postEventDie d e).bobs, latched := (s.postEventDie d e).latched,
             cores := (s.postEventDie d e).cores, out := (s.postEventDie d e).out } := by
  unfold State.postEventDie
  simp only
  split
  · rfl
  · split
    · rfl
    · split
      · rfl
      · split
        · rfl
        · split
          · rw [takeOrHold_only]
            rfl
          · rw [postReady_only]
            rfl

/-- Posting an event touches Bobbin's lists, the pending latches, the cores that take a task and the record of what the
block sent. -/
theorem post_only (s : State) (e : Nat) : s.post e =
    { s with bobs := (s.post e).bobs, latched := (s.post e).latched, cores := (s.post e).cores, out := (s.post e).out } := by
  unfold State.post
  rw [postEventDie_only (s.postEventDie .d0 e)]
  rw [postEventDie_only s]

@[simp] theorem post_regs (s : State) (e : Nat) : (s.post e).regs = s.regs := (congrArg State.regs (post_only s e)).trans rfl
@[simp] theorem post_rd (s : State) (e : Nat) (d : Die) (f : Field) : (s.post e).rd d f = s.rd d f := by
  simp [State.rd]
@[simp] theorem post_io (s : State) (e : Nat) (f : Field) : (s.post e).io f = s.io f := post_rd s e .d0 f
@[simp] theorem post_ram (s : State) (e : Nat) : (s.post e).ram = s.ram := (congrArg State.ram (post_only s e)).trans rfl
@[simp] theorem post_flash (s : State) (e : Nat) : (s.post e).flash = s.flash := (congrArg State.flash (post_only s e)).trans rfl
@[simp] theorem post_tb (s : State) (e : Nat) : (s.post e).tb = s.tb := (congrArg State.tb (post_only s e)).trans rfl
@[simp] theorem post_pins (s : State) (e : Nat) : (s.post e).pins = s.pins := (congrArg State.pins (post_only s e)).trans rfl
@[simp] theorem post_trip (s : State) (e : Nat) : (s.post e).trip = s.trip := (congrArg State.trip (post_only s e)).trans rfl
@[simp] theorem post_red (s : State) (e : Nat) : (s.post e).red = s.red := (congrArg State.red (post_only s e)).trans rfl
@[simp] theorem post_pending (s : State) (e : Nat) : (s.post e).pending = s.pending := (congrArg State.pending (post_only s e)).trans rfl

/-- An event reaches a die that is not lost: the record of what the block sent names it (R148). -/
theorem postEventDie_out (s : State) (d : Die) (e : Nat) (h : s.lost d = false) :
    (s.postEventDie d e).out = .event d e :: s.out := by
  unfold State.postEventDie
  simp only [h]
  split
  · contradiction
  · split
    · rfl
    · split
      · rfl
      · split
        · rfl
        · split
          · exact (congrArg State.out (takeOrHold_only _ d _ _ _ _)).trans rfl
          · exact (congrArg State.out (postReady_only _ d _ _)).trans rfl

/-! ### Event records (R479, R480) -/

theorem placeRecord_only (s : State) (r : LogRec) :
    s.placeRecord r = { s with ram := (s.placeRecord r).ram, red := (s.placeRecord r).red } := by
  unfold State.placeRecord
  split
  · rfl
  · exact setRamBytes_only _ _ _ _

/-- What queueing an event record touches: the queue, its place in SRAM, and LOG_LOST. -/
theorem logEvent_only (s : State) (type die cause item word : Nat) : s.logEvent type die cause item word =
    { s with ram := (s.logEvent type die cause item word).ram, red := (s.logEvent type die cause item word).red,
             regs := (s.logEvent type die cause item word).regs } := by
  unfold State.logEvent
  simp only
  split
  · rw [placeRecord_only]
  · split
    · rw [placeRecord_only]
    · unfold State.count
      split <;> rfl

@[simp] theorem logEvent_flash (s : State) (a b c d e : Nat) : (s.logEvent a b c d e).flash = s.flash :=
  (congrArg State.flash (logEvent_only s a b c d e)).trans rfl
@[simp] theorem logEvent_tb (s : State) (a b c d e : Nat) : (s.logEvent a b c d e).tb = s.tb :=
  (congrArg State.tb (logEvent_only s a b c d e)).trans rfl
@[simp] theorem logEvent_pins (s : State) (a b c d e : Nat) : (s.logEvent a b c d e).pins = s.pins :=
  (congrArg State.pins (logEvent_only s a b c d e)).trans rfl
@[simp] theorem logEvent_trip (s : State) (a b c d e : Nat) : (s.logEvent a b c d e).trip = s.trip :=
  (congrArg State.trip (logEvent_only s a b c d e)).trans rfl
@[simp] theorem logEvent_pending (s : State) (a b c d e : Nat) : (s.logEvent a b c d e).pending = s.pending :=
  (congrArg State.pending (logEvent_only s a b c d e)).trans rfl

theorem placeRecord_memory_wf (s : State) (r : LogRec) (h : Memory.wf s = true) : Memory.wf (s.placeRecord r) = true := by
  unfold State.placeRecord
  split
  · exact h
  · exact setRamBytes_memory_wf _ _ _ _ h

theorem logEvent_memory_wf (s : State) (a b c d e : Nat) (h : Memory.wf s = true) :
    Memory.wf (s.logEvent a b c d e) = true := by
  unfold State.logEvent
  simp only
  split
  · exact placeRecord_memory_wf _ _ h
  · split
    · exact placeRecord_memory_wf _ _ h
    · unfold State.count
      split <;> exact h

/-! ### The timebase (R61) -/

/-- What the passing of ticks touches. -/
theorem runTo_only (s : State) (t : Nat) : s.runTo t = { s with tb := (s.runTo t).tb } := by
  unfold State.runTo
  split <;> rfl

@[simp] theorem runTo_regs (s : State) (t : Nat) : (s.runTo t).regs = s.regs := (congrArg State.regs (runTo_only s t)).trans rfl
@[simp] theorem runTo_rd (s : State) (t : Nat) (d : Die) (f : Field) : (s.runTo t).rd d f = s.rd d f := by simp [State.rd]
@[simp] theorem runTo_io (s : State) (t : Nat) (f : Field) : (s.runTo t).io f = s.io f := runTo_rd s t .d0 f
@[simp] theorem runTo_ram (s : State) (t : Nat) : (s.runTo t).ram = s.ram := (congrArg State.ram (runTo_only s t)).trans rfl
@[simp] theorem runTo_flash (s : State) (t : Nat) : (s.runTo t).flash = s.flash := (congrArg State.flash (runTo_only s t)).trans rfl
@[simp] theorem runTo_pins (s : State) (t : Nat) : (s.runTo t).pins = s.pins := (congrArg State.pins (runTo_only s t)).trans rfl
@[simp] theorem runTo_gen (s : State) (t : Nat) : (s.runTo t).gen = s.gen := (congrArg State.gen (runTo_only s t)).trans rfl
@[simp] theorem runTo_pending (s : State) (t : Nat) : (s.runTo t).pending = s.pending :=
  (congrArg State.pending (runTo_only s t)).trans rfl

theorem runTo_ticks (s : State) (t : Nat) : (s.runTo t).tb.ticks = max s.tb.ticks t := by
  unfold State.runTo
  split
  · omega
  · simp only; omega

end Sys2Proof.Laws
end

