-- ==== Sys2Proof/Laws/Frame.lean ====
section
/-! SUPPORT. Frames: they compose, widen and pass through folds, and each named update stays within its own field. The lemmas
chain backwards: a frame of the state before an operation gives one of the state after it. -/

namespace Sys2Proof.Machine

theorem Frame.refl (m : List Fld) (s : State) : Frame m s s := by
  intro f _; cases f <;> rfl

theorem Frame.trans {m : List Fld} {s t u : State} (h1 : Frame m s t) (h2 : Frame m t u) : Frame m s u := by
  intro f hf
  have a := h1 f hf
  have b := h2 f hf
  cases f <;> exact Eq.trans b a

theorem Frame.mono {m n : List Fld} {s t : State} (h : Frame m s t) (hmn : ∀ f ∈ m, f ∈ n) : Frame n s t :=
  fun f hf => h f (fun hm => hf (hmn f hm))

theorem Frame.foldl {α : Type} {m : List Fld} {g : State → α → State} (hg : ∀ s a, Frame m s (g s a)) (l : List α) :
    ∀ {s t : State}, Frame m s t → Frame m s (l.foldl g t) := by
  induction l with
  | nil => intro s t h; exact h
  | cons a l ih => intro s t h; exact ih (h.trans (hg t a))

theorem Frame.ite {m : List Fld} {s a b : State} {c : Prop} [Decidable c] (ha : Frame m s a) (hb : Frame m s b) :
    Frame m s (if c then a else b) := by
  split
  · exact ha
  · exact hb

/-- A state given by its fields. -/
theorem Frame.of_eq {m : List Fld} {s t u : State} (h : Frame m s t) (e : t = u) : Frame m s u := e ▸ h

/-! ### One field replaced -/

theorem Frame.with_regs {m : List Fld} {s t : State} (x : Tab Nat) (h : Frame m s t) (hm : .regs ∈ m) :
    Frame m s { t with regs := x } := by
  intro f hf
  have h := h f hf
  cases f <;> first | exact h | exact absurd hm hf

theorem Frame.with_shadow {m : List Fld} {s t : State} (x : Tab Nat) (h : Frame m s t) (hm : .shadow ∈ m) :
    Frame m s { t with shadow := x } := by
  intro f hf
  have h := h f hf
  cases f <;> first | exact h | exact absurd hm hf

theorem Frame.with_shadowP {m : List Fld} {s t : State} (x : Tab Nat) (h : Frame m s t) (hm : .shadowP ∈ m) :
    Frame m s { t with shadowP := x } := by
  intro f hf
  have h := h f hf
  cases f <;> first | exact h | exact absurd hm hf

theorem Frame.with_stagedW {m : List Fld} {s t : State} (x : Tab Nat) (h : Frame m s t) (hm : .stagedW ∈ m) :
    Frame m s { t with stagedW := x } := by
  intro f hf
  have h := h f hf
  cases f <;> first | exact h | exact absurd hm hf

theorem Frame.with_stagedP {m : List Fld} {s t : State} (x : Tab Nat) (h : Frame m s t) (hm : .stagedP ∈ m) :
    Frame m s { t with stagedP := x } := by
  intro f hf
  have h := h f hf
  cases f <;> first | exact h | exact absurd hm hf

theorem Frame.with_sets {m : List Fld} {s t : State} (x : Tab SetSt) (h : Frame m s t) (hm : .sets ∈ m) :
    Frame m s { t with sets := x } := by
  intro f hf
  have h := h f hf
  cases f <;> first | exact h | exact absurd hm hf

theorem Frame.with_ram {m : List Fld} {s t : State} (x : List Host.Cell) (h : Frame m s t) (hm : .ram ∈ m) :
    Frame m s { t with ram := x } := by
  intro f hf
  have h := h f hf
  cases f <;> first | exact h | exact absurd hm hf

theorem Frame.with_flash {m : List Fld} {s t : State} (x : List Host.Cell) (h : Frame m s t) (hm : .flash ∈ m) :
    Frame m s { t with flash := x } := by
  intro f hf
  have h := h f hf
  cases f <;> first | exact h | exact absurd hm hf

theorem Frame.with_tb {m : List Fld} {s t : State} (x : Timebase) (h : Frame m s t) (hm : .tb ∈ m) :
    Frame m s { t with tb := x } := by
  intro f hf
  have h := h f hf
  cases f <;> first | exact h | exact absurd hm hf

theorem Frame.with_pins {m : List Fld} {s t : State} (x : Pins) (h : Frame m s t) (hm : .pins ∈ m) :
    Frame m s { t with pins := x } := by
  intro f hf
  have h := h f hf
  cases f <;> first | exact h | exact absurd hm hf

theorem Frame.with_power {m : List Fld} {s t : State} (x : Power) (h : Frame m s t) (hm : .power ∈ m) :
    Frame m s { t with power := x } := by
  intro f hf
  have h := h f hf
  cases f <;> first | exact h | exact absurd hm hf

theorem Frame.with_jtag {m : List Fld} {s t : State} (x : Jtag) (h : Frame m s t) (hm : .jtag ∈ m) :
    Frame m s { t with jtag := x } := by
  intro f hf
  have h := h f hf
  cases f <;> first | exact h | exact absurd hm hf

theorem Frame.with_boot {m : List Fld} {s t : State} (x : Boot) (h : Frame m s t) (hm : .boot ∈ m) :
    Frame m s { t with boot := x } := by
  intro f hf
  have h := h f hf
  cases f <;> first | exact h | exact absurd hm hf

theorem Frame.with_rewrite {m : List Fld} {s t : State} (x : Option Rewrite) (h : Frame m s t) (hm : .rewrite ∈ m) :
    Frame m s { t with rewrite := x } := by
  intro f hf
  have h := h f hf
  cases f <;> first | exact h | exact absurd hm hf

theorem Frame.with_bobs {m : List Fld} {s t : State} (x : Tab Bobbin) (h : Frame m s t) (hm : .bobs ∈ m) :
    Frame m s { t with bobs := x } := by
  intro f hf
  have h := h f hf
  cases f <;> first | exact h | exact absurd hm hf

theorem Frame.with_cores {m : List Fld} {s t : State} (x : Tab CoreSt) (h : Frame m s t) (hm : .cores ∈ m) :
    Frame m s { t with cores := x } := by
  intro f hf
  have h := h f hf
  cases f <;> first | exact h | exact absurd hm hf

theorem Frame.with_locks {m : List Fld} {s t : State} (x : Tab LockSt) (h : Frame m s t) (hm : .locks ∈ m) :
    Frame m s { t with locks := x } := by
  intro f hf
  have h := h f hf
  cases f <;> first | exact h | exact absurd hm hf

theorem Frame.with_lockLast {m : List Fld} {s t : State} (x : Tab LockWas) (h : Frame m s t) (hm : .lockLast ∈ m) :
    Frame m s { t with lockLast := x } := by
  intro f hf
  have h := h f hf
  cases f <;> first | exact h | exact absurd hm hf

theorem Frame.with_latched {m : List Fld} {s t : State} (x : List Nat) (h : Frame m s t) (hm : .latched ∈ m) :
    Frame m s { t with latched := x } := by
  intro f hf
  have h := h f hf
  cases f <;> first | exact h | exact absurd hm hf

theorem Frame.with_faultTicks {m : List Fld} {s t : State} (x : Tab (List Nat)) (h : Frame m s t) (hm : .faultTicks ∈ m) :
    Frame m s { t with faultTicks := x } := by
  intro f hf
  have h := h f hf
  cases f <;> first | exact h | exact absurd hm hf

theorem Frame.with_gnd {m : List Fld} {s t : State} (x : Tab GndTarget) (h : Frame m s t) (hm : .gnd ∈ m) :
    Frame m s { t with gnd := x } := by
  intro f hf
  have h := h f hf
  cases f <;> first | exact h | exact absurd hm hf

theorem Frame.with_lfsr {m : List Fld} {s t : State} (x : Tab Nat) (h : Frame m s t) (hm : .lfsr ∈ m) :
    Frame m s { t with lfsr := x } := by
  intro f hf
  have h := h f hf
  cases f <;> first | exact h | exact absurd hm hf

theorem Frame.with_gndClk {m : List Fld} {s t : State} (x : Tab Nat) (h : Frame m s t) (hm : .gndClk ∈ m) :
    Frame m s { t with gndClk := x } := by
  intro f hf
  have h := h f hf
  cases f <;> first | exact h | exact absurd hm hf

theorem Frame.with_gndEm {m : List Fld} {s t : State} (x : Tab Nat) (h : Frame m s t) (hm : .gndEm ∈ m) :
    Frame m s { t with gndEm := x } := by
  intro f hf
  have h := h f hf
  cases f <;> first | exact h | exact absurd hm hf

theorem Frame.with_gen {m : List Fld} {s t : State} (x : Tab GenCh) (h : Frame m s t) (hm : .gen ∈ m) :
    Frame m s { t with gen := x } := by
  intro f hf
  have h := h f hf
  cases f <;> first | exact h | exact absurd hm hf

theorem Frame.with_sync {m : List Fld} {s t : State} (x : SyncSt) (h : Frame m s t) (hm : .sync ∈ m) :
    Frame m s { t with sync := x } := by
  intro f hf
  have h := h f hf
  cases f <;> first | exact h | exact absurd hm hf

theorem Frame.with_trip {m : List Fld} {s t : State} (x : TripSt) (h : Frame m s t) (hm : .trip ∈ m) :
    Frame m s { t with trip := x } := by
  intro f hf
  have h := h f hf
  cases f <;> first | exact h | exact absurd hm hf

theorem Frame.with_red {m : List Fld} {s t : State} (x : RedSt) (h : Frame m s t) (hm : .red ∈ m) :
    Frame m s { t with red := x } := by
  intro f hf
  have h := h f hf
  cases f <;> first | exact h | exact absurd hm hf

theorem Frame.with_adapt {m : List Fld} {s t : State} (x : Tab AdaptDie) (h : Frame m s t) (hm : .adapt ∈ m) :
    Frame m s { t with adapt := x } := by
  intro f hf
  have h := h f hf
  cases f <;> first | exact h | exact absurd hm hf

theorem Frame.with_gooseSt {m : List Fld} {s t : State} (x : Tab GooseSt) (h : Frame m s t) (hm : .gooseSt ∈ m) :
    Frame m s { t with gooseSt := x } := by
  intro f hf
  have h := h f hf
  cases f <;> first | exact h | exact absurd hm hf

theorem Frame.with_goosePub {m : List Fld} {s t : State} (x : Tab Nat) (h : Frame m s t) (hm : .goosePub ∈ m) :
    Frame m s { t with goosePub := x } := by
  intro f hf
  have h := h f hf
  cases f <;> first | exact h | exact absurd hm hf

theorem Frame.with_cleReq {m : List Fld} {s t : State} (x : Tab Nat) (h : Frame m s t) (hm : .cleReq ∈ m) :
    Frame m s { t with cleReq := x } := by
  intro f hf
  have h := h f hf
  cases f <;> first | exact h | exact absurd hm hf

theorem Frame.with_links {m : List Fld} {s t : State} (x : Tab NolLink) (h : Frame m s t) (hm : .links ∈ m) :
    Frame m s { t with links := x } := by
  intro f hf
  have h := h f hf
  cases f <;> first | exact h | exact absurd hm hf

theorem Frame.with_nol {m : List Fld} {s t : State} (x : NolSt) (h : Frame m s t) (hm : .nol ∈ m) :
    Frame m s { t with nol := x } := by
  intro f hf
  have h := h f hf
  cases f <;> first | exact h | exact absurd hm hf

theorem Frame.with_regions {m : List Fld} {s t : State} (x : Tab RegionSt) (h : Frame m s t) (hm : .regions ∈ m) :
    Frame m s { t with regions := x } := by
  intro f hf
  have h := h f hf
  cases f <;> first | exact h | exact absurd hm hf

theorem Frame.with_placed {m : List Fld} {s t : State} (x : Tab Nat) (h : Frame m s t) (hm : .placed ∈ m) :
    Frame m s { t with placed := x } := by
  intro f hf
  have h := h f hf
  cases f <;> first | exact h | exact absurd hm hf

theorem Frame.with_movedAt {m : List Fld} {s t : State} (x : Tab Nat) (h : Frame m s t) (hm : .movedAt ∈ m) :
    Frame m s { t with movedAt := x } := by
  intro f hf
  have h := h f hf
  cases f <;> first | exact h | exact absurd hm hf

theorem Frame.with_cles {m : List Fld} {s t : State} (x : Tab CleSt) (h : Frame m s t) (hm : .cles ∈ m) :
    Frame m s { t with cles := x } := by
  intro f hf
  have h := h f hf
  cases f <;> first | exact h | exact absurd hm hf

theorem Frame.with_meas {m : List Fld} {s t : State} (x : Tab MeasCh) (h : Frame m s t) (hm : .meas ∈ m) :
    Frame m s { t with meas := x } := by
  intro f hf
  have h := h f hf
  cases f <;> first | exact h | exact absurd hm hf

theorem Frame.with_inj {m : List Fld} {s t : State} (x : Tab InjSt) (h : Frame m s t) (hm : .inj ∈ m) :
    Frame m s { t with inj := x } := by
  intro f hf
  have h := h f hf
  cases f <;> first | exact h | exact absurd hm hf

theorem Frame.with_balCh {m : List Fld} {s t : State} (x : Tab BalCh) (h : Frame m s t) (hm : .balCh ∈ m) :
    Frame m s { t with balCh := x } := by
  intro f hf
  have h := h f hf
  cases f <;> first | exact h | exact absurd hm hf

theorem Frame.with_balCell {m : List Fld} {s t : State} (x : Tab BalCell) (h : Frame m s t) (hm : .balCell ∈ m) :
    Frame m s { t with balCell := x } := by
  intro f hf
  have h := h f hf
  cases f <;> first | exact h | exact absurd hm hf

theorem Frame.with_hubMem {m : List Fld} {s t : State} (x : Tab (Option HubMem)) (h : Frame m s t) (hm : .hubMem ∈ m) :
    Frame m s { t with hubMem := x } := by
  intro f hf
  have h := h f hf
  cases f <;> first | exact h | exact absurd hm hf

theorem Frame.with_hubArm {m : List Fld} {s t : State} (x : Tab HubArm) (h : Frame m s t) (hm : .hubArm ∈ m) :
    Frame m s { t with hubArm := x } := by
  intro f hf
  have h := h f hf
  cases f <;> first | exact h | exact absurd hm hf

theorem Frame.with_lanes {m : List Fld} {s t : State} (x : Tab LaneSt) (h : Frame m s t) (hm : .lanes ∈ m) :
    Frame m s { t with lanes := x } := by
  intro f hf
  have h := h f hf
  cases f <;> first | exact h | exact absurd hm hf

theorem Frame.with_servo {m : List Fld} {s t : State} (x : ServoSt) (h : Frame m s t) (hm : .servo ∈ m) :
    Frame m s { t with servo := x } := by
  intro f hf
  have h := h f hf
  cases f <;> first | exact h | exact absurd hm hf

theorem Frame.with_ptp {m : List Fld} {s t : State} (x : Tab PtpPort) (h : Frame m s t) (hm : .ptp ∈ m) :
    Frame m s { t with ptp := x } := by
  intro f hf
  have h := h f hf
  cases f <;> first | exact h | exact absurd hm hf

theorem Frame.with_picot {m : List Fld} {s t : State} (x : Tab PicotSt) (h : Frame m s t) (hm : .picot ∈ m) :
    Frame m s { t with picot := x } := by
  intro f hf
  have h := h f hf
  cases f <;> first | exact h | exact absurd hm hf

theorem Frame.with_netPair {m : List Fld} {s t : State} (x : Tab NetPair) (h : Frame m s t) (hm : .netPair ∈ m) :
    Frame m s { t with netPair := x } := by
  intro f hf
  have h := h f hf
  cases f <;> first | exact h | exact absurd hm hf

theorem Frame.with_eth {m : List Fld} {s t : State} (x : Tab EthPort) (h : Frame m s t) (hm : .eth ∈ m) :
    Frame m s { t with eth := x } := by
  intro f hf
  have h := h f hf
  cases f <;> first | exact h | exact absurd hm hf

theorem Frame.with_svSub {m : List Fld} {s t : State} (x : Tab SvSub) (h : Frame m s t) (hm : .svSub ∈ m) :
    Frame m s { t with svSub := x } := by
  intro f hf
  have h := h f hf
  cases f <;> first | exact h | exact absurd hm hf

theorem Frame.with_gooseSub {m : List Fld} {s t : State} (x : Tab GooseSub) (h : Frame m s t) (hm : .gooseSub ∈ m) :
    Frame m s { t with gooseSub := x } := by
  intro f hf
  have h := h f hf
  cases f <;> first | exact h | exact absurd hm hf

theorem Frame.with_maint {m : List Fld} {s t : State} (x : MaintSt) (h : Frame m s t) (hm : .maint ∈ m) :
    Frame m s { t with maint := x } := by
  intro f hf
  have h := h f hf
  cases f <;> first | exact h | exact absurd hm hf

theorem Frame.with_freeCtr {m : List Fld} {s t : State} (x : Nat) (h : Frame m s t) (hm : .freeCtr ∈ m) :
    Frame m s { t with freeCtr := x } := by
  intro f hf
  have h := h f hf
  cases f <;> first | exact h | exact absurd hm hf

theorem Frame.with_out {m : List Fld} {s t : State} (x : List Output) (h : Frame m s t) (hm : .out ∈ m) :
    Frame m s { t with out := x } := by
  intro f hf
  have h := h f hf
  cases f <;> first | exact h | exact absurd hm hf

theorem Frame.with_pending {m : List Fld} {s t : State} (x : List Instr) (h : Frame m s t) (hm : .pending ∈ m) :
    Frame m s { t with pending := x } := by
  intro f hf
  have h := h f hf
  cases f <;> first | exact h | exact absurd hm hf

/-! ### The named updates -/

theorem Frame.wr {m : List Fld} {s t : State} (d : Die) (f : Field) (v : Nat) (h : Frame m s t) (h0 : .regs ∈ m) :
    Frame m s (t.wr d f v) := Frame.with_regs _ h h0

theorem Frame.setIo {m : List Fld} {s t : State} (f : Field) (v : Nat) (h : Frame m s t) (h0 : .regs ∈ m) :
    Frame m s (t.setIo f v) := Frame.with_regs _ h h0

theorem Frame.raise {m : List Fld} {s t : State} (d : Die) (f : Field) (h : Frame m s t) (h0 : .regs ∈ m) :
    Frame m s (t.raise d f) := Frame.with_regs _ h h0

theorem Frame.raiseIo {m : List Fld} {s t : State} (f : Field) (h : Frame m s t) (h0 : .regs ∈ m) :
    Frame m s (t.raiseIo f) := Frame.with_regs _ h h0

theorem Frame.wrSh {m : List Fld} {s t : State} (d : Die) (f : Field) (v : Nat) (h : Frame m s t) (h0 : .shadow ∈ m) :
    Frame m s (t.wrSh d f v) := Frame.with_shadow _ h h0

theorem Frame.wrShP {m : List Fld} {s t : State} (d : Die) (f : Field) (v : Nat) (h : Frame m s t) (h0 : .shadowP ∈ m) :
    Frame m s (t.wrShP d f v) := Frame.with_shadowP _ h h0

theorem Frame.draw {m : List Fld} {s t : State} (n : Nat) (h : Frame m s t) (h0 : .freeCtr ∈ m) :
    Frame m s (t.draw n) := Frame.with_freeCtr _ h h0

theorem Frame.send {m : List Fld} {s t : State} (o : Output) (h : Frame m s t) (h0 : .out ∈ m) :
    Frame m s (t.send o) := Frame.with_out _ h h0

theorem Frame.setRam8 {m : List Fld} {s t : State} (loc a : Nat) (b : Byte) (h : Frame m s t) (h0 : .ram ∈ m) (h1 : .red ∈ m) :
    Frame m s (t.setRam8 loc a b) := by
  intro f hf
  have h := h f hf
  cases f <;> first | exact h | exact absurd h0 hf | exact absurd h1 hf

theorem Frame.setBob {m : List Fld} {s t : State} (d : Die) (c : Nat) (b : Bobbin) (h : Frame m s t) (h0 : .bobs ∈ m) :
    Frame m s (t.setBob d c b) := Frame.with_bobs _ h h0

theorem Frame.setCore {m : List Fld} {s t : State} (d : Die) (c : Nat) (x : CoreSt) (h : Frame m s t) (h0 : .cores ∈ m) :
    Frame m s (t.setCore d c x) := Frame.with_cores _ h h0

theorem Frame.setGenCh {m : List Fld} {s t : State} (n : Nat) (g : GenCh) (h : Frame m s t) (h0 : .gen ∈ m) :
    Frame m s (t.setGenCh n g) := Frame.with_gen _ h h0

theorem Frame.setGrp {m : List Fld} {s t : State} (g : Nat) (x : Grp) (h : Frame m s t) (h0 : .trip ∈ m) :
    Frame m s (t.setGrp g x) := Frame.with_trip _ h h0

theorem Frame.setAdapt {m : List Fld} {s t : State} (d : Die) (a : AdaptDie) (h : Frame m s t) (h0 : .adapt ∈ m) :
    Frame m s (t.setAdapt d a) := Frame.with_adapt _ h h0

theorem Frame.setSet {m : List Fld} {s t : State} (n : Nat) (x : SetSt) (h : Frame m s t) (h0 : .sets ∈ m) :
    Frame m s (t.setSet n x) := Frame.with_sets _ h h0

theorem Frame.setLink {m : List Fld} {s t : State} (l : Nat) (x : NolLink) (h : Frame m s t) (h0 : .links ∈ m) :
    Frame m s (t.setLink l x) := Frame.with_links _ h h0

theorem Frame.setGate {m : List Fld} {s t : State} (n : Nat) (u v : Bool) (h : Frame m s t) (h0 : .pins ∈ m) :
    Frame m s (t.setGate n u v) := by
  unfold State.setGate
  split
  · exact Frame.with_pins _ h h0
  · exact Frame.with_pins _ h h0

theorem Frame.setLane {m : List Fld} {s t : State} (k : Nat) (x : LaneSt) (h : Frame m s t) (h0 : .lanes ∈ m) :
    Frame m s (t.setLane k x) := Frame.with_lanes _ h h0

theorem Frame.setCle {m : List Fld} {s t : State} (d : Die) (c : Nat) (x : CleSt) (h : Frame m s t) (h0 : .cles ∈ m) :
    Frame m s (t.setCle d c x) := Frame.with_cles _ h h0

theorem Frame.setCh {m : List Fld} {s t : State} (i : Nat) (x : MeasCh) (h : Frame m s t) (h0 : .meas ∈ m) :
    Frame m s (t.setCh i x) := Frame.with_meas _ h h0

theorem Frame.setInj {m : List Fld} {s t : State} (u : Nat) (x : InjSt) (h : Frame m s t) (h0 : .inj ∈ m) :
    Frame m s (t.setInj u x) := Frame.with_inj _ h h0

theorem Frame.setPair {m : List Fld} {s t : State} (x : Nat) (p : NetPair) (h : Frame m s t) (h0 : .netPair ∈ m) :
    Frame m s (t.setPair x p) := Frame.with_netPair _ h h0

theorem Frame.setEth {m : List Fld} {s t : State} (p : Nat) (x : EthPort) (h : Frame m s t) (h0 : .eth ∈ m) :
    Frame m s (t.setEth p x) := Frame.with_eth _ h h0

theorem Frame.setGndTarget {m : List Fld} {s t : State} (d : Die) (t' : Nat) (x : GndTarget) (h : Frame m s t) (h0 : .gnd ∈ m) :
    Frame m s (t.setGndTarget d t' x) := Frame.with_gnd _ h h0

theorem Frame.setPicotSt {m : List Fld} {s t : State} (p : Nat) (x : PicotSt) (h : Frame m s t) (h0 : .picot ∈ m) :
    Frame m s (t.setPicotSt p x) := Frame.with_picot _ h h0

theorem Frame.setPtp {m : List Fld} {s t : State} (p : Nat) (x : PtpPort) (h : Frame m s t) (h0 : .ptp ∈ m) :
    Frame m s (t.setPtp p x) := Frame.with_ptp _ h h0

theorem Frame.setSv {m : List Fld} {s t : State} (i : Nat) (x : SvSub) (h : Frame m s t) (h0 : .svSub ∈ m) :
    Frame m s (t.setSv i x) := Frame.with_svSub _ h h0

theorem Frame.setGooseSub {m : List Fld} {s t : State} (i : Nat) (x : GooseSub) (h : Frame m s t) (h0 : .gooseSub ∈ m) :
    Frame m s (t.setGooseSub i x) := Frame.with_gooseSub _ h h0

theorem Frame.setRegion {m : List Fld} {s t : State} (d : Die) (r : Nat) (x : RegionSt) (h : Frame m s t) (h0 : .regions ∈ m) :
    Frame m s (t.setRegion d r x) := Frame.with_regions _ h h0

theorem Frame.setBalCh {m : List Fld} {s t : State} (d : Die) (n : Nat) (x : BalCh) (h : Frame m s t) (h0 : .balCh ∈ m) :
    Frame m s (t.setBalCh d n x) := Frame.with_balCh _ h h0

theorem Frame.setCellBal {m : List Fld} {s t : State} (d : Die) (x : BalCell) (h : Frame m s t) (h0 : .balCell ∈ m) :
    Frame m s (t.setCellBal d x) := Frame.with_balCell _ h h0

theorem Frame.setArm {m : List Fld} {s t : State} (d : Die) (a : Nat) (x : HubArm) (h : Frame m s t) (h0 : .hubArm ∈ m) :
    Frame m s (t.setArm d a x) := Frame.with_hubArm _ h h0

theorem Frame.setHubMember {m : List Fld} {s t : State} (d : Die) (node : Nat) (x : Option HubMem) (h : Frame m s t) (h0 : .hubMem ∈ m) :
    Frame m s (t.setHubMember d node x) := Frame.with_hubMem _ h h0

end Sys2Proof.Machine
end

