-- ==== Sys2Proof/Laws/FrameOps.lean ====
section
/-! SUPPORT. Frames of the shared operations: events, publications, the trip fabric, event records, grades and die faults.
Each says once which fields of the state its operation may touch. -/

namespace Sys2Proof.Machine
open Sys2Proof.Laws

/-- One more operation whose own frame lies within `m`. -/
theorem Frame.step {m g : List Fld} {s t u : State} (h : Frame m s t) (hg : Frame g t u) (hs : ∀ f ∈ g, f ∈ m) :
    Frame m s u := h.trans (hg.mono hs)

theorem frame_post (s : State) (e : Nat) : Frame mPost s (s.post e) := by
  rw [post_only]
  intro f hf
  cases f <;> first | rfl | exact absurd (by decide) hf

theorem frame_dispatch (s : State) (d : Die) (c n : Nat) : Frame [.bobs, .latched, .cores] s (s.dispatch d c n) := by
  rw [dispatch_only]
  intro f hf
  cases f <;> first | rfl | exact absurd (by decide) hf

theorem frame_count (s : State) (d : Die) (a b : Field) (n : Nat) : Frame [.regs] s (s.count d a b n) := by
  unfold State.count
  split
  · exact Frame.wr _ _ _ (Frame.refl _ _) (by decide)
  · exact Frame.wr _ _ _ (Frame.wr _ _ _ (Frame.refl _ _) (by decide)) (by decide)

theorem frame_runTo (s : State) (t : Nat) : Frame [.tb] s (s.runTo t) := by
  unfold State.runTo
  split
  · exact Frame.refl _ _
  · exact Frame.with_tb _ (Frame.refl _ _) (by decide)

theorem frame_raisePost (s : State) (f : Field) (e : Nat) : Frame (.regs :: mPost) s (s.raisePost f e) :=
  Frame.step (Frame.raiseIo _ (Frame.refl _ _) (by decide)) (frame_post _ _) (by decide)

theorem frame_setRamBytes (s : State) (loc a : Nat) (bs : List Byte) : Frame [.ram, .red] s (s.setRamBytes loc a bs) := by
  rw [setRamBytes_only]
  intro f hf
  cases f <;> first | rfl | exact absurd (by decide) hf

/-! ### Sending on Ethernet ports -/

theorem frame_ethStart (s : State) (p t : Nat) (q : List (Nat × Output)) (e : Nat × Output) :
    Frame mEth s (s.ethStart p t q e) := by
  unfold State.ethStart
  exact Frame.send _ (Frame.setEth _ _ (Frame.refl _ s) (by decide)) (by decide)

theorem frame_ethDrain (n : Nat) : ∀ (s : State) (p : Nat), Frame mEth s (s.ethDrain p n) := by
  induction n with
  | zero => intro s p; exact Frame.refl _ _
  | succ n ih =>
    intro s p
    unfold State.ethDrain
    simp only
    split
    · exact Frame.refl _ _
    · exact (frame_ethStart _ _ _ _ _).trans (ih _ _)

/-- Sending a frame touches the ports and what leaves the block. -/
theorem frame_ethSend (s : State) (r : Nat) (o : Output) (p : Nat) : Frame mEth s (s.ethSend r o p) := by
  unfold State.ethSend
  simp only
  have h : Frame mEth s (s.ethRun p) := frame_ethDrain _ s p
  generalize s.ethRun p = t at h ⊢
  split
  · exact h.trans (frame_ethStart _ _ _ _ _)
  · split
    · exact (Frame.with_out _ h (by decide)).trans (frame_ethStart _ _ _ _ _)
    · exact Frame.setEth _ _ h (by decide)

theorem frame_ethSendAll (s : State) (r : Nat) (o : Output) (ps : List Nat) : Frame mEth s (s.ethSendAll r o ps) :=
  Frame.foldl (fun s p => frame_ethSend s r o p) _ (Frame.refl _ _)

/-! ### GOOSE publications -/

theorem frame_pairSend (s : State) (x : Nat) : Frame mGoose s (s.pairSend x) := by
  unfold State.pairSend
  split
  · exact Frame.refl _ _
  · exact Frame.setPair _ _ (Frame.refl _ _) (by decide)

theorem frame_gooseFrame (s : State) (b iv : Nat) : Frame mGoose s (s.gooseFrame b iv) := by
  unfold State.gooseFrame
  exact Frame.step ((frame_pairSend s 0).trans (frame_pairSend _ 1)) (frame_ethSendAll _ _ _ _) (by decide)

theorem frame_gooseNote (s : State) (b : Nat) : Frame mGoose s (s.gooseNote b) := Frame.with_goosePub _ (Frame.refl _ s) (by decide)

theorem frame_setGoose (s : State) (b : Nat) (x : GooseSt) : Frame mGoose s (s.setGoose b x) :=
  Frame.with_gooseSt _ (Frame.refl _ s) (by decide)

theorem frame_gooseAgain (s : State) (b iv : Nat) : Frame mGoose s (s.gooseAgain b iv) := by
  intro f hf
  have h := frame_gooseNote s b f hf
  cases f <;> first | exact h | exact absurd (by decide) hf

theorem frame_gooseChange (s : State) (b : Nat) (why : Option Nat) : Frame mGoose s (s.gooseChange b why) := by
  unfold State.gooseChange
  simp only
  refine Frame.ite ((frame_setGoose _ _ _).trans (frame_gooseAgain _ _ _)) (Frame.trans ?_ (frame_setGoose _ _ _))
  exact ((Frame.setIo _ _ (Frame.setIo _ _ (Frame.refl _ s) (by decide)) (by decide)).trans
    (frame_gooseNote _ _)).trans (frame_gooseFrame _ _ _)

theorem frame_gooseDropPort (b st : Nat) (s : State) (p : Nat) : Frame mGoose s (s.gooseDropPort b st p) := by
  have hite : ∀ (c : Prop) [Decidable c] (x : NetPair), Frame mGoose s (if c then s.setPair (p / 2) x else s) := fun c _ x =>
    Frame.ite (Frame.setPair _ _ (Frame.refl _ s) (by decide)) (Frame.refl _ s)
  unfold State.gooseDropPort State.ethRun
  exact Frame.step (Frame.setEth _ _ (Frame.with_out _ (hite _ _) (by decide)) (by decide)) (frame_ethDrain _ _ _) (by decide)

theorem frame_gooseUndo (s : State) (b g : Nat) : Frame mGoose s (s.gooseUndo b g) := by
  unfold State.gooseUndo
  simp only
  refine Frame.ite (Frame.refl _ _) (Frame.ite ((frame_setGoose _ _ _).trans (frame_gooseAgain _ _ _)) (Frame.trans ?_ (frame_setGoose _ _ _)))
  exact Frame.with_goosePub _ (Frame.setIo _ _ (Frame.setIo _ _ (Frame.foldl (fun s p => frame_gooseDropPort _ _ s p) _ (Frame.refl _ s))
    (by decide)) (by decide)) (by decide)

theorem frame_gooseTakeBack (s : State) (g : Nat) : Frame mGoose s (s.gooseTakeBack g) :=
  Frame.foldl (fun s b => frame_gooseUndo s b g) _ (Frame.refl _ _)

theorem frame_gooseGroup (s : State) (g : Nat) : Frame mGoose s (s.gooseGroup g) := by
  unfold State.gooseGroup
  refine Frame.foldl (fun s b => ?_) _ (Frame.refl _ _)
  split
  · exact frame_gooseChange s b _
  · exact Frame.refl _ _

/-! ### The trip fabric -/

theorem frame_placeCmd (s : State) (n c base r j : Nat) : Frame [.regs, .gen] s (s.placeCmd n c base r j) := by
  unfold State.placeCmd
  exact Frame.setGenCh _ _ (Frame.setIo _ _ (Frame.refl _ s) (by decide)) (by decide)

theorem frame_settleTo (s : State) (n t : Nat) : Frame [.regs, .gen] s (s.settleTo n t) := by
  unfold State.settleTo
  exact Frame.foldl (fun s c => frame_placeCmd _ _ _ _ _ _) _ (Frame.setGenCh _ _ (Frame.refl _ s) (by decide))

theorem frame_openWatch (s : State) (n t : Nat) : Frame [.gen] s (s.openWatch n t) := by
  unfold State.openWatch
  split
  · exact Frame.setGenCh _ _ (Frame.refl _ s) (by decide)
  · exact Frame.refl _ _

theorem frame_safeCh (s : State) (n t : Nat) : Frame [.regs, .gen, .pins] s (s.safeCh n t) := by
  unfold State.safeCh
  simp only
  have h0 : Frame [.regs, .gen, .pins] s ((s.settleTo n t).setIo (Reg.GEN_CMD_ACT n) 0) :=
    Frame.setIo _ _ ((frame_settleTo s n t).mono (by decide)) (by decide)
  have h1 : ∀ (b : Prop) [Decidable b] (u v : State), Frame [.regs, .gen, .pins] s u → Frame [.regs, .gen, .pins] s v →
      Frame [.regs, .gen, .pins] s (if b then u else v) := fun _ _ _ _ hu hv => Frame.ite hu hv
  generalize (s.settleTo n t).setIo (Reg.GEN_CMD_ACT n) 0 = t0 at h0 ⊢
  refine h1 _ _ _ (Frame.step (h1 _ _ _ ?_ ?_) (frame_openWatch _ _ _) (by decide)) (h1 _ _ _ ?_ ?_) <;>
  first
  | exact Frame.setGate _ _ _ (Frame.setGate _ _ _ (Frame.setGenCh _ _ h0 (by decide)) (by decide)) (by decide)
  | exact Frame.setGate _ _ _ (Frame.setGenCh _ _ h0 (by decide)) (by decide)

theorem frame_safeGroup (s : State) (g : Nat) : Frame [.regs, .gen, .pins] s (s.safeGroup g) := by
  unfold State.safeGroup
  split
  · exact Frame.refl _ _
  · refine Frame.foldl (fun s n => ?_) _ (Frame.refl _ _)
    split
    · exact frame_safeCh _ _ _
    · exact Frame.refl _ _

theorem frame_blockAll (s : State) : Frame [.regs, .gen, .pins] s s.blockAll := by
  unfold State.blockAll
  split
  · exact Frame.refl _ _
  · refine Frame.with_pins _ (Frame.foldl (fun s n => ?_) _ (Frame.refl _ _)) (by decide)
    split
    · exact frame_safeCh _ _ _
    · exact Frame.refl _ _

theorem frame_tripRecord (s : State) (a b c : Nat) : Frame [.regs, .trip] s (s.tripRecord a b c) := by
  unfold State.tripRecord
  split
  · exact Frame.with_trip _ (Frame.refl _ _) (by decide)
  · exact (frame_count _ _ _ _ _).mono (by decide)

theorem frame_delayFrame (s : State) (sent : Nat → Bool) (l : Nat) : Frame [.links] s (s.delayFrame sent l) := by
  unfold State.delayFrame
  simp only
  exact Frame.ite (Frame.refl _ _) (Frame.setLink _ _ (Frame.refl _ s) (by decide))

theorem frame_sendSet (b : Bool) (s : State) (k : Nat) : Frame [.out, .links, .trip] s (State.sendSet b s k) := by
  unfold State.sendSet
  exact Frame.ite (Frame.with_trip _ (Frame.send _ (Frame.refl _ s) (by decide)) (by decide))
    (Frame.ite (Frame.with_out _ (Frame.refl _ s) (by decide)) (Frame.send _ (Frame.refl _ s) (by decide)))

/-- Block order sets leave the block and delay frames in progress (R364). -/
theorem frame_sendSets (s : State) (m : Nat) (b : Bool) : Frame [.out, .links, .trip] s (s.sendSets m b) := by
  unfold State.sendSets
  exact Frame.foldl (fun s l => (frame_delayFrame s _ l).mono (by decide)) _
    (Frame.foldl (frame_sendSet b) _ (Frame.refl _ _))

theorem frame_sendBos (s : State) (m : Nat) : Frame [.out, .links, .trip] s (s.sendBos m) := frame_sendSets s m false

theorem frame_setAsserted (s : State) (g : Nat) (b : Bool) : Frame [.regs] s (s.setAsserted g b) :=
  Frame.setIo _ _ (Frame.refl _ s) (by decide)

theorem frame_tripAction (s : State) (g : Nat) (srcs : List Nat) : Frame mTrip s (s.tripAction g srcs) := by
  unfold State.tripAction
  simp only
  refine Frame.step ?_ (frame_gooseGroup _ _) (by decide)
  have h0 := Frame.step (Frame.setIo (Reg.TRIP_GRP_STAT_STATE g) grpTripped (Frame.refl mTrip s) (by decide))
    (frame_setAsserted _ g true) (by decide)
  generalize (s.setIo (Reg.TRIP_GRP_STAT_STATE g) grpTripped).setAsserted g true = t0 at h0 ⊢
  have h1 := Frame.step (Frame.setGrp g { t0.grp g with tripAt := some t0.tb.ticks } h0 (by decide)) (frame_safeGroup _ g)
    (by decide)
  generalize (t0.setGrp g { t0.grp g with tripAt := some t0.tb.ticks }).safeGroup g = t1 at h1 ⊢
  have h := Frame.step (Frame.step (Frame.setIo (Reg.TRIP_GRP_STAT_FIRST_SRC g) (srcs.headD 0x18E) h1 (by decide))
    (frame_count _ .d0 (Reg.TRIP_GRP_CNT_COUNT g) (Reg.TRIP_GRP_STAT_SAT g) 1) (by decide))
    (frame_tripRecord _ 1 g (srcs.headD 0x18E)) (by decide)
  split
  · exact Frame.with_trip _ (Frame.step h (frame_sendBos _ _) (by decide)) (by decide)
  · exact h

theorem frame_tripGroup (s : State) (g : Nat) (srcs : List Nat) : Frame mTrip s (s.tripGroup g srcs) :=
  Frame.step (frame_tripAction s g srcs) (frame_post _ _) (by decide)

theorem frame_meetTrip (s : State) (g : Nat) (srcs : List Nat) : Frame [.regs, .trip] s (s.meetTrip g srcs) := by
  unfold State.meetTrip
  exact Frame.with_trip _ (Frame.setIo _ _ (Frame.refl _ s) (by decide)) (by decide)

theorem frame_unrecord (s : State) (a g : Nat) : Frame [.trip] s (s.unrecord a g) := Frame.with_trip _ (Frame.refl _ s) (by decide)

theorem frame_clearRefused (s : State) (g : Nat) : Frame mTrip s (s.clearRefused g) := by
  unfold State.clearRefused
  exact Frame.step (Frame.step (Frame.raiseIo _ (Frame.refl _ s) (by decide)) (frame_tripRecord _ _ _ _) (by decide))
    (frame_post _ _) (by decide)

theorem frame_meetRefused (s : State) (g : Nat) : Frame [.trip] s (s.meetRefused g) := Frame.with_trip _ (Frame.refl _ s) (by decide)

theorem frame_unclear (s : State) (g : Nat) (b : Bool) : Frame mTrip s (s.unclear g b) := by
  unfold State.unclear
  simp only
  exact (Frame.step (Frame.with_trip _ (Frame.setGrp _ _ (Frame.step (Frame.setIo _ _ (Frame.refl _ s) (by decide)) (frame_unrecord _ _ _)
    (by decide)) (by decide)) (by decide)) (frame_gooseTakeBack _ _) (by decide)).trans (frame_clearRefused _ _)

theorem frame_tripHeld (s : State) (g : Nat) (srcs : List Nat) (b : Bool) : Frame mTrip s (s.tripHeld g srcs b) := by
  have h := Frame.ite (c := b = true) (frame_tripGroup s g srcs) (frame_tripAction s g srcs)
  unfold State.tripHeld
  split
  · exact Frame.ite (frame_unclear _ _ _) h
  · exact h

theorem frame_unarm (s : State) (g old : Nat) (b : Bool) (srcs : List Nat) : Frame mTrip s (s.unarm g old b srcs) := by
  unfold State.unarm
  simp only
  have h1 : Frame mTrip s (((s.setIo (Reg.TRIP_GRP_STAT_STATE g) old).setAsserted g true).unrecord 4 g) :=
    Frame.step (Frame.step (Frame.setIo _ _ (Frame.refl _ s) (by decide)) (frame_setAsserted _ g true) (by decide))
      (frame_unrecord _ 4 g) (by decide)
  generalize ((s.setIo (Reg.TRIP_GRP_STAT_STATE g) old).setAsserted g true).unrecord 4 g = t at h1 ⊢
  have h2 : ∀ x y, Frame mTrip s (State.gooseTakeBack { t.setGrp g x with trip := y } g) := fun x y =>
    Frame.step (Frame.with_trip _ (Frame.setGrp _ _ h1 (by decide)) (by decide)) (frame_gooseTakeBack _ _) (by decide)
  exact Frame.ite ((h2 _ _).trans (frame_tripHeld _ _ _ _)) (Frame.step (h2 _ _) (frame_safeGroup _ _) (by decide))

theorem frame_scanGroup (acts : List Nat) (s : State) (g : Nat) : Frame mTrip s (State.scanGroup acts s g) := by
  unfold State.scanGroup
  simp only
  have h : ∀ x, Frame mTrip s ((s.setGrp g x).meetRefused g) := fun x =>
    Frame.step (Frame.setGrp _ _ (Frame.refl mTrip s) (by decide)) (frame_meetRefused _ _) (by decide)
  refine Frame.ite (h _) (Frame.ite ((h _).trans (frame_tripHeld _ _ _ _)) (Frame.ite ?_
    (Frame.ite (Frame.step (h _) (frame_meetTrip _ _ _) (by decide)) (h _))))
  split
  · exact Frame.ite ((h _).trans (frame_unarm _ _ _ _ _)) ((h _).trans (frame_tripGroup _ _ _))
  · exact (h _).trans (frame_tripGroup _ _ _)

/-- The fabric's look at its sources stays within the trip fabric. -/
theorem frame_tripScan (s : State) : Frame mTrip s s.tripScan := by
  unfold State.tripScan
  exact Frame.foldl (fun s g => frame_scanGroup _ s g) _
    (Frame.setIo _ _ (Frame.setIo _ _ (Frame.refl _ s) (by decide)) (by decide))

theorem frame_setChanSrc (s : State) (code : Nat) (on : Bool) : Frame mTrip s (s.setChanSrc code on) := by
  unfold State.setChanSrc
  exact (Frame.with_trip _ (Frame.setIo _ _ (Frame.refl _ s) (by decide)) (by decide)).trans (frame_tripScan _)

theorem frame_packageOn (s : State) : Frame mTrip s s.packageOn :=
  (Frame.with_trip _ (Frame.refl _ s) (by decide)).trans (frame_tripScan _)

theorem frame_clearGroup (s : State) (g : Nat) : Frame mTrip s (s.clearGroup g) := by
  unfold State.clearGroup
  simp only
  refine Frame.ite (Frame.step (Frame.with_trip _ (Frame.setGrp _ _ (Frame.step (Frame.setIo _ _ (Frame.refl mTrip s) (by decide))
    (frame_tripRecord _ _ _ _) (by decide)) (by decide)) (by decide)) (frame_gooseGroup _ _) (by decide)) ?_
  exact Frame.ite (frame_clearRefused _ _) (Frame.refl _ _)

/-! ### Event records, grades, die faults -/

theorem frame_logEvent (s : State) (a b c d e : Nat) : Frame [.ram, .red, .regs] s (s.logEvent a b c d e) := by
  rw [logEvent_only]
  intro f hf
  cases f <;> first | rfl | exact absurd (by decide) hf

theorem frame_showGrade (s : State) : Frame [.pins] s s.showGrade := by
  unfold State.showGrade
  simp only
  split
  · exact Frame.with_pins _ (Frame.refl _ _) (by decide)
  · exact Frame.refl _ _

theorem frame_setServo (s : State) (st : Nat) : Frame (.regs :: mPost) s (s.setServo st) := by
  unfold State.setServo
  exact Frame.ite (Frame.refl _ _) (Frame.step (Frame.setIo _ _ (Frame.refl _ s) (by decide)) (frame_post _ _) (by decide))

/-- A servo that loses its source touches its registers, its counts and the addend to come (R422, R423). -/
theorem frame_servoLost (s : State) : Frame ([.regs, .servo, .tb] ++ mPost) s s.servoLost := by
  unfold State.servoLost State.setAddend
  exact Frame.ite (Frame.setIo _ _ (Frame.setIo _ _ (Frame.with_tb _ (Frame.step (Frame.with_servo _ (Frame.refl _ s) (by decide))
    (frame_setServo _ _) (by decide)) (by decide)) (by decide)) (by decide)) (Frame.refl _ _)

theorem frame_leaveForStop (s : State) : Frame ([.regs, .nol, .links, .servo, .tb] ++ mPost) s s.leaveForStop := by
  unfold State.leaveForStop
  split
  · exact Frame.foldl (fun s l => Frame.setLink _ _ (Frame.refl _ s) (by decide)) _ (Frame.refl _ _)
  · exact Frame.foldl (fun s l => Frame.setLink _ _ (Frame.setLink _ _ (Frame.refl _ s) (by decide)) (by decide)) _
      (Frame.with_nol _ (Frame.setIo _ _ (Frame.ite ((frame_servoLost s).mono (by decide)) (Frame.refl _ s)) (by decide)) (by decide))

theorem frame_placeRecord (s : State) (r : LogRec) : Frame [.ram, .red] s (s.placeRecord r) := by
  unfold State.placeRecord
  split
  · exact Frame.refl _ _
  · exact frame_setRamBytes _ _ _ _

theorem frame_setLogq (s : State) (q : List LogRec) : Frame [.ram, .red] s (s.setLogq q) :=
  Frame.with_red _ (Frame.refl _ s) (by decide)

theorem frame_regrade (s : State) (g cause : Nat) : Frame [.ram, .red] s (s.regrade g cause) := by
  unfold State.regrade
  exact Frame.foldl frame_placeRecord _ (frame_setLogq _ _)

theorem frame_showReplace (s : State) (old new cause : Nat) : Frame [.regs] s (s.showReplace old new cause) := by
  unfold State.showReplace
  exact Frame.ite (Frame.setIo _ _ (Frame.refl _ s) (by decide)) (Frame.refl _ _)

theorem frame_gradeMeets (s : State) (g cause : Nat) : Frame [.regs, .ram, .red] s (s.gradeMeets g cause) := by
  unfold State.gradeMeets
  exact Frame.ite (Frame.step (Frame.step (Frame.setIo _ _ (Frame.refl _ s) (by decide)) (frame_regrade _ _ _) (by decide))
    (frame_showReplace _ _ _ _) (by decide)) (Frame.refl _ _)

theorem frame_noteRise (s : State) (old : Nat) : Frame [.red] s (s.noteRise old) := Frame.with_red _ (Frame.refl _ s) (by decide)

theorem frame_riseTo (s : State) (b : Bool) (old g cause : Nat) : Frame mGrade s (s.riseTo b old g cause) := by
  unfold State.riseTo
  simp only
  refine Frame.step (Frame.step ?_ (frame_regrade _ _ _) (by decide)) (frame_showGrade _) (by decide)
  have h0 : Frame mGrade s ((s.setIo Reg.RED_GRADE_GRADE g).setIo Reg.RED_GRADE_CAUSE cause) :=
    Frame.setIo _ _ (Frame.setIo _ _ (Frame.refl _ s) (by decide)) (by decide)
  generalize (s.setIo Reg.RED_GRADE_GRADE g).setIo Reg.RED_GRADE_CAUSE cause = t at h0 ⊢
  have h := Frame.step (Frame.step h0 (frame_showReplace t old g cause) (by decide)) (frame_noteRise _ old) (by decide)
  generalize (t.showReplace old g cause).noteRise old = t at h ⊢
  exact Frame.ite h (Frame.step (Frame.step h (frame_post t 255) (by decide)) (frame_logEvent _ _ _ _ _ _) (by decide))

theorem frame_startStop (s : State) (cause : Nat) : Frame mGrade s (s.startStop cause) := by
  unfold State.startStop
  simp only
  have h := Frame.step (Frame.refl mGrade s) (frame_packageOn s) (by decide)
  generalize s.packageOn = t at h ⊢
  have h := Frame.with_red { t.red with stopAt := some t.tb.ticks } (Frame.with_tb { t.tb with released := false } h (by decide))
    (by decide)
  refine Frame.step (Frame.step (Frame.ite ?_ h) (frame_leaveForStop _) (by decide)) (frame_logEvent _ _ _ _ _ _) (by decide)
  exact Frame.with_trip _ (Frame.step h (frame_sendBos _ _) (by decide)) (by decide)

/-- A rise of the grade stays within `mGrade`, at G4 too. -/
theorem frame_raiseGradeBy (s : State) (pick : Nat → Nat → Nat) (g cause : Nat) : Frame mGrade s (s.raiseGradeBy pick g cause) := by
  unfold State.raiseGradeBy
  exact Frame.ite ((frame_gradeMeets s g cause).mono (by decide))
    (Frame.ite ((frame_riseTo _ _ _ _ _).trans (frame_startStop _ _)) (frame_riseTo _ _ _ _ _))

theorem frame_raiseGrade (s : State) (g cause : Nat) : Frame mGrade s (s.raiseGrade g cause) := frame_raiseGradeBy s min g cause

theorem frame_setDieState (s : State) (d : Die) (st : Nat) : Frame mGrade s (s.setDieState d st) := by
  unfold State.setDieState
  exact Frame.step (Frame.step (Frame.setIo _ _ (Frame.refl _ s) (by decide)) (frame_logEvent _ _ _ _ _ _) (by decide))
    (frame_post _ _) (by decide)

theorem frame_holdRequest (s : State) (b : Bool) : Frame mGrade s (s.holdRequest b) := by
  unfold State.holdRequest
  exact Frame.step (Frame.with_red _ (Frame.refl _ s) (by decide)) (frame_tripScan _) (by decide)

theorem frame_undeclare (s : State) (w : Die) (x : Declared) : Frame mGrade s (s.undeclare w x) := by
  unfold State.undeclare
  simp only
  exact Frame.wr _ _ _ (Frame.wr _ _ _ (Frame.with_red _ (Frame.refl _ s) (by decide)) (by decide)) (by decide)

theorem frame_keepWorker (s : State) (w : Die) (x : Declared) : Frame mGrade s (s.keepWorker w x) := by
  unfold State.keepWorker
  simp only
  have h : Frame mGrade s ((((s.undeclare w x).setIo (Reg.RED_DIE_STATE w.toNat) 0).setIo (Reg.RED_DIE_FAULT w.toNat) x.fault).setIo
      (Reg.RED_DIE_CAUSE w.toNat) x.cause) :=
    Frame.setIo _ _ (Frame.setIo _ _ (Frame.setIo _ _ (frame_undeclare s w x) (by decide)) (by decide)) (by decide)
  generalize (((s.undeclare w x).setIo (Reg.RED_DIE_STATE w.toNat) 0).setIo (Reg.RED_DIE_FAULT w.toNat) x.fault).setIo
      (Reg.RED_DIE_CAUSE w.toNat) x.cause = t at h ⊢
  have h1 : ∀ (c : Prop) [Decidable c] (v : Nat), Frame mGrade s (if c then t.setIo Reg.RED_GRADE_CAUSE v else t) := fun c _ v =>
    Frame.ite (Frame.setIo _ _ h (by decide)) h
  have h2 : ∀ (u : State) (x : RedSt), Frame mGrade s u → Frame mGrade s ({ u with red := x }.holdRequest true) := fun u x hu =>
    (Frame.with_red x hu (by decide)).trans (frame_holdRequest _ true)
  exact Frame.ite ((h2 _ _ (h1 _ _)).trans (frame_raiseGrade _ _ _)) ((h2 _ _ (h1 _ _)).trans (frame_raiseGrade _ _ _))

theorem frame_takeoverFails (s : State) (d : Die) : Frame mGrade s (s.takeoverFails d) := by
  unfold State.takeoverFails
  have hr : ∀ (t : State) (x : RedSt), Frame mGrade s t → Frame mGrade s { t with red := x } := fun t x h => Frame.with_red _ h (by decide)
  split
  · exact Frame.refl _ _
  · refine Frame.ite (Frame.refl _ _) (Frame.ite ((hr _ _ ?_).trans (frame_holdRequest _ _)) ?_)
    · split
      · exact frame_undeclare _ _ _
      · exact Frame.refl _ _
    · split
      · exact frame_keepWorker _ _ _
      · exact (hr _ _ (Frame.refl _ _)).trans (frame_raiseGrade _ _ _)

theorem frame_putOut (s : State) (d : Die) (cause : Nat) : Frame mGrade s (s.putOut d cause) := by
  unfold State.putOut
  exact (((Frame.setIo _ _ (Frame.raiseIo _ (Frame.refl _ s) (by decide)) (by decide)).trans (frame_setDieState _ _ _)).trans
    (frame_raiseGrade _ _ _)).trans (frame_takeoverFails _ _)

theorem frame_startTakeover (s : State) (d : Die) : Frame mGrade s (s.startTakeover d) := by
  unfold State.startTakeover
  exact Frame.ite (Frame.with_red _ (Frame.refl _ s) (by decide))
    (Frame.step (Frame.with_red _ (Frame.refl _ s) (by decide)) (frame_count _ _ _ _ _) (by decide))

theorem frame_logFault (s : State) (d : Die) (cause : Nat) : Frame mGrade s (s.logFault d cause) := by
  unfold State.logFault
  exact Frame.step (Frame.step (Frame.setIo _ _ (Frame.refl _ s) (by decide)) (frame_logEvent _ _ _ _ _ _) (by decide))
    (frame_post _ _) (by decide)

theorem frame_dieFault (s : State) (d : Die) (cause : Nat) : Frame mGrade s (s.dieFault d cause) := by
  unfold State.dieFault
  simp only
  have h : Frame mGrade s (s.raiseIo (Reg.RED_DIE_FAULT d.toNat)) := Frame.raiseIo _ (Frame.refl _ s) (by decide)
  have hl := h.trans (frame_logFault _ d cause)
  exact Frame.ite (Frame.refl _ _) (Frame.ite hl (Frame.ite
    (Frame.ite (Frame.with_red _ hl (by decide)) (Frame.ite ((h.trans (frame_putOut _ _ _)).trans (frame_startTakeover _ _))
      (hl.trans (frame_raiseGrade _ _ _))))
    (h.trans (frame_putOut _ _ _))))

end Sys2Proof.Machine
end

