-- ==== Sys2Proof/WellFormed.lean ====
section
/-! DEFINITION. Which commands have the shape the spec gives them: register words on word addresses, sense frames of 25
cells, payloads of their length. -/

namespace Sys2Proof

/-- A word address. -/
def word (a : Word) : Bool := decide (a.toNat % 4 = 0)

/-- Decimation channels whose bits come in sense frames (R180). -/
def isRemoteCh (i : Fin 144) : Bool := decide (i.val < 128)

/-- Only a local channel is given its bits; a remote channel takes them from its frames. -/
def localBits (i : Fin 144) (bits : List Bool) : Bool := !isRemoteCh i || decide (bits = [])

/-- The command has the shape the spec gives it: word addresses (R4, R10), an unlisted code or 0xFF for BYPASS (R49), each
unit and latch tested once (R306, R327), 1 to 16 words of a Ground request (R153), 25 cells of a frame (R174, R175), 8 outputs
of each half of a self-calibration (R186), 8 new bits of a local sinc2 output (R191), one FoM for each CTLE code tried (R345),
one sign for each of five taps (R346), and payload lengths (R259, R367). -/
def Instr.wf : Instr → Bool
  | .registerWrite _ addr _ _ => word addr
  | .satClear _ addr _ _ => word addr
  | .porstAssert _ => true
  | .porstRelease _ _ _ _ => true
  | .strapSecondSample _ => true
  | .bootRomStart _ => true
  | .gatePadPowerOn => true
  | .railUndervoltage _ => true
  | .railRecovery _ => true
  | .regionRailCrossing _ _ => true
  | .avsVoltageWrite _ _ _ => true
  | .avsStatusRead _ _ _ => true
  | .laneRefLoss _ _ => true
  | .jtagExtest => true
  | .jtagSamplePreload _ => true
  | .jtagClamp => true
  | .jtagHighz => true
  | .jtagIdcode => true
  | .jtagBypass code => decide (3 < code.toNat) && decide (code.toNat ≠ 0xFE)
  | .overtempStop => true
  | .periodBoundary _ => true
  | .commitGuardTick _ => true
  | .xtalEdgeTimeout => true
  | .xtalWindowEnd _ => true
  | .iodPllUnlock => true
  | .regionPllUnlock _ _ => true
  | .tbTimeSnapshot _ _ => true
  | .flashDiscovery _ => true
  | .stage1Verify _ => true
  | .iodsupVerify _ => true
  | .prickingCopyCheck _ _ => true
  | .firmwareSlotCheck _ => true
  | .prickingApply _ _ tests => decide (tests.units.map (·.1)).Nodup && decide (tests.latches.map (·.1)).Nodup
  | .revokeFuseBurn _ _ => true
  | .laneWindowClose => true
  | .membershipWindowClose => true
  | .bootRecordWrite _ => true
  | .romSelfCheck _ _ => true
  | .fwFallback _ _ => true
  | .slotConfirm _ => true
  | .rewriteSectorDone _ => true
  | .fzTwait _ _ _ => true
  | .fzTpost _ _ _ _ _ => true
  | .fzTcancel _ _ _ _ => true
  | .fzLock _ _ _ _ => true
  | .fzUnlock _ _ _ _ => true
  | .fzCommit _ _ _ _ _ => true
  | .delayExpiry _ _ => true
  | .taskWatchdog _ _ => true
  | .coreFault _ _ _ _ _ => true
  | .coreLocksBroken _ _ => true
  | .coreRestart _ _ => true
  | .coreLoad _ _ _ _ _ _ _ => true
  | .coreStore _ _ _ _ _ _ _ _ => true
  | .coreAtomic _ _ _ _ _ _ _ => true
  | .scrubRead _ _ _ _ => true
  | .bobbinParityError _ _ => true
  | .lockParityError _ => true
  | .groundRequest _ _ _ words _ _ _ _ => decide (words.val ≠ 0)
  | .groundGrant _ _ _ => true
  | .requestCapped _ _ _ _ => true
  | .gndLongClr _ _ => true
  | .senseFrame _ samples _ => decide (samples.length = 200)
  | .faultDash _ => true
  | .dashEnd _ => true
  | .modulatorOverload _ => true
  | .decimatorOutput i bits _ => localBits i bits
  | .auxOutput _ => true
  | .openWireTestStart _ => true
  | .openWireTestEnd _ => true
  | .measCalReq _ _ => true
  | .calPeriodExpiry _ => true
  | .selfCalEnd _ zeros refs => decide (zeros.length = 640) && decide (refs.length = 640)
  | .sinc2Output i bits => localBits i bits && decide (isRemoteCh i ∨ bits.length = 8)
  | .measInjTrig _ _ => true
  | .injWindowEnd _ => true
  | .cleRunStart _ _ => true
  | .cleNop _ _ _ => true
  | .cleClr _ _ _ => true
  | .cleLdi _ _ _ => true
  | .cleMac _ _ _ => true
  | .cleAdd _ _ _ => true
  | .cleAddi _ _ _ => true
  | .cleSti _ _ _ => true
  | .clePre _ _ _ => true
  | .cleWb _ _ _ => true
  | .cleFbk _ _ _ => true
  | .cleMov _ _ _ => true
  | .cleGet _ _ _ _ _ => true
  | .clePut _ _ _ _ _ => true
  | .cleOut _ _ _ _ => true
  | .cleEnd _ _ _ _ => true
  | .loopRelease _ _ _ => true
  | .cleFault _ _ _ => true
  | .cleRunMaxClr _ _ => true
  | .ladderBuild _ _ => true
  | .balReinstate _ _ => true
  | .levelQuantiser _ _ _ => true
  | .thresholdDeadline _ => true
  | .healthEvaluation _ => true
  | .gateEdge _ _ => true
  | .carrierCycleStart _ => true
  | .carrierMidReload _ => true
  | .syncInEdge _ => true
  | .syncWindowClose => true
  | .echoWatchTimeout _ => true
  | .tmrMismatch _ _ => true
  | .genDis _ _ _ => true
  | .tripInEdge _ _ _ => true
  | .bosQuietTimeout => true
  | .tripFwSet _ _ => true
  | .tripFwClr _ _ => true
  | .tripClr _ _ => true
  | .bypassTurnOn _ => true
  | .tripRecordWrite => true
  | .latchTmrMismatch _ _ => true
  | .bosRepeat => true
  | .laneTrainStart _ => true
  | .laneCdrLock _ => true
  | .laneEqSearchDone _ foms => decide (0 < foms.length) && decide (foms.length ≤ 16)
  | .laneAlignWindowEnd _ _ _ => true
  | .trainingWord _ _ _ _ _ _ _ _ => true
  | .pcsLinkUp _ => true
  | .laneAttemptTimeout _ => true
  | .signalDetectLoss _ => true
  | .signalDetectRise _ => true
  | .laneBackoffEnd _ => true
  | .laneAbsentPoll _ => true
  | .laneFomMeasure _ _ _ => true
  | .dfeUpdate _ signs => decide (signs.length = 5) && signs.all (fun z => decide (z.natAbs ≤ 1))
  | .laneAlignLoss _ _ => true
  | .quadPllUnlock _ _ => true
  | .laneRetrain _ _ => true
  | .laneBitslip _ _ => true
  | .laneRtClr _ _ _ => true
  | .laneTxSleep _ _ _ => true
  | .laneRxSleep _ _ _ => true
  | .laneRxRelock _ _ _ _ => true
  | .laneLoopback _ _ _ => true
  | .lanePrbs _ _ _ => true
  | .cycle _ _ _ _ => true
  | .ref _ _ ws => decide (0 < ws.length) && decide (ws.length ≤ 64)
  | .threshold _ _ _ => true
  | .ladder _ _ p => decide (p.keys.length = 128)
  | .status _ _ _ => true
  | .health _ _ _ es => decide (es.length ≤ 24)
  | .bulk _ _ bytes => decide (bytes.length ≤ 2048)
  | .join _ _ _ _ => true
  | .accept _ _ _ _ => true
  | .refuse _ _ _ _ => true
  | .leave _ _ _ _ => true
  | .blockOrderSet _ => true
  | .bondMarker _ _ _ _ => true
  | .slotStart _ _ _ => true
  | .openFrameSend _ _ _ => true
  | .bulkFrameSend _ _ => true
  | .markerDue _ => true
  | .routeExpiry _ => true
  | .joinStart => true
  | .joinRetry => true
  | .refusedRetry => true
  | .membershipTimeout => true
  | .memberTimeout _ _ => true
  | .ethFrameReceive _ _ _ => true
  | .read _ _ _ _ => true
  | .readSignal _ _ => true
  | .identity _ _ _ => true
  | .attest _ _ => true
  | .deliverBegin _ _ _ => true
  | .deliverData _ _ _ => true
  | .deliverEnd _ _ _ _ => true
  | .deliverStat _ => true
  | .deliveryTimeout _ => true
  | .prpSupervisionSend _ _ => true
  | .prpSupervisionFrame _ => true
  | .duplicateEntryExpiry _ => true
  | .svFrame _ => true
  | .gooseSend _ _ _ => true
  | .gooseRepeat _ _ => true
  | .gooseFrame _ => true
  | .gooseStale _ => true
  | .ptpSync _ _ _ _ _ _ _ => true
  | .ptpFollowUp _ _ _ _ _ => true
  | .ptpPdelayReq _ _ _ _ _ _ _ => true
  | .ptpPdelayResp _ _ _ _ _ _ _ => true
  | .ptpPdelayRespFollowUp _ _ _ _ _ => true
  | .ptpAnnounce _ _ => true
  | .ptpManagement _ => true
  | .ptpSyncSend _ _ _ => true
  | .ptpAnnounceSend _ _ => true
  | .ptpPdelayReqSend _ _ _ => true
  | .ptpAnnounceTimeout _ => true
  | .ptpSyncTimeout _ => true
  | .nolriSourceLoss => true
  | .servoHoldoverExpiry _ => true
  | .picotPulseStart _ => true
  | .picotPulseEnd _ => true
  | .cpmEmergency _ _ _ => true
  | .avsUpdate _ _ _ _ => true
  | .freqStepDone _ _ => true
  | .sensorConversion _ _ => true
  | .thermalCapLift _ _ => true
  | .placementEval _ => true
  | .spareSelfTest _ _ => true
  | .substReapplyDone _ _ => true
  | .substStateCopyDone _ => true
  | .couchStart => true
  | .couchStreamDone _ _ => true
  | .fullPassDone _ => true
  | .fullPassTimeout => true
  | .dieSelfCheckVerdict _ _ => true
  | .roleChange => true
  | .brideCrcFault _ => true
  | .heartbeatFault _ => true
  | .dieRejoinReset _ => true
  | .dieRejoinReady _ _ => true
  | .rejoinTimeout _ => true
  | .spareBankCopyDone _ _ => true
  | .ceWindowEnd _ => true
  | .stopHalt => true
  | .logRecordWrite _ => true
  | .redCntClr _ _ => true
  | .lastRailInTolerance => true
  | .deviceEpoch => true
  | .syncOutPulseEnd => true
  | .prbsCheckerLock _ _ _ => true
  | .nolriFrameBad _ _ => true
  | .attestReportSigned _ => true
  | .maintRequestAnswered _ _ => true

/-- The die a command names: the one whose unit it concerns, or whose firmware gives it. -/
def Instr.die? : Instr → Option Die
  | .registerWrite d _ _ _ => some d
  | .satClear d _ _ _ => some d
  | .porstAssert _ => none
  | .porstRelease _ _ _ _ => none
  | .strapSecondSample _ => none
  | .bootRomStart _ => none
  | .gatePadPowerOn => none
  | .railUndervoltage _ => none
  | .railRecovery _ => none
  | .regionRailCrossing d _ => some d
  | .avsVoltageWrite d _ _ => some d
  | .avsStatusRead d _ _ => some d
  | .laneRefLoss _ _ => none
  | .jtagExtest => none
  | .jtagSamplePreload _ => none
  | .jtagClamp => none
  | .jtagHighz => none
  | .jtagIdcode => none
  | .jtagBypass _ => none
  | .overtempStop => none
  | .periodBoundary _ => none
  | .commitGuardTick _ => none
  | .xtalEdgeTimeout => none
  | .xtalWindowEnd _ => none
  | .iodPllUnlock => none
  | .regionPllUnlock d _ => some d
  | .tbTimeSnapshot d _ => some d
  | .flashDiscovery _ => none
  | .stage1Verify _ => none
  | .iodsupVerify _ => none
  | .prickingCopyCheck _ _ => none
  | .firmwareSlotCheck _ => none
  | .prickingApply _ _ _ => none
  | .revokeFuseBurn _ _ => none
  | .laneWindowClose => none
  | .membershipWindowClose => none
  | .bootRecordWrite _ => none
  | .romSelfCheck d _ => some d
  | .fwFallback d _ => some d
  | .slotConfirm _ => none
  | .rewriteSectorDone _ => none
  | .fzTwait d _ _ => some d
  | .fzTpost d _ _ _ _ => some d
  | .fzTcancel d _ _ _ => some d
  | .fzLock d _ _ _ => some d
  | .fzUnlock d _ _ _ => some d
  | .fzCommit d _ _ _ _ => some d
  | .delayExpiry d _ => some d
  | .taskWatchdog d _ => some d
  | .coreFault d _ _ _ _ => some d
  | .coreLocksBroken d _ => some d
  | .coreRestart d _ => some d
  | .coreLoad d _ _ _ _ _ _ => some d
  | .coreStore d _ _ _ _ _ _ _ => some d
  | .coreAtomic d _ _ _ _ _ _ => some d
  | .scrubRead d _ _ _ => some d
  | .bobbinParityError d _ => some d
  | .lockParityError d => some d
  | .groundRequest d _ _ _ _ _ _ _ => some d
  | .groundGrant d _ _ => some d
  | .requestCapped d _ _ _ => some d
  | .gndLongClr d _ => some d
  | .senseFrame _ _ _ => none
  | .faultDash _ => none
  | .dashEnd _ => none
  | .modulatorOverload _ => none
  | .decimatorOutput _ _ _ => none
  | .auxOutput _ => none
  | .openWireTestStart _ => none
  | .openWireTestEnd _ => none
  | .measCalReq d _ => some d
  | .calPeriodExpiry _ => none
  | .selfCalEnd _ _ _ => none
  | .sinc2Output _ _ => none
  | .measInjTrig d _ => some d
  | .injWindowEnd _ => none
  | .cleRunStart d _ => some d
  | .cleNop d _ _ => some d
  | .cleClr d _ _ => some d
  | .cleLdi d _ _ => some d
  | .cleMac d _ _ => some d
  | .cleAdd d _ _ => some d
  | .cleAddi d _ _ => some d
  | .cleSti d _ _ => some d
  | .clePre d _ _ => some d
  | .cleWb d _ _ => some d
  | .cleFbk d _ _ => some d
  | .cleMov d _ _ => some d
  | .cleGet d _ _ _ _ => some d
  | .clePut d _ _ _ _ => some d
  | .cleOut d _ _ _ => some d
  | .cleEnd d _ _ _ => some d
  | .loopRelease d _ _ => some d
  | .cleFault d _ _ => some d
  | .cleRunMaxClr d _ => some d
  | .ladderBuild d _ => some d
  | .balReinstate d _ => some d
  | .levelQuantiser d _ _ => some d
  | .thresholdDeadline d => some d
  | .healthEvaluation d => some d
  | .gateEdge _ _ => none
  | .carrierCycleStart _ => none
  | .carrierMidReload _ => none
  | .syncInEdge _ => none
  | .syncWindowClose => none
  | .echoWatchTimeout _ => none
  | .tmrMismatch _ _ => none
  | .genDis d _ _ => some d
  | .tripInEdge _ _ _ => none
  | .bosQuietTimeout => none
  | .tripFwSet d _ => some d
  | .tripFwClr d _ => some d
  | .tripClr d _ => some d
  | .bypassTurnOn _ => none
  | .tripRecordWrite => none
  | .latchTmrMismatch _ _ => none
  | .bosRepeat => none
  | .laneTrainStart _ => none
  | .laneCdrLock _ => none
  | .laneEqSearchDone _ _ => none
  | .laneAlignWindowEnd _ _ _ => none
  | .trainingWord _ _ _ _ _ _ _ _ => none
  | .pcsLinkUp _ => none
  | .laneAttemptTimeout _ => none
  | .signalDetectLoss _ => none
  | .signalDetectRise _ => none
  | .laneBackoffEnd _ => none
  | .laneAbsentPoll _ => none
  | .laneFomMeasure _ _ _ => none
  | .dfeUpdate _ _ => none
  | .laneAlignLoss _ _ => none
  | .quadPllUnlock _ _ => none
  | .laneRetrain d _ => some d
  | .laneBitslip d _ => some d
  | .laneRtClr d _ _ => some d
  | .laneTxSleep d _ _ => some d
  | .laneRxSleep d _ _ => some d
  | .laneRxRelock _ _ _ _ => none
  | .laneLoopback d _ _ => some d
  | .lanePrbs d _ _ => some d
  | .cycle _ _ _ _ => none
  | .ref _ _ _ => none
  | .threshold _ _ _ => none
  | .ladder _ _ _ => none
  | .status _ _ _ => none
  | .health _ _ _ _ => none
  | .bulk _ _ _ => none
  | .join _ _ _ _ => none
  | .accept _ _ _ _ => none
  | .refuse _ _ _ _ => none
  | .leave _ _ _ _ => none
  | .blockOrderSet _ => none
  | .bondMarker _ _ _ _ => none
  | .slotStart _ _ _ => none
  | .openFrameSend _ _ _ => none
  | .bulkFrameSend _ _ => none
  | .markerDue _ => none
  | .routeExpiry _ => none
  | .joinStart => none
  | .joinRetry => none
  | .refusedRetry => none
  | .membershipTimeout => none
  | .memberTimeout _ _ => none
  | .ethFrameReceive _ _ _ => none
  | .read _ _ _ _ => none
  | .readSignal _ _ => none
  | .identity _ _ _ => none
  | .attest _ _ => none
  | .deliverBegin _ _ _ => none
  | .deliverData _ _ _ => none
  | .deliverEnd _ _ _ _ => none
  | .deliverStat _ => none
  | .deliveryTimeout _ => none
  | .prpSupervisionSend _ _ => none
  | .prpSupervisionFrame _ => none
  | .duplicateEntryExpiry _ => none
  | .svFrame _ => none
  | .gooseSend d _ _ => some d
  | .gooseRepeat _ _ => none
  | .gooseFrame _ => none
  | .gooseStale _ => none
  | .ptpSync _ _ _ _ _ _ _ => none
  | .ptpFollowUp _ _ _ _ _ => none
  | .ptpPdelayReq _ _ _ _ _ _ _ => none
  | .ptpPdelayResp _ _ _ _ _ _ _ => none
  | .ptpPdelayRespFollowUp _ _ _ _ _ => none
  | .ptpAnnounce _ _ => none
  | .ptpManagement _ => none
  | .ptpSyncSend _ _ _ => none
  | .ptpAnnounceSend _ _ => none
  | .ptpPdelayReqSend _ _ _ => none
  | .ptpAnnounceTimeout _ => none
  | .ptpSyncTimeout _ => none
  | .nolriSourceLoss => none
  | .servoHoldoverExpiry _ => none
  | .picotPulseStart _ => none
  | .picotPulseEnd _ => none
  | .cpmEmergency d _ _ => some d
  | .avsUpdate d _ _ _ => some d
  | .freqStepDone d _ => some d
  | .sensorConversion _ _ => none
  | .thermalCapLift d _ => some d
  | .placementEval d => some d
  | .spareSelfTest d _ => some d
  | .substReapplyDone d _ => some d
  | .substStateCopyDone d => some d
  | .couchStart => none
  | .couchStreamDone _ _ => none
  | .fullPassDone _ => none
  | .fullPassTimeout => none
  | .dieSelfCheckVerdict _ _ => none
  | .roleChange => none
  | .brideCrcFault d => some d
  | .heartbeatFault d => some d
  | .dieRejoinReset d => some d
  | .dieRejoinReady d _ => some d
  | .rejoinTimeout d => some d
  | .spareBankCopyDone d _ => some d
  | .ceWindowEnd d => some d
  | .stopHalt => none
  | .logRecordWrite _ => none
  | .redCntClr d _ => some d
  | .lastRailInTolerance => none
  | .deviceEpoch => none
  | .syncOutPulseEnd => none
  | .prbsCheckerLock _ _ _ => none
  | .nolriFrameBad _ _ => none
  | .attestReportSigned _ => none
  | .maintRequestAnswered _ _ => none

/-- The commands that firmware gives: writes, loads and stores, and the vendor instructions of the cores (R4, R131). -/
def Instr.firmware : Instr → Bool
  | .registerWrite _ _ _ _ => true
  | .satClear _ _ _ _ => true
  | .porstAssert _ => false
  | .porstRelease _ _ _ _ => false
  | .strapSecondSample _ => false
  | .bootRomStart _ => false
  | .gatePadPowerOn => false
  | .railUndervoltage _ => false
  | .railRecovery _ => false
  | .regionRailCrossing _ _ => false
  | .avsVoltageWrite _ _ _ => false
  | .avsStatusRead _ _ _ => false
  | .laneRefLoss _ _ => false
  | .jtagExtest => false
  | .jtagSamplePreload _ => false
  | .jtagClamp => false
  | .jtagHighz => false
  | .jtagIdcode => false
  | .jtagBypass _ => false
  | .overtempStop => false
  | .periodBoundary _ => false
  | .commitGuardTick _ => false
  | .xtalEdgeTimeout => false
  | .xtalWindowEnd _ => false
  | .iodPllUnlock => false
  | .regionPllUnlock _ _ => false
  | .tbTimeSnapshot _ _ => false
  | .flashDiscovery _ => false
  | .stage1Verify _ => false
  | .iodsupVerify _ => false
  | .prickingCopyCheck _ _ => false
  | .firmwareSlotCheck _ => false
  | .prickingApply _ _ _ => false
  | .revokeFuseBurn _ _ => false
  | .laneWindowClose => false
  | .membershipWindowClose => false
  | .bootRecordWrite _ => false
  | .romSelfCheck _ _ => false
  | .fwFallback _ _ => true
  | .slotConfirm _ => false
  | .rewriteSectorDone _ => false
  | .fzTwait _ _ _ => true
  | .fzTpost _ _ _ _ _ => true
  | .fzTcancel _ _ _ _ => true
  | .fzLock _ _ _ _ => true
  | .fzUnlock _ _ _ _ => true
  | .fzCommit _ _ _ _ _ => true
  | .delayExpiry _ _ => false
  | .taskWatchdog _ _ => false
  | .coreFault _ _ _ _ _ => false
  | .coreLocksBroken _ _ => false
  | .coreRestart _ _ => false
  | .coreLoad _ _ _ _ _ _ _ => true
  | .coreStore _ _ _ _ _ _ _ _ => true
  | .coreAtomic _ _ _ _ _ _ _ => true
  | .scrubRead _ _ _ _ => false
  | .bobbinParityError _ _ => false
  | .lockParityError _ => false
  | .groundRequest _ _ _ _ _ _ _ _ => false
  | .groundGrant _ _ _ => false
  | .requestCapped _ _ _ _ => false
  | .gndLongClr _ _ => true
  | .senseFrame _ _ _ => false
  | .faultDash _ => false
  | .dashEnd _ => false
  | .modulatorOverload _ => false
  | .decimatorOutput _ _ _ => false
  | .auxOutput _ => false
  | .openWireTestStart _ => false
  | .openWireTestEnd _ => false
  | .measCalReq _ _ => true
  | .calPeriodExpiry _ => false
  | .selfCalEnd _ _ _ => false
  | .sinc2Output _ _ => false
  | .measInjTrig _ _ => true
  | .injWindowEnd _ => false
  | .cleRunStart _ _ => false
  | .cleNop _ _ _ => false
  | .cleClr _ _ _ => false
  | .cleLdi _ _ _ => false
  | .cleMac _ _ _ => false
  | .cleAdd _ _ _ => false
  | .cleAddi _ _ _ => false
  | .cleSti _ _ _ => false
  | .clePre _ _ _ => false
  | .cleWb _ _ _ => false
  | .cleFbk _ _ _ => false
  | .cleMov _ _ _ => false
  | .cleGet _ _ _ _ _ => false
  | .clePut _ _ _ _ _ => false
  | .cleOut _ _ _ _ => false
  | .cleEnd _ _ _ _ => false
  | .loopRelease _ _ _ => true
  | .cleFault _ _ _ => false
  | .cleRunMaxClr _ _ => true
  | .ladderBuild _ _ => false
  | .balReinstate _ _ => true
  | .levelQuantiser _ _ _ => false
  | .thresholdDeadline _ => false
  | .healthEvaluation _ => false
  | .gateEdge _ _ => false
  | .carrierCycleStart _ => false
  | .carrierMidReload _ => false
  | .syncInEdge _ => false
  | .syncWindowClose => false
  | .echoWatchTimeout _ => false
  | .tmrMismatch _ _ => false
  | .genDis _ _ _ => true
  | .tripInEdge _ _ _ => false
  | .bosQuietTimeout => false
  | .tripFwSet _ _ => true
  | .tripFwClr _ _ => true
  | .tripClr _ _ => true
  | .bypassTurnOn _ => false
  | .tripRecordWrite => false
  | .latchTmrMismatch _ _ => false
  | .bosRepeat => false
  | .laneTrainStart _ => false
  | .laneCdrLock _ => false
  | .laneEqSearchDone _ _ => false
  | .laneAlignWindowEnd _ _ _ => false
  | .trainingWord _ _ _ _ _ _ _ _ => false
  | .pcsLinkUp _ => false
  | .laneAttemptTimeout _ => false
  | .signalDetectLoss _ => false
  | .signalDetectRise _ => false
  | .laneBackoffEnd _ => false
  | .laneAbsentPoll _ => false
  | .laneFomMeasure _ _ _ => false
  | .dfeUpdate _ _ => false
  | .laneAlignLoss _ _ => false
  | .quadPllUnlock _ _ => false
  | .laneRetrain _ _ => true
  | .laneBitslip _ _ => true
  | .laneRtClr _ _ _ => true
  | .laneTxSleep _ _ _ => true
  | .laneRxSleep _ _ _ => true
  | .laneRxRelock _ _ _ _ => false
  | .laneLoopback _ _ _ => true
  | .lanePrbs _ _ _ => true
  | .cycle _ _ _ _ => false
  | .ref _ _ _ => false
  | .threshold _ _ _ => false
  | .ladder _ _ _ => false
  | .status _ _ _ => false
  | .health _ _ _ _ => false
  | .bulk _ _ _ => false
  | .join _ _ _ _ => false
  | .accept _ _ _ _ => false
  | .refuse _ _ _ _ => false
  | .leave _ _ _ _ => false
  | .blockOrderSet _ => false
  | .bondMarker _ _ _ _ => false
  | .slotStart _ _ _ => false
  | .openFrameSend _ _ _ => false
  | .bulkFrameSend _ _ => false
  | .markerDue _ => false
  | .routeExpiry _ => false
  | .joinStart => false
  | .joinRetry => false
  | .refusedRetry => false
  | .membershipTimeout => false
  | .memberTimeout _ _ => false
  | .ethFrameReceive _ _ _ => false
  | .read _ _ _ _ => false
  | .readSignal _ _ => false
  | .identity _ _ _ => false
  | .attest _ _ => false
  | .deliverBegin _ _ _ => false
  | .deliverData _ _ _ => false
  | .deliverEnd _ _ _ _ => false
  | .deliverStat _ => false
  | .deliveryTimeout _ => false
  | .prpSupervisionSend _ _ => false
  | .prpSupervisionFrame _ => false
  | .duplicateEntryExpiry _ => false
  | .svFrame _ => false
  | .gooseSend _ _ _ => true
  | .gooseRepeat _ _ => false
  | .gooseFrame _ => false
  | .gooseStale _ => false
  | .ptpSync _ _ _ _ _ _ _ => false
  | .ptpFollowUp _ _ _ _ _ => false
  | .ptpPdelayReq _ _ _ _ _ _ _ => false
  | .ptpPdelayResp _ _ _ _ _ _ _ => false
  | .ptpPdelayRespFollowUp _ _ _ _ _ => false
  | .ptpAnnounce _ _ => false
  | .ptpManagement _ => false
  | .ptpSyncSend _ _ _ => false
  | .ptpAnnounceSend _ _ => false
  | .ptpPdelayReqSend _ _ _ => false
  | .ptpAnnounceTimeout _ => false
  | .ptpSyncTimeout _ => false
  | .nolriSourceLoss => false
  | .servoHoldoverExpiry _ => false
  | .picotPulseStart _ => false
  | .picotPulseEnd _ => false
  | .cpmEmergency _ _ _ => false
  | .avsUpdate _ _ _ _ => false
  | .freqStepDone _ _ => false
  | .sensorConversion _ _ => false
  | .thermalCapLift _ _ => false
  | .placementEval _ => false
  | .spareSelfTest _ _ => false
  | .substReapplyDone _ _ => false
  | .substStateCopyDone _ => false
  | .couchStart => false
  | .couchStreamDone _ _ => false
  | .fullPassDone _ => false
  | .fullPassTimeout => false
  | .dieSelfCheckVerdict _ _ => false
  | .roleChange => false
  | .brideCrcFault _ => false
  | .heartbeatFault _ => false
  | .dieRejoinReset _ => false
  | .dieRejoinReady _ _ => false
  | .rejoinTimeout _ => false
  | .spareBankCopyDone _ _ => false
  | .ceWindowEnd _ => false
  | .stopHalt => false
  | .logRecordWrite _ => false
  | .redCntClr _ _ => true
  | .lastRailInTolerance => false
  | .deviceEpoch => false
  | .syncOutPulseEnd => false
  | .prbsCheckerLock _ _ _ => false
  | .nolriFrameBad _ _ => false
  | .attestReportSigned _ => false
  | .maintRequestAnswered _ _ => false

end Sys2Proof
end

