-- ==== Sys2Proof/Laws/PerInstr.lean ====
section
/-! SUPPORT. Facts about each command as syntax, one lemma per constructor: a command that firmware gives names the die whose
firmware gives it, so that the roles of R455 can be asked of it. -/

namespace Sys2Proof.Laws.Sender

/-- A firmware command names its die. -/
def Statement (i : Instr) : Prop := i.firmware = true → i.die?.isSome = true

theorem registerWrite (a0 : Die) (a1 : Word) (a2 : Word) (a3 : Bool) : Statement (.registerWrite a0 a1 a2 a3) := by
  exact fun _ => rfl
theorem satClear (a0 : Die) (a1 : Word) (a2 : Fin 32) (a3 : Nat) : Statement (.satClear a0 a1 a2 a3) := by
  exact fun _ => rfl
theorem porstAssert (a0 : Nat) : Statement (.porstAssert a0) := by
  intro h; cases h
theorem porstRelease (a0 : Bool) (a1 : Bool) (a2 : Bool) (a3 : BitVec 4) : Statement (.porstRelease a0 a1 a2 a3) := by
  intro h; cases h
theorem strapSecondSample (a0 : Bool) : Statement (.strapSecondSample a0) := by
  intro h; cases h
theorem bootRomStart (a0 : Bool) : Statement (.bootRomStart a0) := by
  intro h; cases h
theorem gatePadPowerOn : Statement (.gatePadPowerOn) := by
  intro h; cases h
theorem railUndervoltage (a0 : IodRail) : Statement (.railUndervoltage a0) := by
  intro h; cases h
theorem railRecovery (a0 : IodRail) : Statement (.railRecovery a0) := by
  intro h; cases h
theorem regionRailCrossing (a0 : Die) (a1 : Region) : Statement (.regionRailCrossing a0 a1) := by
  intro h; cases h
theorem avsVoltageWrite (a0 : Die) (a1 : Region) (a2 : AvsAnswer) : Statement (.avsVoltageWrite a0 a1 a2) := by
  intro h; cases h
theorem avsStatusRead (a0 : Die) (a1 : Region) (a2 : AvsAnswer) : Statement (.avsStatusRead a0 a1 a2) := by
  intro h; cases h
theorem laneRefLoss (a0 : Fin 2) (a1 : Bool) : Statement (.laneRefLoss a0 a1) := by
  intro h; cases h
theorem jtagExtest : Statement (.jtagExtest) := by
  intro h; cases h
theorem jtagSamplePreload (a0 : BoundaryPins) : Statement (.jtagSamplePreload a0) := by
  intro h; cases h
theorem jtagClamp : Statement (.jtagClamp) := by
  intro h; cases h
theorem jtagHighz : Statement (.jtagHighz) := by
  intro h; cases h
theorem jtagIdcode : Statement (.jtagIdcode) := by
  intro h; cases h
theorem jtagBypass (a0 : Byte) : Statement (.jtagBypass a0) := by
  intro h; cases h
theorem overtempStop : Statement (.overtempStop) := by
  intro h; cases h
theorem periodBoundary (a0 : List (Fin 128 × Nat)) : Statement (.periodBoundary a0) := by
  intro h; cases h
theorem commitGuardTick (a0 : List Word) : Statement (.commitGuardTick a0) := by
  intro h; cases h
theorem xtalEdgeTimeout : Statement (.xtalEdgeTimeout) := by
  intro h; cases h
theorem xtalWindowEnd (a0 : Nat) : Statement (.xtalWindowEnd a0) := by
  intro h; cases h
theorem iodPllUnlock : Statement (.iodPllUnlock) := by
  intro h; cases h
theorem regionPllUnlock (a0 : Die) (a1 : Region) : Statement (.regionPllUnlock a0 a1) := by
  intro h; cases h
theorem tbTimeSnapshot (a0 : Die) (a1 : Fin 13) : Statement (.tbTimeSnapshot a0 a1) := by
  intro h; cases h
theorem flashDiscovery (a0 : Option FlashTable) : Statement (.flashDiscovery a0) := by
  intro h; cases h
theorem stage1Verify (a0 : Bool) : Statement (.stage1Verify a0) := by
  intro h; cases h
theorem iodsupVerify (a0 : Bool) : Statement (.iodsupVerify a0) := by
  intro h; cases h
theorem prickingCopyCheck (a0 : Bool) (a1 : Bool) : Statement (.prickingCopyCheck a0 a1) := by
  intro h; cases h
theorem firmwareSlotCheck (a0 : BitVec 2) : Statement (.firmwareSlotCheck a0) := by
  intro h; cases h
theorem prickingApply (a0 : BitVec 2) (a1 : Bool) (a2 : ApplyTests) : Statement (.prickingApply a0 a1 a2) := by
  intro h; cases h
theorem revokeFuseBurn (a0 : Fin 4) (a1 : Bool) : Statement (.revokeFuseBurn a0 a1) := by
  intro h; cases h
theorem laneWindowClose : Statement (.laneWindowClose) := by
  intro h; cases h
theorem membershipWindowClose : Statement (.membershipWindowClose) := by
  intro h; cases h
theorem bootRecordWrite (a0 : Bool) : Statement (.bootRecordWrite a0) := by
  intro h; cases h
theorem romSelfCheck (a0 : Die) (a1 : Bool) : Statement (.romSelfCheck a0 a1) := by
  intro h; cases h
theorem fwFallback (a0 : Die) (a1 : Byte) : Statement (.fwFallback a0 a1) := by
  exact fun _ => rfl
theorem slotConfirm (a0 : Bool) : Statement (.slotConfirm a0) := by
  intro h; cases h
theorem rewriteSectorDone (a0 : Bool) : Statement (.rewriteSectorDone a0) := by
  intro h; cases h
theorem fzTwait (a0 : Die) (a1 : Fin 12) (a2 : Fin 32) : Statement (.fzTwait a0 a1 a2) := by
  exact fun _ => rfl
theorem fzTpost (a0 : Die) (a1 : Fin 12) (a2 : Fin 32) (a3 : Word) (a4 : Word) : Statement (.fzTpost a0 a1 a2 a3 a4) := by
  exact fun _ => rfl
theorem fzTcancel (a0 : Die) (a1 : Fin 12) (a2 : Fin 32) (a3 : Word) : Statement (.fzTcancel a0 a1 a2 a3) := by
  exact fun _ => rfl
theorem fzLock (a0 : Die) (a1 : Fin 12) (a2 : Fin 32) (a3 : Word) : Statement (.fzLock a0 a1 a2 a3) := by
  exact fun _ => rfl
theorem fzUnlock (a0 : Die) (a1 : Fin 12) (a2 : Fin 32) (a3 : Word) : Statement (.fzUnlock a0 a1 a2 a3) := by
  exact fun _ => rfl
theorem fzCommit (a0 : Die) (a1 : Fin 12) (a2 : Fin 32) (a3 : Word) (a4 : Bool) : Statement (.fzCommit a0 a1 a2 a3 a4) := by
  exact fun _ => rfl
theorem delayExpiry (a0 : Die) (a1 : Fin 4) : Statement (.delayExpiry a0 a1) := by
  intro h; cases h
theorem taskWatchdog (a0 : Die) (a1 : Fin 12) : Statement (.taskWatchdog a0 a1) := by
  intro h; cases h
theorem coreFault (a0 : Die) (a1 : Fin 12) (a2 : Byte) (a3 : Word) (a4 : Word) : Statement (.coreFault a0 a1 a2 a3 a4) := by
  intro h; cases h
theorem coreLocksBroken (a0 : Die) (a1 : Fin 12) : Statement (.coreLocksBroken a0 a1) := by
  intro h; cases h
theorem coreRestart (a0 : Die) (a1 : Fin 12) : Statement (.coreRestart a0 a1) := by
  intro h; cases h
theorem coreLoad (a0 : Die) (a1 : Fin 12) (a2 : Fin 32) (a3 : Word) (a4 : Width) (a5 : Ecc) (a6 : Bool) : Statement (.coreLoad a0 a1 a2 a3 a4 a5 a6) := by
  exact fun _ => rfl
theorem coreStore (a0 : Die) (a1 : Fin 12) (a2 : Word) (a3 : Width) (a4 : Word) (a5 : Ecc) (a6 : Bool) (a7 : List Byte) : Statement (.coreStore a0 a1 a2 a3 a4 a5 a6 a7) := by
  exact fun _ => rfl
theorem coreAtomic (a0 : Die) (a1 : Fin 12) (a2 : Fin 32) (a3 : AmoOp) (a4 : Word) (a5 : Word) (a6 : Ecc) : Statement (.coreAtomic a0 a1 a2 a3 a4 a5 a6) := by
  exact fun _ => rfl
theorem scrubRead (a0 : Die) (a1 : Region) (a2 : Word) (a3 : Ecc) : Statement (.scrubRead a0 a1 a2 a3) := by
  intro h; cases h
theorem bobbinParityError (a0 : Die) (a1 : Fin 4) : Statement (.bobbinParityError a0 a1) := by
  intro h; cases h
theorem lockParityError (a0 : Die) : Statement (.lockParityError a0) := by
  intro h; cases h
theorem groundRequest (a0 : Die) (a1 : Fin 38) (a2 : Fin 24) (a3 : Fin 17) (a4 : Nat) (a5 : Xfer) (a6 : Bool) (a7 : List (Nat × Ecc)) : Statement (.groundRequest a0 a1 a2 a3 a4 a5 a6 a7) := by
  intro h; cases h
theorem groundGrant (a0 : Die) (a1 : Fin 38) (a2 : Nat) : Statement (.groundGrant a0 a1 a2) := by
  intro h; cases h
theorem requestCapped (a0 : Die) (a1 : Fin 38) (a2 : Fin 24) (a3 : Nat) : Statement (.requestCapped a0 a1 a2 a3) := by
  intro h; cases h
theorem gndLongClr (a0 : Die) (a1 : BitVec 24) : Statement (.gndLongClr a0 a1) := by
  exact fun _ => rfl
theorem senseFrame (a0 : Fin 128) (a1 : List Bool) (a2 : Bool) : Statement (.senseFrame a0 a1 a2) := by
  intro h; cases h
theorem faultDash (a0 : Fin 128) : Statement (.faultDash a0) := by
  intro h; cases h
theorem dashEnd (a0 : Fin 128) : Statement (.dashEnd a0) := by
  intro h; cases h
theorem modulatorOverload (a0 : Fin 144) : Statement (.modulatorOverload a0) := by
  intro h; cases h
theorem decimatorOutput (a0 : Fin 144) (a1 : List Bool) (a2 : Bool) : Statement (.decimatorOutput a0 a1 a2) := by
  intro h; cases h
theorem auxOutput (a0 : Fin 128) : Statement (.auxOutput a0) := by
  intro h; cases h
theorem openWireTestStart (a0 : Fin 16) : Statement (.openWireTestStart a0) := by
  intro h; cases h
theorem openWireTestEnd (a0 : Fin 16) : Statement (.openWireTestEnd a0) := by
  intro h; cases h
theorem measCalReq (a0 : Die) (a1 : BitVec 16) : Statement (.measCalReq a0 a1) := by
  exact fun _ => rfl
theorem calPeriodExpiry (a0 : Fin 16) : Statement (.calPeriodExpiry a0) := by
  intro h; cases h
theorem selfCalEnd (a0 : Fin 16) (a1 : List Bool) (a2 : List Bool) : Statement (.selfCalEnd a0 a1 a2) := by
  intro h; cases h
theorem sinc2Output (a0 : Fin 144) (a1 : List Bool) : Statement (.sinc2Output a0 a1) := by
  intro h; cases h
theorem measInjTrig (a0 : Die) (a1 : Fin 8) : Statement (.measInjTrig a0 a1) := by
  exact fun _ => rfl
theorem injWindowEnd (a0 : Fin 8) : Statement (.injWindowEnd a0) := by
  intro h; cases h
theorem cleRunStart (a0 : Die) (a1 : Fin 4) : Statement (.cleRunStart a0 a1) := by
  intro h; cases h
theorem cleNop (a0 : Die) (a1 : Fin 4) (a2 : Ecc) : Statement (.cleNop a0 a1 a2) := by
  intro h; cases h
theorem cleClr (a0 : Die) (a1 : Fin 4) (a2 : Ecc) : Statement (.cleClr a0 a1 a2) := by
  intro h; cases h
theorem cleLdi (a0 : Die) (a1 : Fin 4) (a2 : Ecc) : Statement (.cleLdi a0 a1 a2) := by
  intro h; cases h
theorem cleMac (a0 : Die) (a1 : Fin 4) (a2 : Ecc) : Statement (.cleMac a0 a1 a2) := by
  intro h; cases h
theorem cleAdd (a0 : Die) (a1 : Fin 4) (a2 : Ecc) : Statement (.cleAdd a0 a1 a2) := by
  intro h; cases h
theorem cleAddi (a0 : Die) (a1 : Fin 4) (a2 : Ecc) : Statement (.cleAddi a0 a1 a2) := by
  intro h; cases h
theorem cleSti (a0 : Die) (a1 : Fin 4) (a2 : Ecc) : Statement (.cleSti a0 a1 a2) := by
  intro h; cases h
theorem clePre (a0 : Die) (a1 : Fin 4) (a2 : Ecc) : Statement (.clePre a0 a1 a2) := by
  intro h; cases h
theorem cleWb (a0 : Die) (a1 : Fin 4) (a2 : Ecc) : Statement (.cleWb a0 a1 a2) := by
  intro h; cases h
theorem cleFbk (a0 : Die) (a1 : Fin 4) (a2 : Ecc) : Statement (.cleFbk a0 a1 a2) := by
  intro h; cases h
theorem cleMov (a0 : Die) (a1 : Fin 4) (a2 : Ecc) : Statement (.cleMov a0 a1 a2) := by
  intro h; cases h
theorem cleGet (a0 : Die) (a1 : Fin 4) (a2 : Ecc) (a3 : Nat) (a4 : Bool) : Statement (.cleGet a0 a1 a2 a3 a4) := by
  intro h; cases h
theorem clePut (a0 : Die) (a1 : Fin 4) (a2 : Ecc) (a3 : Nat) (a4 : Bool) : Statement (.clePut a0 a1 a2 a3 a4) := by
  intro h; cases h
theorem cleOut (a0 : Die) (a1 : Fin 4) (a2 : Ecc) (a3 : Bool) : Statement (.cleOut a0 a1 a2 a3) := by
  intro h; cases h
theorem cleEnd (a0 : Die) (a1 : Fin 4) (a2 : Bool) (a3 : Bool) : Statement (.cleEnd a0 a1 a2 a3) := by
  intro h; cases h
theorem loopRelease (a0 : Die) (a1 : Fin 4) (a2 : Fin 32) : Statement (.loopRelease a0 a1 a2) := by
  exact fun _ => rfl
theorem cleFault (a0 : Die) (a1 : Fin 4) (a2 : Byte) : Statement (.cleFault a0 a1 a2) := by
  intro h; cases h
theorem cleRunMaxClr (a0 : Die) (a1 : Fin 4) : Statement (.cleRunMaxClr a0 a1) := by
  exact fun _ => rfl
theorem ladderBuild (a0 : Die) (a1 : Bool) : Statement (.ladderBuild a0 a1) := by
  intro h; cases h
theorem balReinstate (a0 : Die) (a1 : Fin 128) : Statement (.balReinstate a0 a1) := by
  exact fun _ => rfl
theorem levelQuantiser (a0 : Die) (a1 : Fin 6) (a2 : Bool) : Statement (.levelQuantiser a0 a1 a2) := by
  intro h; cases h
theorem thresholdDeadline (a0 : Die) : Statement (.thresholdDeadline a0) := by
  intro h; cases h
theorem healthEvaluation (a0 : Die) : Statement (.healthEvaluation a0) := by
  intro h; cases h
theorem gateEdge (a0 : Fin 128) (a1 : Bool) : Statement (.gateEdge a0 a1) := by
  intro h; cases h
theorem carrierCycleStart (a0 : Fin 128) : Statement (.carrierCycleStart a0) := by
  intro h; cases h
theorem carrierMidReload (a0 : Fin 128) : Statement (.carrierMidReload a0) := by
  intro h; cases h
theorem syncInEdge (a0 : Nat) : Statement (.syncInEdge a0) := by
  intro h; cases h
theorem syncWindowClose : Statement (.syncWindowClose) := by
  intro h; cases h
theorem echoWatchTimeout (a0 : Fin 128) : Statement (.echoWatchTimeout a0) := by
  intro h; cases h
theorem tmrMismatch (a0 : Fin 128) (a1 : Fin 3) : Statement (.tmrMismatch a0 a1) := by
  intro h; cases h
theorem genDis (a0 : Die) (a1 : Fin 4) (a2 : Word) : Statement (.genDis a0 a1 a2) := by
  exact fun _ => rfl
theorem tripInEdge (a0 : Fin 8) (a1 : Bool) (a2 : Option Nat) : Statement (.tripInEdge a0 a1 a2) := by
  intro h; cases h
theorem bosQuietTimeout : Statement (.bosQuietTimeout) := by
  intro h; cases h
theorem tripFwSet (a0 : Die) (a1 : BitVec 16) : Statement (.tripFwSet a0 a1) := by
  exact fun _ => rfl
theorem tripFwClr (a0 : Die) (a1 : BitVec 16) : Statement (.tripFwClr a0 a1) := by
  exact fun _ => rfl
theorem tripClr (a0 : Die) (a1 : BitVec 16) : Statement (.tripClr a0 a1) := by
  exact fun _ => rfl
theorem bypassTurnOn (a0 : Fin 128) : Statement (.bypassTurnOn a0) := by
  intro h; cases h
theorem tripRecordWrite : Statement (.tripRecordWrite) := by
  intro h; cases h
theorem latchTmrMismatch (a0 : Fin 16) (a1 : Fin 3) : Statement (.latchTmrMismatch a0 a1) := by
  intro h; cases h
theorem bosRepeat : Statement (.bosRepeat) := by
  intro h; cases h
theorem laneTrainStart (a0 : Fin 32) : Statement (.laneTrainStart a0) := by
  intro h; cases h
theorem laneCdrLock (a0 : Fin 32) : Statement (.laneCdrLock a0) := by
  intro h; cases h
theorem laneEqSearchDone (a0 : Fin 32) (a1 : List Byte) : Statement (.laneEqSearchDone a0 a1) := by
  intro h; cases h
theorem laneAlignWindowEnd (a0 : Fin 32) (a1 : Bool) (a2 : Option Die) : Statement (.laneAlignWindowEnd a0 a1 a2) := by
  intro h; cases h
theorem trainingWord (a0 : Fin 32) (a1 : Byte) (a2 : Byte) (a3 : Byte) (a4 : Byte) (a5 : Byte) (a6 : Byte) (a7 : Byte) : Statement (.trainingWord a0 a1 a2 a3 a4 a5 a6 a7) := by
  intro h; cases h
theorem pcsLinkUp (a0 : Fin 32) : Statement (.pcsLinkUp a0) := by
  intro h; cases h
theorem laneAttemptTimeout (a0 : Fin 32) : Statement (.laneAttemptTimeout a0) := by
  intro h; cases h
theorem signalDetectLoss (a0 : Fin 32) : Statement (.signalDetectLoss a0) := by
  intro h; cases h
theorem signalDetectRise (a0 : Fin 32) : Statement (.signalDetectRise a0) := by
  intro h; cases h
theorem laneBackoffEnd (a0 : Fin 32) : Statement (.laneBackoffEnd a0) := by
  intro h; cases h
theorem laneAbsentPoll (a0 : Fin 32) : Statement (.laneAbsentPoll a0) := by
  intro h; cases h
theorem laneFomMeasure (a0 : Fin 32) (a1 : Nat) (a2 : Nat) : Statement (.laneFomMeasure a0 a1 a2) := by
  intro h; cases h
theorem dfeUpdate (a0 : Fin 32) (a1 : List Int) : Statement (.dfeUpdate a0 a1) := by
  intro h; cases h
theorem laneAlignLoss (a0 : Fin 32) (a1 : Nat) : Statement (.laneAlignLoss a0 a1) := by
  intro h; cases h
theorem quadPllUnlock (a0 : Fin 8) (a1 : Fin 2) : Statement (.quadPllUnlock a0 a1) := by
  intro h; cases h
theorem laneRetrain (a0 : Die) (a1 : Fin 32) : Statement (.laneRetrain a0 a1) := by
  exact fun _ => rfl
theorem laneBitslip (a0 : Die) (a1 : Fin 32) : Statement (.laneBitslip a0 a1) := by
  exact fun _ => rfl
theorem laneRtClr (a0 : Die) (a1 : Fin 32) (a2 : Nat) : Statement (.laneRtClr a0 a1 a2) := by
  exact fun _ => rfl
theorem laneTxSleep (a0 : Die) (a1 : Fin 32) (a2 : Bool) : Statement (.laneTxSleep a0 a1 a2) := by
  exact fun _ => rfl
theorem laneRxSleep (a0 : Die) (a1 : Fin 32) (a2 : Bool) : Statement (.laneRxSleep a0 a1 a2) := by
  exact fun _ => rfl
theorem laneRxRelock (a0 : Fin 32) (a1 : Bool) (a2 : Nat) (a3 : Nat) : Statement (.laneRxRelock a0 a1 a2 a3) := by
  intro h; cases h
theorem laneLoopback (a0 : Die) (a1 : Fin 32) (a2 : BitVec 3) : Statement (.laneLoopback a0 a1 a2) := by
  exact fun _ => rfl
theorem lanePrbs (a0 : Die) (a1 : Fin 32) (a2 : BitVec 3) : Statement (.lanePrbs a0 a1 a2) := by
  exact fun _ => rfl
theorem cycle (a0 : Fin 32) (a1 : NolHeader) (a2 : CyclePayload) (a3 : Nat) : Statement (.cycle a0 a1 a2 a3) := by
  intro h; cases h
theorem ref (a0 : Fin 32) (a1 : NolHeader) (a2 : List Word) : Statement (.ref a0 a1 a2) := by
  intro h; cases h
theorem threshold (a0 : Fin 32) (a1 : NolHeader) (a2 : ThresholdPayload) : Statement (.threshold a0 a1 a2) := by
  intro h; cases h
theorem ladder (a0 : Fin 32) (a1 : NolHeader) (a2 : LadderPayload) : Statement (.ladder a0 a1 a2) := by
  intro h; cases h
theorem status (a0 : Fin 32) (a1 : NolHeader) (a2 : StatusPayload) : Statement (.status a0 a1 a2) := by
  intro h; cases h
theorem health (a0 : Fin 32) (a1 : NolHeader) (a2 : Byte) (a3 : List HealthEntry) : Statement (.health a0 a1 a2 a3) := by
  intro h; cases h
theorem bulk (a0 : Fin 32) (a1 : NolHeader) (a2 : List Byte) : Statement (.bulk a0 a1 a2) := by
  intro h; cases h
theorem join (a0 : Fin 32) (a1 : NolHeader) (a2 : JoinPayload) (a3 : List JoinArrival) : Statement (.join a0 a1 a2 a3) := by
  intro h; cases h
theorem accept (a0 : Fin 32) (a1 : NolHeader) (a2 : BitVec 64) (a3 : Word) : Statement (.accept a0 a1 a2 a3) := by
  intro h; cases h
theorem refuse (a0 : Fin 32) (a1 : NolHeader) (a2 : BitVec 64) (a3 : Byte) : Statement (.refuse a0 a1 a2 a3) := by
  intro h; cases h
theorem leave (a0 : Fin 32) (a1 : NolHeader) (a2 : BitVec 64) (a3 : Byte) : Statement (.leave a0 a1 a2 a3) := by
  intro h; cases h
theorem blockOrderSet (a0 : Fin 32) : Statement (.blockOrderSet a0) := by
  intro h; cases h
theorem bondMarker (a0 : Fin 32) (a1 : Byte) (a2 : Byte) (a3 : Nat) : Statement (.bondMarker a0 a1 a2 a3) := by
  intro h; cases h
theorem slotStart (a0 : Fin 32) (a1 : Fin 32) (a2 : Bool) : Statement (.slotStart a0 a1 a2) := by
  intro h; cases h
theorem openFrameSend (a0 : Fin 32) (a1 : BitVec 4) (a2 : Bool) : Statement (.openFrameSend a0 a1 a2) := by
  intro h; cases h
theorem bulkFrameSend (a0 : Fin 32) (a1 : Bool) : Statement (.bulkFrameSend a0 a1) := by
  intro h; cases h
theorem markerDue (a0 : Fin 32) : Statement (.markerDue a0) := by
  intro h; cases h
theorem routeExpiry (a0 : Fin 32) : Statement (.routeExpiry a0) := by
  intro h; cases h
theorem joinStart : Statement (.joinStart) := by
  intro h; cases h
theorem joinRetry : Statement (.joinRetry) := by
  intro h; cases h
theorem refusedRetry : Statement (.refusedRetry) := by
  intro h; cases h
theorem membershipTimeout : Statement (.membershipTimeout) := by
  intro h; cases h
theorem memberTimeout (a0 : Fin 32) (a1 : Bool) : Statement (.memberTimeout a0 a1) := by
  intro h; cases h
theorem ethFrameReceive (a0 : Fin 4) (a1 : EthFrame) (a2 : Bool) : Statement (.ethFrameReceive a0 a1 a2) := by
  intro h; cases h
theorem read (a0 : MaintHeader) (a1 : Word) (a2 : BitVec 16) (a3 : Bool) : Statement (.read a0 a1 a2 a3) := by
  intro h; cases h
theorem readSignal (a0 : MaintHeader) (a1 : BitVec 16) : Statement (.readSignal a0 a1) := by
  intro h; cases h
theorem identity (a0 : MaintHeader) (a1 : Word) (a2 : BitVec 16) : Statement (.identity a0 a1 a2) := by
  intro h; cases h
theorem attest (a0 : MaintHeader) (a1 : BitVec 128) : Statement (.attest a0 a1) := by
  intro h; cases h
theorem deliverBegin (a0 : MaintHeader) (a1 : Byte) (a2 : Word) : Statement (.deliverBegin a0 a1 a2) := by
  intro h; cases h
theorem deliverData (a0 : MaintHeader) (a1 : Word) (a2 : List Byte) : Statement (.deliverData a0 a1 a2) := by
  intro h; cases h
theorem deliverEnd (a0 : MaintHeader) (a1 : Word) (a2 : Bool) (a3 : Bool) : Statement (.deliverEnd a0 a1 a2 a3) := by
  intro h; cases h
theorem deliverStat (a0 : MaintHeader) : Statement (.deliverStat a0) := by
  intro h; cases h
theorem deliveryTimeout (a0 : Bool) : Statement (.deliveryTimeout a0) := by
  intro h; cases h
theorem prpSupervisionSend (a0 : Fin 2) (a1 : Bool) : Statement (.prpSupervisionSend a0 a1) := by
  intro h; cases h
theorem prpSupervisionFrame (a0 : Fin 4) : Statement (.prpSupervisionFrame a0) := by
  intro h; cases h
theorem duplicateEntryExpiry (a0 : Fin 2) : Statement (.duplicateEntryExpiry a0) := by
  intro h; cases h
theorem svFrame (a0 : SvFrame) : Statement (.svFrame a0) := by
  intro h; cases h
theorem gooseSend (a0 : Die) (a1 : Fin 8) (a2 : Bool) : Statement (.gooseSend a0 a1 a2) := by
  exact fun _ => rfl
theorem gooseRepeat (a0 : Fin 8) (a1 : Bool) : Statement (.gooseRepeat a0 a1) := by
  intro h; cases h
theorem gooseFrame (a0 : GooseFrame) : Statement (.gooseFrame a0) := by
  intro h; cases h
theorem gooseStale (a0 : Fin 32) : Statement (.gooseStale a0) := by
  intro h; cases h
theorem ptpSync (a0 : Fin 4) (a1 : Byte) (a2 : BitVec 16) (a3 : Bool) (a4 : Int) (a5 : Int) (a6 : Int) : Statement (.ptpSync a0 a1 a2 a3 a4 a5 a6) := by
  intro h; cases h
theorem ptpFollowUp (a0 : Fin 4) (a1 : Byte) (a2 : BitVec 16) (a3 : Int) (a4 : Int) : Statement (.ptpFollowUp a0 a1 a2 a3 a4) := by
  intro h; cases h
theorem ptpPdelayReq (a0 : Fin 4) (a1 : Byte) (a2 : BitVec 16) (a3 : Int) (a4 : Int) (a5 : Int) (a6 : Bool) : Statement (.ptpPdelayReq a0 a1 a2 a3 a4 a5 a6) := by
  intro h; cases h
theorem ptpPdelayResp (a0 : Fin 4) (a1 : Byte) (a2 : BitVec 16) (a3 : Bool) (a4 : Int) (a5 : Int) (a6 : Int) : Statement (.ptpPdelayResp a0 a1 a2 a3 a4 a5 a6) := by
  intro h; cases h
theorem ptpPdelayRespFollowUp (a0 : Fin 4) (a1 : Byte) (a2 : BitVec 16) (a3 : Int) (a4 : Int) : Statement (.ptpPdelayRespFollowUp a0 a1 a2 a3 a4) := by
  intro h; cases h
theorem ptpAnnounce (a0 : Fin 4) (a1 : PtpAnnounceMsg) : Statement (.ptpAnnounce a0 a1) := by
  intro h; cases h
theorem ptpManagement (a0 : Fin 4) : Statement (.ptpManagement a0) := by
  intro h; cases h
theorem ptpSyncSend (a0 : Fin 4) (a1 : Nat) (a2 : Bool) : Statement (.ptpSyncSend a0 a1 a2) := by
  intro h; cases h
theorem ptpAnnounceSend (a0 : Fin 4) (a1 : Bool) : Statement (.ptpAnnounceSend a0 a1) := by
  intro h; cases h
theorem ptpPdelayReqSend (a0 : Fin 4) (a1 : Int) (a2 : Bool) : Statement (.ptpPdelayReqSend a0 a1 a2) := by
  intro h; cases h
theorem ptpAnnounceTimeout (a0 : Fin 4) : Statement (.ptpAnnounceTimeout a0) := by
  intro h; cases h
theorem ptpSyncTimeout (a0 : Fin 4) : Statement (.ptpSyncTimeout a0) := by
  intro h; cases h
theorem nolriSourceLoss : Statement (.nolriSourceLoss) := by
  intro h; cases h
theorem servoHoldoverExpiry (a0 : Bool) : Statement (.servoHoldoverExpiry a0) := by
  intro h; cases h
theorem picotPulseStart (a0 : Fin 8) : Statement (.picotPulseStart a0) := by
  intro h; cases h
theorem picotPulseEnd (a0 : Fin 8) : Statement (.picotPulseEnd a0) := by
  intro h; cases h
theorem cpmEmergency (a0 : Die) (a1 : Region) (a2 : CpmPath) : Statement (.cpmEmergency a0 a1 a2) := by
  intro h; cases h
theorem avsUpdate (a0 : Die) (a1 : Region) (a2 : BitVec 7) (a3 : BitVec 7) : Statement (.avsUpdate a0 a1 a2 a3) := by
  intro h; cases h
theorem freqStepDone (a0 : Die) (a1 : Region) : Statement (.freqStepDone a0 a1) := by
  intro h; cases h
theorem sensorConversion (a0 : Sensor) (a1 : BitVec 16) : Statement (.sensorConversion a0 a1) := by
  intro h; cases h
theorem thermalCapLift (a0 : Die) (a1 : Region) : Statement (.thermalCapLift a0 a1) := by
  intro h; cases h
theorem placementEval (a0 : Die) : Statement (.placementEval a0) := by
  intro h; cases h
theorem spareSelfTest (a0 : Die) (a1 : Bool) : Statement (.spareSelfTest a0 a1) := by
  intro h; cases h
theorem substReapplyDone (a0 : Die) (a1 : Bool) : Statement (.substReapplyDone a0 a1) := by
  intro h; cases h
theorem substStateCopyDone (a0 : Die) : Statement (.substStateCopyDone a0) := by
  intro h; cases h
theorem couchStart : Statement (.couchStart) := by
  intro h; cases h
theorem couchStreamDone (a0 : List Word) (a1 : List Word) : Statement (.couchStreamDone a0 a1) := by
  intro h; cases h
theorem fullPassDone (a0 : Bool) : Statement (.fullPassDone a0) := by
  intro h; cases h
theorem fullPassTimeout : Statement (.fullPassTimeout) := by
  intro h; cases h
theorem dieSelfCheckVerdict (a0 : Bool) (a1 : Bool) : Statement (.dieSelfCheckVerdict a0 a1) := by
  intro h; cases h
theorem roleChange : Statement (.roleChange) := by
  intro h; cases h
theorem brideCrcFault (a0 : Die) : Statement (.brideCrcFault a0) := by
  intro h; cases h
theorem heartbeatFault (a0 : Die) : Statement (.heartbeatFault a0) := by
  intro h; cases h
theorem dieRejoinReset (a0 : Die) : Statement (.dieRejoinReset a0) := by
  intro h; cases h
theorem dieRejoinReady (a0 : Die) (a1 : Bool) : Statement (.dieRejoinReady a0 a1) := by
  intro h; cases h
theorem rejoinTimeout (a0 : Die) : Statement (.rejoinTimeout a0) := by
  intro h; cases h
theorem spareBankCopyDone (a0 : Die) (a1 : Region) : Statement (.spareBankCopyDone a0 a1) := by
  intro h; cases h
theorem ceWindowEnd (a0 : Die) : Statement (.ceWindowEnd a0) := by
  intro h; cases h
theorem stopHalt : Statement (.stopHalt) := by
  intro h; cases h
theorem logRecordWrite (a0 : Bool) : Statement (.logRecordWrite a0) := by
  intro h; cases h
theorem redCntClr (a0 : Die) (a1 : Nat) : Statement (.redCntClr a0 a1) := by
  exact fun _ => rfl
theorem lastRailInTolerance : Statement (.lastRailInTolerance) := by
  intro h; cases h
theorem deviceEpoch : Statement (.deviceEpoch) := by
  intro h; cases h
theorem syncOutPulseEnd : Statement (.syncOutPulseEnd) := by
  intro h; cases h
theorem prbsCheckerLock (a0 : Fin 32) (a1 : List Bool) (a2 : Bool) : Statement (.prbsCheckerLock a0 a1 a2) := by
  intro h; cases h
theorem nolriFrameBad (a0 : Fin 32) (a1 : Bool) : Statement (.nolriFrameBad a0 a1) := by
  intro h; cases h
theorem attestReportSigned (a0 : Bool) : Statement (.attestReportSigned a0) := by
  intro h; cases h
theorem maintRequestAnswered (a0 : Bool) (a1 : Bool) : Statement (.maintRequestAnswered a0 a1) := by
  intro h; cases h

end Sys2Proof.Laws.Sender
end

