-- ==== Sys2Proof/Laws/RegFrame.lean ====
section
/-! SUPPORT. Which registers a shared operation writes: a list of fields at a base address, one every stride, and the laws
that chain such lists like frames. -/

namespace Sys2Proof.Machine
open Sys2Proof.Laws

/-- A family of fields: first address, stride, count, lowest bit. -/
structure FieldFam where
  base : Nat
  stride : Nat
  count : Nat
  lo : Nat
deriving DecidableEq, Repr

/-- The family holds field `f`. -/
def FieldFam.has (k : FieldFam) (f : Field) : Prop := f.lo = k.lo ∧ ∃ i, i < k.count ∧ f.addr = k.base + k.stride * i

/-- A field no family of the list holds. -/
def clearOf (ks : List FieldFam) (f : Field) : Prop := f.lo < 32 ∧ f.addr < 2 ^ 32 ∧ ∀ k ∈ ks, ¬k.has f

/-- Every field that no family of the list holds reads in `t` as in `s`. -/
def RegsIn (ks : List FieldFam) (s t : State) : Prop := ∀ d f, clearOf ks f → t.rd d f = s.rd d f

theorem RegsIn.refl (ks : List FieldFam) (s : State) : RegsIn ks s s := fun _ _ _ => rfl

theorem RegsIn.of_regs {ks : List FieldFam} {s t : State} (h : t.regs = s.regs) : RegsIn ks s t := by
  intro d f _
  unfold State.rd
  rw [h]

theorem RegsIn.trans {ks : List FieldFam} {s t u : State} (h1 : RegsIn ks s t) (h2 : RegsIn ks t u) : RegsIn ks s u :=
  fun d f h => (h2 d f h).trans (h1 d f h)

theorem RegsIn.mono {ks ls : List FieldFam} {s t : State} (h : RegsIn ks s t) (hk : ∀ k ∈ ks, k ∈ ls) : RegsIn ls s t :=
  fun d f hf => h d f ⟨hf.1, hf.2.1, fun k hm => hf.2.2 k (hk k hm)⟩

/-- A further step that writes within the list. -/
theorem RegsIn.step {ks ls : List FieldFam} {s t u : State} (h : RegsIn ks s t) (hg : RegsIn ls t u)
    (hk : ∀ k ∈ ls, k ∈ ks) : RegsIn ks s u := h.trans (hg.mono hk)

/-- A further step that writes no register. -/
theorem RegsIn.same {ks : List FieldFam} {s t u : State} (h : RegsIn ks s t) (hu : u.regs = t.regs) : RegsIn ks s u :=
  h.trans (RegsIn.of_regs hu)

theorem RegsIn.foldl {α : Type} {ks : List FieldFam} {g : State → α → State} (l : List α)
    (hg : ∀ s a, a ∈ l → RegsIn ks s (g s a)) : ∀ {s t : State}, RegsIn ks s t → RegsIn ks s (l.foldl g t) := by
  induction l with
  | nil => intro s t h; exact h
  | cons a l ih =>
    intro s t h
    exact ih (fun s b hb => hg s b (List.mem_cons_of_mem _ hb)) (h.trans (hg t a (List.mem_cons_self ..)))

theorem RegsIn.ite {ks : List FieldFam} {s a b : State} {c : Prop} [Decidable c] (ha : c → RegsIn ks s a)
    (hb : ¬c → RegsIn ks s b) : RegsIn ks s (if c then a else b) := by
  split
  · exact ha ‹_›
  · exact hb ‹_›

/-- A write to a field of the list. -/
theorem RegsIn.wr {ks : List FieldFam} {s t : State} (d : Die) (g : Field) (v : Nat) (h : RegsIn ks s t)
    (hg : g.lo < 32 ∧ g.addr < 2 ^ 32 ∧ ∃ k ∈ ks, k.has g) : RegsIn ks s (t.wr d g v) := by
  intro e f hf
  obtain ⟨k, hk, hlo, i, hi, ha⟩ := hg.2.2
  have hne : fieldKey e f ≠ fieldKey d g := by
    apply fieldKey_ne _ _ hf.1 hg.1
    by_cases hl : f.lo = g.lo
    · left
      rw [Nat.mod_eq_of_lt hf.2.1, Nat.mod_eq_of_lt hg.2.1]
      intro hc
      exact hf.2.2 k hk ⟨by omega, i, hi, by omega⟩
    · exact Or.inr hl
  rw [rd_wr_other _ _ hne]
  exact h e f hf

theorem RegsIn.setIo {ks : List FieldFam} {s t : State} (g : Field) (v : Nat) (h : RegsIn ks s t)
    (hg : g.lo < 32 ∧ g.addr < 2 ^ 32 ∧ ∃ k ∈ ks, k.has g) : RegsIn ks s (t.setIo g v) := h.wr .d0 g v hg

theorem RegsIn.raiseIo {ks : List FieldFam} {s t : State} (g : Field) (h : RegsIn ks s t)
    (hg : g.lo < 32 ∧ g.addr < 2 ^ 32 ∧ ∃ k ∈ ks, k.has g) : RegsIn ks s (t.raiseIo g) := h.wr .d0 g 1 hg

theorem RegsIn.count {ks : List FieldFam} {s t : State} (d : Die) (c z : Field) (n : Nat) (h : RegsIn ks s t)
    (hc : c.lo < 32 ∧ c.addr < 2 ^ 32 ∧ ∃ k ∈ ks, k.has c) (hz : z.lo < 32 ∧ z.addr < 2 ^ 32 ∧ ∃ k ∈ ks, k.has z) :
    RegsIn ks s (t.count d c z n) := by
  unfold State.count
  split
  · exact h.wr _ _ _ hc
  · exact (h.wr _ _ _ hc).wr _ _ _ hz

theorem RegsIn.post {ks : List FieldFam} {s t : State} (e : Nat) (h : RegsIn ks s t) : RegsIn ks s (t.post e) :=
  h.same (post_regs t e)

theorem RegsIn.raisePost {ks : List FieldFam} {s t : State} (g : Field) (e : Nat) (h : RegsIn ks s t)
    (hg : g.lo < 32 ∧ g.addr < 2 ^ 32 ∧ ∃ k ∈ ks, k.has g) : RegsIn ks s (t.raisePost g e) := (h.raiseIo g hg).post e

theorem RegsIn.io {ks : List FieldFam} {s t : State} (h : RegsIn ks s t) {f : Field} (hf : clearOf ks f) :
    t.io f = s.io f := h .d0 f hf

/-- A step that changes another field of the state. -/
theorem RegsIn.with_trip {ks : List FieldFam} {s t : State} (x : TripSt) (h : RegsIn ks s t) : RegsIn ks s { t with trip := x } :=
  fun d f hf => h d f hf

theorem RegsIn.setGrp {ks : List FieldFam} {s t : State} (g : Nat) (x : Grp) (h : RegsIn ks s t) : RegsIn ks s (t.setGrp g x) :=
  fun d f hf => h d f hf

/-! ### What the trip fabric and the grade write -/

/-- Registers a GOOSE publication writes: ST_STNUM and SQ_SQNUM of the blocks. -/
def rGoose : List FieldFam := [⟨0x40A00018, 0x40, 8, 0⟩, ⟨0x40A0001C, 0x40, 8, 0⟩]

/-- Registers a safe action writes: GEN_CMD.ACT. -/
def rSafe : List FieldFam := [⟨0x40400014, 0x20, 128, 8⟩]

/-- Registers of the trip fabric that its groups write: states, sources, counts, and the loss of records. -/
def rTrip : List FieldFam := rGoose ++ rSafe ++
  [⟨0x40500048, 0, 1, 0⟩, ⟨0x40500054, 0, 1, 0⟩, ⟨0x40500050, 0, 1, 0⟩, ⟨0x4050005C, 0, 1, 0⟩, ⟨0x40500064, 0, 1, 0⟩,
    ⟨0x40500104, 0x10, 16, 30⟩, ⟨0x40500104, 0x10, 16, 3⟩, ⟨0x40500104, 0x10, 16, 16⟩, ⟨0x40500104, 0x10, 16, 0⟩, ⟨0x40500108, 0x10, 16, 0⟩]

theorem regs_pairSend (s : State) (x : Nat) : (s.pairSend x).regs = s.regs := by
  unfold State.pairSend
  split <;> rfl

theorem regs_ethSendAll (s : State) (r : Nat) (o : Output) (ps : List Nat) : (s.ethSendAll r o ps).regs = s.regs :=
  frame_ethSendAll s r o ps .regs (by decide)

theorem regs_gooseFrame (s : State) (b iv : Nat) : (s.gooseFrame b iv).regs = s.regs := by
  unfold State.gooseFrame
  rw [regs_ethSendAll, regs_pairSend, regs_pairSend]

/-- stNum and sqNum of a block written. -/
theorem regsIn_gooseNums (s : State) (b st sq : Nat) (hb : b < 8) :
    RegsIn rGoose s ((s.setIo (Reg.GOOSE_PUB_ST_STNUM b) st).setIo (Reg.GOOSE_PUB_SQ_SQNUM b) sq) := by
  refine RegsIn.setIo _ _ (RegsIn.setIo _ _ (RegsIn.refl _ _) ?_) ?_
  · exact ⟨by simp [Reg.GOOSE_PUB_ST_STNUM], by simp only [Reg.GOOSE_PUB_ST_STNUM]; omega, ⟨0x40A00018, 0x40, 8, 0⟩, by decide, rfl, b, hb, rfl⟩
  · exact ⟨by simp [Reg.GOOSE_PUB_SQ_SQNUM], by simp only [Reg.GOOSE_PUB_SQ_SQNUM]; omega, ⟨0x40A0001C, 0x40, 8, 0⟩, by decide, rfl, b, hb, rfl⟩

theorem regsIn_gooseChange (s : State) (b : Nat) (why : Option Nat) (hb : b < 8) : RegsIn rGoose s (s.gooseChange b why) := by
  unfold State.gooseChange
  simp only
  refine RegsIn.ite (fun _ => RegsIn.of_regs rfl) (fun _ => ?_)
  exact (regsIn_gooseNums s b _ 0 hb).same (regs_gooseFrame _ b (s.io (Reg.GOOSE_PUB_T_T1 b)))

theorem regs_gooseDropPort (b st : Nat) (s : State) (p : Nat) : (s.gooseDropPort b st p).regs = s.regs := by
  unfold State.gooseDropPort State.ethRun
  refine (frame_ethDrain _ _ _ .regs (by decide)).trans ?_
  have hite : ∀ (c : Prop) [Decidable c] (x : NetPair), (if c then s.setPair (p / 2) x else s).regs = s.regs := fun c _ x => by
    split <;> rfl
  exact hite _ _

theorem regsIn_gooseUndo (s : State) (b g : Nat) (hb : b < 8) : RegsIn rGoose s (s.gooseUndo b g) := by
  unfold State.gooseUndo
  simp only
  refine RegsIn.ite (fun _ => RegsIn.refl _ _) (fun _ => RegsIn.ite (fun _ => RegsIn.of_regs rfl) (fun _ => ?_))
  have h := RegsIn.foldl (g := State.gooseDropPort b (s.io (Reg.GOOSE_PUB_ST_STNUM b))) (List.range 4)
    (fun s p _ => RegsIn.of_regs (regs_gooseDropPort _ _ s p)) (RegsIn.refl rGoose s)
  generalize (List.range 4).foldl (State.gooseDropPort b (s.io (Reg.GOOSE_PUB_ST_STNUM b))) s = t at h ⊢
  exact (h.trans (regsIn_gooseNums t b _ _ hb)).same rfl

theorem regsIn_gooseTakeBack (s : State) (g : Nat) : RegsIn rGoose s (s.gooseTakeBack g) :=
  RegsIn.foldl _ (fun s b hb => regsIn_gooseUndo s b g (List.mem_range.mp hb)) (RegsIn.refl _ _)

theorem regsIn_gooseGroup (s : State) (g : Nat) : RegsIn rGoose s (s.gooseGroup g) := by
  unfold State.gooseGroup
  refine RegsIn.foldl _ (fun s b hb => ?_) (RegsIn.refl _ _)
  refine RegsIn.ite (fun _ => ?_) (fun _ => RegsIn.refl _ _)
  exact regsIn_gooseChange s b _ (List.mem_range.mp hb)

theorem regs_setGate (s : State) (n : Nat) (u v : Bool) : (s.setGate n u v).regs = s.regs := by
  unfold State.setGate
  split <;> rfl

theorem regsIn_setAct (s : State) (n c : Nat) (hn : n < 128) : RegsIn rSafe s (s.setIo (Reg.GEN_CMD_ACT n) c) :=
  RegsIn.setIo _ _ (RegsIn.refl _ _)
    ⟨by simp [Reg.GEN_CMD_ACT], by simp only [Reg.GEN_CMD_ACT]; omega, ⟨0x40400014, 0x20, 128, 8⟩, by decide, rfl, n, hn, rfl⟩

theorem regsIn_placeCmd (s : State) (n c base r j : Nat) (hn : n < 128) : RegsIn rSafe s (s.placeCmd n c base r j) :=
  (regsIn_setAct s n c hn).same rfl

theorem regsIn_settleTo (s : State) (n t : Nat) (hn : n < 128) : RegsIn rSafe s (s.settleTo n t) := by
  unfold State.settleTo
  exact RegsIn.foldl _ (fun s c _ => regsIn_placeCmd s n _ _ _ _ hn) (RegsIn.of_regs rfl)

theorem regs_openWatch (s : State) (n t : Nat) : (s.openWatch n t).regs = s.regs := frame_openWatch s n t .regs (by decide)

theorem regsIn_safeCh (s : State) (n t : Nat) (hn : n < 128) : RegsIn rSafe s (s.safeCh n t) := by
  have h := (regsIn_settleTo s n t hn).trans (regsIn_setAct (s.settleTo n t) n 0 hn)
  unfold State.safeCh
  simp only
  generalize (s.settleTo n t).setIo (Reg.GEN_CMD_ACT n) 0 = u at h ⊢
  refine RegsIn.ite (fun _ => ?_) (fun _ => ?_)
  · refine RegsIn.same ?_ (regs_openWatch _ _ _)
    refine RegsIn.ite (fun _ => h.same ?_) (fun _ => h.same ?_)
    · rw [regs_setGate, regs_setGate]; rfl
    · rw [regs_setGate]; rfl
  · refine RegsIn.ite (fun _ => h.same ?_) (fun _ => h.same ?_)
    · rw [regs_setGate, regs_setGate]; rfl
    · rw [regs_setGate]; rfl

theorem regsIn_safeGroup (s : State) (g : Nat) : RegsIn rSafe s (s.safeGroup g) := by
  unfold State.safeGroup
  refine RegsIn.ite (fun _ => RegsIn.refl _ _) (fun _ => RegsIn.foldl _ (fun s n hn => ?_) (RegsIn.refl _ _))
  exact RegsIn.ite (fun _ => regsIn_safeCh s n _ (List.mem_range.mp hn)) (fun _ => RegsIn.refl _ _)

theorem regs_sendBos (s : State) (m : Nat) : (s.sendBos m).regs = s.regs := by
  have h := frame_sendBos s m .regs (by decide)
  exact h

theorem regsIn_tripRecord (s : State) (a b c : Nat) : RegsIn rTrip s (s.tripRecord a b c) := by
  unfold State.tripRecord
  refine RegsIn.ite (fun _ => RegsIn.of_regs rfl) (fun _ => ?_)
  exact RegsIn.count _ _ _ _ (RegsIn.refl _ _)
    ⟨by decide, by decide, ⟨0x4050005C, 0, 1, 0⟩, by decide, rfl, 0, by decide, rfl⟩
    ⟨by decide, by decide, ⟨0x40500064, 0, 1, 0⟩, by decide, rfl, 0, by decide, rfl⟩

theorem regsIn_setState (s : State) (g v : Nat) (hg : g < 16) : RegsIn rTrip s (s.setIo (Reg.TRIP_GRP_STAT_STATE g) v) :=
  RegsIn.setIo _ _ (RegsIn.refl _ _)
    ⟨by simp [Reg.TRIP_GRP_STAT_STATE], by simp only [Reg.TRIP_GRP_STAT_STATE]; omega, ⟨0x40500104, 0x10, 16, 30⟩, by decide, rfl, g, hg, rfl⟩

theorem regsIn_setAsserted (s : State) (g : Nat) (b : Bool) : RegsIn rTrip s (s.setAsserted g b) :=
  RegsIn.setIo _ _ (RegsIn.refl _ _) ⟨by decide, by decide, ⟨0x40500050, 0, 1, 0⟩, by decide, rfl, 0, by decide, rfl⟩

theorem regsIn_tripAction (s : State) (g : Nat) (srcs : List Nat) (hg : g < 16) : RegsIn rTrip s (s.tripAction g srcs) := by
  unfold State.tripAction
  simp only
  refine RegsIn.step ?_ (regsIn_gooseGroup _ _) (by decide)
  have h := (regsIn_setState s g grpTripped hg).trans (regsIn_setAsserted _ g true)
  generalize (s.setIo (Reg.TRIP_GRP_STAT_STATE g) grpTripped).setAsserted g true = t0 at h ⊢
  have h0 := (h.setGrp g { t0.grp g with tripAt := some t0.tb.ticks }).step (regsIn_safeGroup _ g) (by decide)
  have h1 := (h0.setIo (Reg.TRIP_GRP_STAT_FIRST_SRC g) (srcs.headD 0x18E)
    ⟨by simp [Reg.TRIP_GRP_STAT_FIRST_SRC], by simp only [Reg.TRIP_GRP_STAT_FIRST_SRC]; omega, ⟨0x40500104, 0x10, 16, 16⟩,
        by decide, rfl, g, hg, rfl⟩).count .d0 (Reg.TRIP_GRP_CNT_COUNT g) (Reg.TRIP_GRP_STAT_SAT g) 1
    ⟨by simp [Reg.TRIP_GRP_CNT_COUNT], by simp only [Reg.TRIP_GRP_CNT_COUNT]; omega, ⟨0x40500108, 0x10, 16, 0⟩,
        by decide, rfl, g, hg, rfl⟩
    ⟨by simp [Reg.TRIP_GRP_STAT_SAT], by simp only [Reg.TRIP_GRP_STAT_SAT]; omega, ⟨0x40500104, 0x10, 16, 0⟩,
        by decide, rfl, g, hg, rfl⟩
  have h2 := h1.trans (regsIn_tripRecord _ 1 g (srcs.headD 0x18E))
  exact RegsIn.ite (fun _ => (h2.same (regs_sendBos _ _)).with_trip _) (fun _ => h2)

theorem regsIn_tripGroup (s : State) (g : Nat) (srcs : List Nat) (hg : g < 16) : RegsIn rTrip s (s.tripGroup g srcs) :=
  (regsIn_tripAction s g srcs hg).post _

theorem regsIn_meetTrip (s : State) (g : Nat) (srcs : List Nat) (hg : g < 16) : RegsIn rTrip s (s.meetTrip g srcs) := by
  unfold State.meetTrip
  exact RegsIn.same (RegsIn.setIo (Reg.TRIP_GRP_STAT_FIRST_SRC g) _ (RegsIn.refl _ _)
    ⟨by simp [Reg.TRIP_GRP_STAT_FIRST_SRC], by simp only [Reg.TRIP_GRP_STAT_FIRST_SRC]; omega, ⟨0x40500104, 0x10, 16, 16⟩,
        by decide, rfl, g, hg, rfl⟩) rfl

theorem regsIn_clearRefused (s : State) (g : Nat) (hg : g < 16) : RegsIn rTrip s (s.clearRefused g) := by
  unfold State.clearRefused
  exact ((RegsIn.raiseIo _ (RegsIn.refl _ _) ⟨by simp [Reg.TRIP_GRP_STAT_CLR_REFUSED],
    by simp only [Reg.TRIP_GRP_STAT_CLR_REFUSED]; omega, ⟨0x40500104, 0x10, 16, 3⟩, by decide, rfl, g, hg, rfl⟩).trans
    (regsIn_tripRecord _ _ _ _)).post _

theorem regsIn_unclear (s : State) (g : Nat) (b : Bool) (hg : g < 16) : RegsIn rTrip s (s.unclear g b) := by
  unfold State.unclear
  simp only
  have h : RegsIn rTrip s ((s.setIo (Reg.TRIP_GRP_STAT_STATE g) grpTripped).unrecord 3 g) := (regsIn_setState s g grpTripped hg).with_trip _
  exact (((h.setGrp _ _).with_trip _).step (regsIn_gooseTakeBack _ g) (by decide)).trans (regsIn_clearRefused _ _ hg)

theorem regsIn_tripHeld (s : State) (g : Nat) (srcs : List Nat) (b : Bool) (hg : g < 16) : RegsIn rTrip s (s.tripHeld g srcs b) := by
  have h := RegsIn.ite (c := b = true) (fun _ => regsIn_tripGroup s g srcs hg) (fun _ => regsIn_tripAction s g srcs hg)
  unfold State.tripHeld
  split
  · exact RegsIn.ite (fun _ => regsIn_unclear _ _ _ hg) (fun _ => h)
  · exact h

theorem regsIn_unarm (s : State) (g old : Nat) (b : Bool) (srcs : List Nat) (hg : g < 16) : RegsIn rTrip s (s.unarm g old b srcs) := by
  have h : RegsIn rTrip s (((s.setIo (Reg.TRIP_GRP_STAT_STATE g) old).setAsserted g true).unrecord 4 g) :=
    ((regsIn_setState s g old hg).trans (regsIn_setAsserted _ g true)).with_trip _
  unfold State.unarm
  simp only
  generalize ((s.setIo (Reg.TRIP_GRP_STAT_STATE g) old).setAsserted g true).unrecord 4 g = t at h ⊢
  have h2 : ∀ x y, RegsIn rTrip s (State.gooseTakeBack { t.setGrp g x with trip := y } g) := fun x y =>
    ((h.setGrp g x).with_trip y).step (regsIn_gooseTakeBack _ g) (by decide)
  exact RegsIn.ite (fun _ => (h2 _ _).trans (regsIn_tripHeld _ _ _ _ hg)) (fun _ => (h2 _ _).step (regsIn_safeGroup _ _) (by decide))

theorem regsIn_scanGroup (acts : List Nat) (s : State) (g : Nat) (hg : g < 16) : RegsIn rTrip s (State.scanGroup acts s g) := by
  unfold State.scanGroup
  simp only
  have h : ∀ x, RegsIn rTrip s ((s.setGrp g x).meetRefused g) := fun x => ((RegsIn.refl _ s).setGrp g x).with_trip _
  refine RegsIn.ite (fun _ => h _) (fun _ => RegsIn.ite (fun _ => (h _).trans (regsIn_tripHeld _ _ _ _ hg)) (fun _ => RegsIn.ite
    (fun _ => ?_) (fun _ => RegsIn.ite (fun _ => (h _).trans (regsIn_meetTrip _ g _ hg)) (fun _ => h _))))
  split
  · exact RegsIn.ite (fun _ => (h _).trans (regsIn_unarm _ _ _ _ _ hg)) (fun _ => (h _).trans (regsIn_tripGroup _ _ _ hg))
  · exact (h _).trans (regsIn_tripGroup _ _ _ hg)

theorem regsIn_tripScan (s : State) : RegsIn rTrip s s.tripScan := by
  unfold State.tripScan
  refine RegsIn.foldl _ (fun s g hg => regsIn_scanGroup _ s g (List.mem_range.mp hg)) ?_
  refine RegsIn.setIo _ _ (RegsIn.setIo _ _ (RegsIn.refl _ _) ?_) ?_
  · exact ⟨by decide, by decide, ⟨0x40500048, 0, 1, 0⟩, by decide, rfl, 0, by decide, rfl⟩
  · exact ⟨by decide, by decide, ⟨0x40500054, 0, 1, 0⟩, by decide, rfl, 0, by decide, rfl⟩

end Sys2Proof.Machine
end

