-- ==== Sys2Proof/Tests/Slice0.lean ====
section
/-! SUPPORT. Tests: an ill-formed term that each check of WellFormed refuses, states and operands that meet the hypotheses of
each statement of Certificates/Slice0, and a few results worked out from the spec's own numbers. -/

namespace Sys2Proof.Tests

set_option Elab.async false

open Sys2Proof Sys2Proof.Machine

/-! ## Small states -/

/-- Register fields written one after the other. -/
def regW (d : Die) (l : List (Field × Nat)) (s : State) : State := l.foldl (fun s p => s.wr d p.1 p.2) s

/-- Control die 0 is the worker, control die 1 PASSIVE. -/
def live : State :=
  regW .d0 [(Reg.RED_DIE_WORKER 0, 1), (Reg.RED_DIE_STATE 0, 0), (Reg.RED_DIE_STATE 1, 1)] State.reset

/-- The same with the gates released: the pins have left their states for reset. -/
def lit (s : State) : State := { s with pins := { s.pins with live := true } }

/-- Out of reset, in the first phase of the boot. -/
def boot : State := { State.reset with pins := { State.reset.pins with porstN := true }
                                       power := { State.reset.power with railsOk := true } }

/-- A phase on both dies. -/
def inPhase (p : Nat) (s : State) : State :=
  regW .d1 [(Reg.BOOT_STAT_PHASE, p)] (regW .d0 [(Reg.BOOT_STAT_PHASE, p)] s)

/-- The smallest image of a kind, 72 bytes with its CRC. -/
def image (kind : Nat) : List Byte :=
  withCrc (bytesOf 4 0x4D495746 ++ bytesOf 2 1 ++ bytesOf 2 64 ++ bytesOf 1 kind ++ bytesOf 1 0
    ++ bytesOf 2 (State.reset.io Reg.SYS_CHIP_ID_TYPE) ++ bytesOf 4 3 ++ bytesOf 4 72 ++ bytesOf 4 0x40 ++ bytesOf 44 0)

/-- A FIELD record: address, mask and value. -/
def fieldRec (a m v : Nat) : List Byte :=
  bytesOf 2 1 ++ bytesOf 2 12 ++ bytesOf 4 a ++ bytesOf 4 m ++ bytesOf 4 v

/-- A pricking copy of a Hub of 1 arm: header, two FIELD records and END. -/
def hubPricking : List Byte :=
  let body := fieldRec 0x50000010 0xFFFF0FFF 0xF0010001 ++ fieldRec 0x50000014 0x00070000 0x00010000
    ++ bytesOf 2 0xFFFF ++ bytesOf 2 0
  withCrc (bytesOf 4 0x4B435250 ++ bytesOf 2 1 ++ bytesOf 2 64 ++ bytesOf 4 5 ++ bytesOf 4 0 ++ bytesOf 1 1 ++ bytesOf 1 0
    ++ bytesOf 2 (State.reset.io Reg.SYS_CHIP_ID_TYPE) ++ bytesOf 4 (64 + body.length + 4) ++ bytesOf 4 3 ++ bytesOf 36 0
    ++ body)

/-- The samples of a frame's half-bits. -/
def samplesOf (hs : List (Bool × Bool)) : List Bool := hs.flatMap (fun h => List.replicate 4 h.1 ++ List.replicate 4 h.2)

/-! ## The form of commands -/

theorem test_wf_register : (Instr.registerWrite .d0 2 0 false).wf = false ∧
    (Instr.registerWrite .d0 0x40000004 0 true).wf = true := by
  decide
theorem test_wf_satClear : (Instr.satClear .d0 0x40100057 0 1).wf = false := by decide
theorem test_wf_bypass : (Instr.jtagBypass 0xFE).wf = false ∧ (Instr.jtagBypass 3).wf = false ∧
    (Instr.jtagBypass 0xFF).wf = true := by decide
theorem test_wf_apply : (Instr.prickingApply 0 true ⟨0, [(0, 1), (0, 2)], []⟩).wf = false ∧
    (Instr.prickingApply 0 true ⟨0, [], [(1, 1), (1, 1)]⟩).wf = false := by decide
theorem test_wf_ground : (Instr.groundRequest .d0 0 0 0 0 (.read 0) false []).wf = false := by decide
theorem test_wf_frame : (Instr.senseFrame 0 [true] false).wf = false ∧
    (Instr.senseFrame 0 (samplesOf (List.replicate 25 (true, false))) false).wf = true := by decide +kernel
theorem test_wf_decimator : (Instr.decimatorOutput 0 [true] false).wf = false ∧ (Instr.decimatorOutput 128 [true] false).wf = true := by
  decide
theorem test_wf_sinc2 : (Instr.sinc2Output 128 [true]).wf = false ∧ (Instr.sinc2Output 0 [true]).wf = false ∧
    (Instr.sinc2Output 0 []).wf = true := by decide
theorem test_wf_selfCal : (Instr.selfCalEnd 0 [] []).wf = false ∧
    (Instr.selfCalEnd 0 (List.replicate 640 true) (List.replicate 639 true)).wf = false := by decide +kernel
theorem test_wf_eq : (Instr.laneEqSearchDone 0 []).wf = false ∧
    (Instr.laneEqSearchDone 0 (List.replicate 17 0)).wf = false := by decide
theorem test_wf_dfe : (Instr.dfeUpdate 0 [1, 1]).wf = false ∧ (Instr.dfeUpdate 0 [2, 0, 0, 0, 0]).wf = false := by decide
theorem test_wf_ref : (Instr.ref 0 ⟨0, 0, 0, 0⟩ []).wf = false ∧ (Instr.ref 0 ⟨0, 0, 0, 0⟩ (List.replicate 65 0)).wf = false := by decide
theorem test_wf_ladder : (Instr.ladder 0 ⟨0, 0, 0, 0⟩ ⟨0, 0, 0, 0, 0, 0, 0, []⟩).wf = false := by decide
theorem test_wf_health : (Instr.health 0 ⟨0, 0, 0, 0⟩ 0 (List.replicate 25 ⟨0, 0, 0, 0, 0, 0, 0, 0⟩)).wf = false := by decide
theorem test_wf_bulk : (Instr.bulk 0 ⟨0, 0, 0, 0⟩ (List.replicate 2049 0)).wf = false := by decide +kernel

/-- Custom-0 words of R131 in the R format: funct7, rs2, rs1, funct3, rd, opcode. -/
def fzWord (f7 rs2 rs1 f3 rd : Nat) : Word :=
  BitVec.ofNat 32 ((((f7 * 32 + rs2) * 32 + rs1) * 8 + f3) * 4096 + rd * 128 + 11)

theorem test_fz_words (x : Nat → Word) :
    fzInstr .d1 7 (fzWord 0 9 6 1 5) x false = some (.fzTpost .d1 7 5 (x 6) (x 9)) ∧
    fzInstr .d1 7 (fzWord 1 0 6 1 31) x false = some (.fzTcancel .d1 7 31 (x 6)) ∧
    (∀ k, k < 2 → fzDecode (fzWord k 0 4 2 1) = some (if k = 0 then .lock else .unlock, 1, 4, 0)) ∧
    fzInstr .d0 2 (fzWord 0 0 3 3 0) x true = some (.fzCommit .d0 2 0 (x 3) true) ∧
    fzInstr .d0 2 0x0000028B x false = some (.fzTwait .d0 2 5) ∧ fzInstr .d0 2 (fzWord 1 0 0 3 0) x false = none := by
  refine ⟨rfl, rfl, by decide, rfl, rfl, rfl⟩

/-- The table gives no row any bits, so no word spells a command. -/
theorem test_decode_none : decodeTableWord 8 0 = none ∧ State.reset.withFetchWord 32 5 = State.reset := by decide

/-! ## Hypotheses that something meets: the step, registers, reset, supplies, clocks -/

theorem meets_StepRunsFront : State.reset.pending = [] := by decide
theorem meets_QueueUntouched : exec .gatePadPowerOn live =
    .next { live with pins := { live.pins with padPower := true, gu := 0, gl := 0 } } := rfl
theorem meets_MemoryCanonicalStep : Memory.wf State.reset = true ∧ step State.reset = .next State.reset.tick := ⟨rfl, rfl⟩
/-- MAC on lane 7 with every operand at the top of its range. -/
def topMac : CleInstr := ⟨.mac, 3, 31, 7, 0, 8191, 8191, 256, 0, false⟩
theorem meets_CleDecodeEncode : topMac.fits = true ∧ cleEncode topMac < 2 ^ 64 ∧
    cleDecode (cleEncode topMac) = some topMac ∧ (cleDecode 0).isSome = true := by decide +kernel
theorem meets_RegisterWriteRw : live.mayWrite .d1 = false ∧ 0x40000000 ≤ (0x40000000#32).toNat ∧
    (0x40FFFFFC#32).toNat < 0x41000000 ∧ live.mayWrite .d0 = true ∧ live.lost .d0 = false ∧
    (Reg.fieldsAt (0x40400014 + 0x20 * 127)).map plainWord = some true ∧ (Reg.fieldsAt 0x40200010).map plainWord = some true ∧
    (Reg.fieldsAt 0x40F00004).map plainWord = some true ∧ (Reg.fieldsAt 0x50000010).map plainWord = some true ∧
    Reg.fieldsAt 0x40920000 = none ∧ inRanges tableRanges 0x40920000 4 = true ∧ live.ram32 2 0x40920000 ≠ 1 ∧
    (0x40500040#32 = 0x40500040 ∧ Instr.tripFwSet .d0 3 = .tripFwSet .d0 (BitVec.ofNat 16 (3#32).toNat)) := by
  decide +kernel
theorem meets_SatClearCounts :
    satPairs.find? (fun p => p.1.addr = Reg.TB_MISS_SAT_SAT.addr && p.1.lo = Reg.TB_MISS_SAT_SAT.lo)
      = some (Reg.TB_MISS_SAT_SAT, Reg.TB_MISS_CNT_COUNT) ∧ inIod Reg.TB_MISS_SAT_SAT.addr = true ∧
    live.mayWrite .d0 = true ∧ grantOf Reg.TB_MISS_SAT_SAT = none ∧
    satPairs.find? (fun p => p.1.addr = (Reg.GND_CNT_STAT_GRANT_SAT 23).addr && p.1.lo = (Reg.GND_CNT_STAT_GRANT_SAT 23).lo)
      = some (Reg.GND_CNT_STAT_GRANT_SAT 23, Reg.GND_GRANT_CNT_COUNT 23) ∧
    inIod (Reg.GND_CNT_STAT_GRANT_SAT 23).addr = false ∧ grantOf (Reg.GND_CNT_STAT_GRANT_SAT 23) = some 23 ∧
    live.io Reg.RED_CFG_DISC_LIMIT < 2 ^ Reg.RED_DISC_CNT_COUNT.width := by decide +kernel
theorem meets_PorstAssert : 1000 ≤ (1000 : Nat) ∧ (99 : Nat) < 100 ∧ 100 ≤ (100 : Nat) ∧ (999 : Nat) < 1000 := by decide
theorem meets_LeavingReset : { boot with power := { boot.power with railsOk := false } }.power.railsOk = false ∧
    { boot with power := { boot.power with railsOk := false } }.pins.porstN = true ∧ boot.pins.porstN = true ∧
    State.reset.pins.porstN = false := by decide
/-- The test state of a live device. -/
def inTest : State := regW .d0 [(Reg.SYS_STRAP_TEST_EN, 1)] (regW .d1 [(Reg.SYS_STRAP_TEST_EN, 1)] live)
theorem meets_RailUndervoltage : (IodRail.vdd33Ch = .vddIod ∨ IodRail.vdd33Ch = .vdd18 ∨ IodRail.vdd33Ch = .vdd33Ch) ∧
    boot.testState = false ∧ State.reset.pins.porstN = false ∧ boot.pins.porstN = true ∧ boot.power.railsOk = true ∧
    (regW .d0 [(Reg.SYS_STRAP_TEST_EN, 1)] (regW .d1 [(Reg.SYS_STRAP_TEST_EN, 1)] boot)).testState = true ∧
    { boot with power := { boot.power with railsOk := false } }.power.railsOk = false := by decide +kernel
theorem meets_ClockLossAndOvertemp : live.power.clockLost = false ∧ live.io Reg.RED_GRADE_GRADE < 4 ∧ live.red.gradeAt ≠ some live.tb.ticks ∧ (3919 : Nat) < 3920 ∧
    4080 < (4081 : Nat) ∧ 3920 ≤ (3920 : Nat) ∧ (4080 : Nat) ≤ 4080 := by decide +kernel
theorem meets_JtagCommands : live.testState = false ∧
    inTest.testState = true ∧ 3 < (4#8).toNat ∧ (0xFF#8).toNat ≠ 0xFE := by decide +kernel
/-- A worker with no passive: control die 1 is OUT. -/
def alone : State := regW .d0 [(Reg.RED_DIE_STATE 1, 4)] live
theorem meets_DieFaults : alone.lost .d1 = true ∧ alone.lost .d0 = false ∧ live.inService .d1 = true ∧ live.isWorker .d1 = false ∧
    (regW .d0 [(Reg.RED_DIE_STATE 1, 5)] live).dieState .d1 = 5 ∧ live.lost .d1 = false ∧ live.dieState .d1 ≠ 5 ∧
    live.isWorker .d0 = true ∧ live.inService .d0 = true ∧ live.red.checking = false ∧ live.red.takeover = none ∧ live.dieState Die.d0.other = 1 ∧
    alone.isWorker .d0 = true ∧ alone.inService .d0 = true ∧ alone.red.checking = false ∧ alone.dieState Die.d0.other ≠ 1 ∧
    alone.io Reg.RED_GRADE_GRADE < 4 ∧ alone.red.gradeAt ≠ some alone.tb.ticks ∧
    (Instr.lockParityError .d1 = .lockParityError .d1 ∧ causeLockParity = causeLockParity) := by decide +kernel
theorem meets_AvsBus : live.avsLost .d1 1 = false ∧ AvsAnswer.crcError ≠ .ok ∧ tabGet 0 live.power.avsFail 3 < 2 ∧
    2 ≤ tabGet 0 { live.power with avsFail := [(3, 2)] }.avsFail 3 ∧
    ((live.setRegion .d1 1 { issued := some 51 }).region .d1 1).issued = some 51 ∧ (live.region .d1 1).issued = none ∧
    (live.setRegion .d1 1 { issued := some 51 }).avsLost .d1 1 = false ∧
    { live with power := { live.power with avsFail := [(3, 2)] } }.avsLost .d1 1 = false := by decide +kernel
theorem meets_PeriodBoundary : boot.pins.porstN = true ∧ boot.power.railsOk = true ∧
    (boot.setSet (setOut 3) { staged := true }).takesEffect (setOut 3) = true ∧ boot.takesEffect (setOut 0) = false ∧
    setOut 3 ∈ ioSets ∧ (boot.setSet (setOut 3) { missed := true }).misses (setOut 3) = true ∧
    boot.red.couching = false ∧ (Die.d0, (12 : Fin 13)) ≠ (Die.d1, (12 : Fin 13)) := by decide +kernel

/-! ## Boot and field update -/

/-- A Hub's pricking in copy A, firmware in both slots, the strap pulled up. -/
def pricked : State :=
  (((regW .d1 [(Reg.SYS_STRAP_SAMPLE_UP, 1)] (regW .d0 [(Reg.SYS_STRAP_SAMPLE_UP, 1)] boot)).setFlashBytes (copyBase 0)
    hubPricking).setFlashBytes (imageBase 1 0) (image 1)).setFlashBytes (imageBase 1 1) (image 1)
def loader : State := boot.setFlashBytes (imageBase 2 0) (image 2)
def supervisor : State := inPhase phaseStage1 <| boot.setFlashBytes (imageBase 3 0) (image 3)
def staged : State := ((inPhase phaseFwVerify boot).setFlashBytes (imageBase 1 0) (image 1)).setSlot 0 slotStaged 0 3
def trial : State :=
  let s := inPhase phaseReady ((boot.setSlot 0 slotTrial 1 3).setSlot 1 slotActive 1 2)
  { s with boot := { s.boot with fwRuns := true } }

theorem meets_BootPhases_discovery : boot.bootAt phaseRom = true ∧ 128 ≤ (⟨128, false⟩ : FlashTable).sizeMbit ∧
    ¬(128 < (⟨128, false⟩ : FlashTable).sizeMbit) ∧ 128 < (⟨256, true⟩ : FlashTable).sizeMbit ∧
    (⟨256, true⟩ : FlashTable).fourByteAddr = true ∧ (⟨64, true⟩ : FlashTable).sizeMbit < 128 ∧
    (128 < (⟨256, false⟩ : FlashTable).sizeMbit ∧ (⟨256, false⟩ : FlashTable).fourByteAddr = false) := by decide +kernel
theorem meets_BootPhases_rom : boot.pins.porstN = true ∧ boot.power.railsOk = true ∧ boot.phase = phaseRom ∧
    boot.openRewrite = none ∧ boot.dieBoots .d0 = true ∧ boot.dieBoots .d1 = true ∧ boot.phase ≠ phaseStage1 ∧
    boot.phase ≠ phaseFwVerify ∧ boot.phase ≠ phaseApply ∧ supervisor.phase ≠ phaseRom := by decide +kernel
theorem meets_BootPhases_iodsup : supervisor.bootAt phaseStage1 = true ∧
    supervisor.imageCheck (supervisor.flashRd (imageBase 3 0)) 3 false = 0xFE ∧
    supervisor.imageCheck (supervisor.flashRd (imageBase 3 0)) 3 true ≠ 0xFE := by decide +kernel
/-- The loader of a package whose dies are not of one identity. -/
def mixed : State := regW .d1 [(Reg.SYS_UID_LO_UID, 9)] loader
theorem meets_BootPhases_stage1 : loader.bootAt phaseRom = true ∧ loader.diesMatch = true ∧ mixed.bootAt phaseRom = true ∧
    mixed.dieBoots .d0 = true ∧ mixed.dieBoots .d1 = true ∧ mixed.diesMatch = false ∧
    mixed.imageCheck (mixed.flashRd (imageBase 2 0)) 2 false = 0xFE ∧
    loader.imageCheck (loader.flashRd (imageBase 2 0)) 2 false = 0xFE ∧
    boot.imageCheck (boot.flashRd (imageBase 2 0)) 2 false ≠ 0xFE := by decide +kernel
theorem meets_PrickingCopies_check : (inPhase phaseStage1 pricked).bootAt phaseStage1 = true ∧ (pricked.copyCheck 0 false).1 = 0xFE ∧
    (pricked.copyCheck 1 false).1 ≠ 0xFE ∧
    ((inPhase phaseStage1 (pricked.setFlashBytes (copyBase 1) hubPricking)).copyCheck 0 false).1 = 0xFE ∧
    ((inPhase phaseStage1 (pricked.setFlashBytes (copyBase 1) hubPricking)).copyCheck 1 false).1 = 0xFE := by decide +kernel
theorem meets_PrickingCopies_none : (inPhase phaseApply boot).booting = true ∧ (inPhase phaseApply boot).phase = phaseApply ∧
    (inPhase phaseApply boot).boot.ranked = [] := by decide +kernel
def ranked : State := let s := inPhase phaseApply pricked; { s with boot := { s.boot with ranked := [0] } }
theorem meets_PrickingCopies_apply : ranked.booting = true ∧ ranked.phase = phaseApply ∧
    (ranked.tryCopies 0 0 ranked.boot.ranked).2.isSome = true := by decide +kernel
theorem meets_FirmwareSlots_none : (inPhase phaseFwVerify boot).bootAt phaseFwVerify = true ∧
    (((((inPhase phaseFwVerify boot).retireSpent 0).retireSpent 1).showSlot 0 false).showSlot 1 false).slotOrder = [] := by decide +kernel
theorem meets_FirmwareSlots_runs : staged.bootAt phaseFwVerify = true ∧
    ((((staged.retireSpent 0).retireSpent 1).showSlot 0 false).showSlot 1 false).slotOrder = [0] ∧
    ((((staged.retireSpent 0).retireSpent 1).showSlot 0 false).showSlot 1 false).imageCheck
      (((((staged.retireSpent 0).retireSpent 1).showSlot 0 false).showSlot 1 false).flashRd (imageBase 1 0)) 1 false = 0xFE := by
  decide +kernel
theorem meets_FirmwareSlots_confirm : trial.boot.fwRuns = true ∧
    (trial.slotEntry (trial.rd (trial.worker.getD .d0) Reg.BOOT_STAT_FW_SLOT)).1 = slotTrial ∧
    trial.phase = phaseReady ∧ trial.lost .d0 = false ∧
    ((trial.setSlotState (trial.rd (trial.worker.getD .d0) Reg.BOOT_STAT_FW_SLOT) slotActive).slotEntry
      (1 - trial.rd (trial.worker.getD .d0) Reg.BOOT_STAT_FW_SLOT)).1 = slotActive ∧
    (staged.setSlotState 0 slotActive).slotEntry (1 - 0) = (0, 0, 0) := by decide +kernel
theorem meets_FirmwareSlots_fallback : (inPhase phaseApply live).phase = phaseApply ∧
    (inPhase phaseApply live).isWorker .d0 = true ∧ (inPhase phaseApply live).rd .d0 Reg.BOOT_STAT_FW_SLOT = (0 : Fin 2).val ∧
    live.phase ≠ phaseApply ∧ live.lost .d0 = false := by decide +kernel
theorem meets_FirmwareSlots_rewrite : { live with rewrite := some ⟨2, 1, 72, [0]⟩ }.rewrite = some ⟨2, 1, 72, [0]⟩ ∧
    (⟨2, 1, 4097, [63, 1]⟩ : Rewrite).todo = 63 :: [1] ∧ (63 < (64 : Nat)) ∧ (⟨2, 1, 72, [0]⟩ : Rewrite).kind ≠ 1 := by
  decide
theorem meets_BootCommands : boot.dieBoots .d1 = true ∧ boot.dieBoots Die.d1.other = true ∧
    (3 : Fin 4).val ∈ { boot.boot with revokes := [2, 3] }.revokes ∧ boot.lost .d0 = false ∧
    (inPhase phaseLanes boot).phase = phaseLanes ∧ (inPhase phaseMembership boot).phase = phaseMembership ∧
    boot.phase = phaseRom ∧ boot.recordDue = false ∧
    { boot with boot := { boot.boot with readyTick := some 9 } }.recordDue = true := by decide +kernel

/-! ## The maintenance path -/

def served : State := { live with boot := { live.boot with server := .full } }
def header : MaintHeader := { port := 2, mac := 0, ver := 1, tag := 0x77, lenOk := true }
def request (op : MaintOp) : MaintReq := ⟨1, 9, op.code, 4, op⟩
def queued (n : Nat) : State := { served with maint := { served.maint with queue := List.replicate n (request .stat) } }
theorem meets_MaintRequests : served.takesRequest header (opCodeOf header MaintOp.stat) = true ∧
    served.takesRequest { header with badOp := some 0x7F } (opCodeOf { header with badOp := some 0x7F } .stat) = true ∧
    served.takesRequest { header with bcast := true } (MaintOp.identity 0 1).code = true ∧
    served.takesRequest { header with bcast := true } MaintOp.stat.code = false ∧ (queued 3).maint.queue.length < (queued 3).mntRoom ∧
    (queued 4).takesRequest header MaintOp.stat.code = true ∧ (queued 4).mntRoom ≤ (queued 4).maint.queue.length ∧ (queued 4).pairMode (2 / 2) = 0 ∧
    ((queued 4).ethOf 2).queue = [] ∧ ((queued 4).ethOf 2).busyTo ≤ (queued 4).tb.ticks ∧
    3 < (({ queued 4 with tb := { live.tb with ticks := 3 } }.setEth 2 { busyTo := 9 }).ethOf 2).busyTo := by decide +kernel
theorem meets_MaintAnswers : served.boot.server = .full ∧ served.readArea 0x10000000 257 = none ∧
    served.readArea 0x10000000 256 ≠ none ∧ served.readArea 0x10000000 1 ≠ none ∧
    (queued 1).maint.queue = [request .stat] ∧ (queued 1).signsHead = false ∧ header.badOp = none ∧
    served.maint.queue.length < 4 ∧ 4 ≤ (queued 4).maint.queue.length ∧ served.maint.queue = [] ∧ (queued 1).pairMode (1 / 2) = 0 ∧ ((queued 1).ethOf 1).queue = [] ∧
    ((queued 1).ethOf 1).busyTo ≤ (queued 1).tb.ticks ∧
    { served.maint with deliv := some ⟨1, 100, 100, some 0x600000, []⟩ }.deliv = some ⟨1, 100, 100, some 0x600000, []⟩ ∧
    header.bcast = false ∧ header.ver = 1 ∧ header.lenOk = true ∧ served.maint.signing = none ∧
    { served.maint with signing := some (1, 9, 2, [3]) }.signing ≠ none := by decide +kernel

/-! ## Cores, Bobbin, locks, memory, Ground -/

theorem meets_StalledCore : (live.setCore .d1 5 { mode := .waiting }).coreRuns .d1 5 = false ∧
    (live.setCore .d1 5 { mode := .faulted }).coreRuns .d1 5 = false ∧
    (live.setCore .d1 5 { mode := .halted }).coreRuns .d1 5 = false ∧
    (regW .d0 [(Reg.RED_DIE_STATE 1, 3)] { live with red := { live.red with checking := true } }).coreRuns .d1 5 = false := by
  decide +kernel
/-- Core 5 took lock 63, last owned by core 2, in the present tick. -/
def taken : State := live.takeLock .d1 63 5 1 0 (some 2)
theorem meets_Locks : taken.coreRuns .d1 4 = true ∧ taken.lock .d1 (bitsAt (127#32).toNat 0 6) = .held (5 : Fin 12).val ∧
    (taken.lockWas .d1 63).at_ = some taken.tb.ticks ∧ lockTurn (some 2) 4 < lockTurn (some 2) 5 ∧
    lockTurn (some 2) 5 ≤ lockTurn (some 2) 6 ∧ (live.lockWas .d1 63).at_ ≠ some live.tb.ticks ∧ live.coreRuns .d1 5 = true ∧ (live.setLock .d1 63 (.held 5)).coreRuns .d1 5 = true ∧
    (live.setLock .d1 63 (.held 5)).lock .d1 (bitsAt (127#32).toNat 0 6) = .held 5 ∧
    live.lock .d1 (bitsAt (127#32).toNat 0 6) ≠ .held 5 := by decide +kernel
/-- Descriptor 7 of cluster 1 is VALID, at tick 9. -/
def described : State :=
  regW .d1 [(Reg.BOB_DESC_VALID 1 7, 1), (Reg.BOB_DESC_CORES 1 7, 7)] { live with tb := { live.tb with ticks := 9 } }
theorem meets_BobbinPosts : described.coreRuns .d1 5 = true ∧
    described.bit .d1 (Reg.BOB_DESC_VALID (bitsAt (0x550108#32).toNat 8 2) (bitsAt (0x550108#32).toNat 0 7)) = false ∧
    bitsAt (0x550300#32).toNat 8 2 = described.spare .d1 ∧
    described.bit .d1 (Reg.BOB_DESC_VALID (bitsAt (0x550107#32).toNat 8 2) (bitsAt (0x550107#32).toNat 0 7)) = true ∧
    bitsAt (0x550107#32).toNat 8 2 ≠ described.spare .d1 ∧ bitsAt (0xFFFF#32).toNat 0 16 ≠ 0 ∧
    (described.bob .d1 (bitsAt (0x550107#32).toNat 8 2)).delaySlots < 64 ∧ (described.bob .d1 1).ready = [] ∧
    (described.bob .d1 (bitsAt (0x550107#32).toNat 8 2)).held = [] ∧
    (described.bob .d1 (bitsAt (0x550107#32).toNat 8 2)).cancelsNow described.tb.ticks = [] ∧
    (∀ k, (described.bob .d1 k).cancelsNow described.tb.ticks = []) ∧
    (∀ k ∈ clusterCores (bitsAt (0x550107#32).toNat 8 2), k ≠ (11 : Fin 12).val →
      described.dispatchedNow .d1 k (bitsAt (0x550107#32).toNat 0 7) false (11 : Fin 12).val = false) ∧
    (described.setCore .d1 4 { since := some 9, task := 7, entered := 3 }).dispatchedNow .d1 4 (bitsAt (0x550107#32).toNat 0 7)
      false (11 : Fin 12).val = true ∧
    (described.setCore .d1 4 { since := some 9, task := 7, entered := 9 }).dispatchedNow .d1 4 (bitsAt (0x550107#32).toNat 0 7)
      true (11 : Fin 12).val = true ∧
    4 ∈ clusterCores (bitsAt (0x550107#32).toNat 8 2) := by
  have e : ∀ k, described.bob .d1 k = {} := fun k => rfl
  and_intros <;> first | decide +kernel | (intro k; rw [e k]; decide +kernel)
theorem meets_DelayExpiry : (live.bob .d1 1).edge % live.bobTick .d1 (1 : Fin 4) = 0 ∧ ({ desc := 7, arg := 0, delayed := true, src := 3, prio := 0 } : Task).entered ≤ (live.bob .d1 1).edge ∧
    live.tb.ticks ≤ (live.bob .d1 1).edge + live.bobTick .d1 (1 : Fin 4) := by decide +kernel
/-- The next boundary is far off. -/
def early : State := { alone with tb := { alone.tb with nextB := 10 ^ 9 * nsUnit } }
theorem meets_Commits : live.coreRuns .d0 5 = true ∧ bitsAt (0x407#32).toNat 0 12 ∈ ioSets ∧ live.mayWrite .d0 = true ∧
    { live with tb := { live.tb with guarded := true } }.inGuard = true ∧ bitsAt (0x301#32).toNat 0 12 ∈ ioSets ∧
    bitsAt (0x301#32).toNat 0 12 < 0x400 ∧ alone.coreRuns .d0 5 = true ∧ alone.mayWrite .d0 = true ∧ early.inGuard = false ∧ early.coreRuns .d0 5 = true ∧
    early.mayWrite .d0 = true ∧ early.hasPassive = false ∧
    alone.hasPassive = false ∧ bitsAt (0xFFF#32).toNat 0 12 ∉ ioSets ∧ dieSetFields (bitsAt (0xFFF#32).toNat 0 12) = [] := by
  decide +kernel
theorem meets_CoreFaults : (live.core .d1 5).mode = .running ∧ ((2#8).toNat = excIllegal ∧ fzDecode 0 = none) ∧
    fzDecode 0x0000000B ≠ none ∧ ((live.setCore .d1 5 { mode := .faulted }).bob .d1 (5 / 3)).cancelsNow live.tb.ticks = [] ∧ live.lost .d1 = false ∧ (7#8).toNat ≠ causeEcc ∧
    tabGet [] live.faultTicks (8 * Die.d1.toNat + 2 * (5 / 3)) = [] ∧ live.coreRuns .d1 5 = true ∧
    ((live.setCore .d1 5 { mode := .faulted }).core .d1 5).mode = .faulted ∧
    ((live.setCore .d1 5 { mode := .faulted }).bob .d1 (5 / 3)).ready = [] ∧ (live.core .d1 5).since = none ∧
    (live.setCore .d1 5 { since := some 7 }).coreRuns .d1 5 = true ∧
    ((live.setCore .d1 5 { since := some 7 }).core .d1 5).since = some 7 := by decide +kernel
theorem meets_LoadStoreSram : live.coreRuns .d1 5 = true ∧ areaOf 1 ((0x103#32).toNat / 4 * 4) = .sram 0x10040100 ∧
    areaOf 1 (0x103#32).toNat = .sram (0x10040100 + (0x103#32).toNat % 4) ∧ (0x103#32).toNat % widthBytes .byte = 0 ∧
    areaOf 1 (0x201FFFFC#32).toNat = .sram 0x201FFFFC ∧ (0x201FFFFC#32).toNat % widthBytes .word = 0 := by decide +kernel
theorem meets_Atomics : live.coreRuns .d1 5 = true ∧ areaOf 1 (0x201FFFFC#32).toNat = .sram 0x201FFFFC ∧
    (0x201FFFFC#32).toNat % 4 = 0 ∧ (live.core .d1 5).resv ≠ some 0x201FFFFC ∧
    ((live.setCore .d1 5 { resv := some 0x201FFFFC }).core .d1 5).resv = some 0x201FFFFC ∧ AmoOp.add ≠ .lr ∧ AmoOp.add ≠ .sc := by
  decide +kernel
theorem meets_ScrubAndParity : scrubbed (0x30008000#32).toNat = true ∧ regionOf (live.physAddr .d1 (0x30008000#32).toNat) = Region.a.toNat ∧
    bankOf (live.physAddr .d1 (0x30008000#32).toNat) = none ∧ live.rd .d1 (Reg.MEM_ECC_CE_CNT_COUNT Region.a.toNat) < 0xFFFFFFFF ∧
    0x20000000 ≤ (0x201FFFFC#32).toNat ∧ (0x201FFFFC#32).toNat < 0x20200000 ∧ scrubbed (0x201FFFFC#32).toNat = true ∧
    regionOf (live.physAddr .d1 (0x201FFFFC#32).toNat) = Region.b.toNat ∧ live.lost .d1 = false ∧ live.inService .d1 = true ∧
    live.isWorker .d1 = false ∧ live.lost .d0 = false := by decide +kernel
/-- A request of requester `r` for `n` words of the I/O die window. -/
def asks (r n : Nat) : GndReq := { req := r, words := n, bulk := false, xfer := .read 0x40000000, since := 0 }
/-- Requests of requesters 3 and 5 wait at target 37; requester 5 has tickets. -/
def waiting : State := regW .d1 [(Reg.GND_TKT_CTL 5, 3)] (live.setGndTarget .d1 37 { waiting := [asks 3 4, asks 5 4] })
/-- The same with target 37 granted to requester 3, and an emergency request waiting. -/
def granted : State := live.setGndTarget .d1 37 { hold := some ⟨asks 3 16, .draw 4, 16, 0, []⟩, waiting := [asks 22 1] }
/-- Target 0 of SRAM reads 16 words, of which the last is uncorrectable. -/
def spoiled : State := live.setGndTarget .d1 0
  { hold := some ⟨{ asks 3 16 with xfer := .read 0x10000000, errs := [(15, .uncorrectable)] }, .draw 4, 16, 0, []⟩ }
theorem meets_Ground_ready : waiting.groundOk .d1 ∧ waiting.groundClean .d1 ∧ granted.groundOk .d1 ∧ granted.groundClean .d1 := by
  refine ⟨?_, ?_, ?_, ?_⟩ <;> first | (unfold State.groundOk; decide +kernel) | (unfold State.groundClean; decide +kernel)
theorem meets_Ground : (16 : Fin 17) ≠ 0 ∧
    (waiting.gndTarget .d1 37).waiting.any (fun q => q.req = (22 : Fin 24).val) = false ∧
    gndSelects (gndAddr (22 : Fin 24) (xferAddr (.read 0x40000000))) = some (37 : Fin 38).val ∧ xferWrites (.read 0x40000000) = false ∧
    gndSelects (gndAddr (11 : Fin 24) (xferAddr (.write 0 [5]))) ≠ some (37 : Fin 38).val ∧ xferWrites (.write 0 [5]) = true ∧
    waiting.gndSilent .d1 (waiting.gndClock .d1 37) (22 : Fin 24) (waiting.gndNow .d1 (waiting.gndClock .d1 37) + 0) = false ∧
    (waiting.setCore .d1 11 { mode := .waiting }).gndSilent .d1 0 (11 : Fin 24) 5 = true ∧
    { waiting with gndEm := [(8 * Die.d1.toNat + 2 * 1 + 22 % 2, 1)] }.gndSilent .d1 1 (22 : Fin 24) 63 = true ∧
    { waiting with gndEm := [(8 * Die.d1.toNat + 2 * 1 + 22 % 2, 1)] }.gndSilent .d1 1 (22 : Fin 24) 64 = false ∧
    waiting.reqRegion .d1 (11 : Fin 24) ≠ waiting.gndClock .d1 37 % 2 ∧ waiting.reqRegion .d1 (0 : Fin 24) = waiting.gndClock .d1 37 % 2 ∧
    (waiting.gndTarget .d1 37).hold = none ∧ (waiting.gndTarget .d1 37).waiting ≠ [] := by decide +kernel
theorem meets_Ground_revoked : (granted.gndTarget .d1 37).hold.isSome = true ∧
    GrantKind.draw 4 ≠ .emergency ∧ granted.gndNow .d1 (granted.gndClock .d1 37) + 0 + 1 < 16 ∧
    (granted.gndTarget .d1 37).waiting.any (fun q => isEmergency q.req) = true := by decide +kernel
theorem meets_Ground_error : ((spoiled.gndTarget .d1 0).hold.map (fun h => (h.rq.xfer, h.rq.errs, h.done, h.rq.words, h.ends))) =
      some (.read 0x10000000, [(15, .uncorrectable)], 0, 16, 16) ∧
    (spoiled.gndTarget .d1 0).hold.bind (fun h => gndPlace (0 : Fin 38) h.rq 15) ≠ none ∧
    16 ≤ spoiled.gndNow .d1 (spoiled.gndClock .d1 0) + 16 ∧ spoiled.lost .d1 = false := by decide +kernel
theorem meets_GroundCaps : asks 5 4 ∈ (waiting.gndTarget .d1 37).waiting ∧ isEmergency 5 = false ∧ waiting.tickets .d1 (asks 5 4) ≠ 0 ∧
    (waiting.rd .d1 Reg.GND_CFG_WAIT_CAP : Int) ≤ ((waiting.gndNow .d1 (waiting.gndClock .d1 37)
      + waiting.rd .d1 Reg.GND_CFG_WAIT_CAP : Nat) : Int) - (asks 5 4).since := by decide +kernel

/-! ## Measurement -/

/-- A channel with EN and a receiver state. -/
def receiver (i st : Nat) : State := regW .d0 [(Reg.MEAS_CFG_EN i, 1), (Reg.MEAS_FLAG_RX_STATE i, st)] (lit live)
/-- Frames of the example at R172, good, with every cell an echo mark, and with one high run of 14 samples. -/
def goodF : List Bool := samplesOf ([(true, false), (true, false)] ++ List.replicate 19 (false, true) ++ List.replicate 4 (true, false))
def markF : List Bool := samplesOf (List.replicate 25 (true, true))
def longF : List Bool := List.replicate 2 false ++ List.replicate 14 true ++ (samplesOf (List.replicate 25 (false, true))).drop 16
theorem meets_SenseFrames : ([] : List Bool).length ≠ 200 ∧ goodF.length = 200 ∧ longF.length = 200 ∧
    live.pins.live = false ∧ (receiver 127 rxHunt).pins.live = true ∧ (receiver 127 rxHunt).lost .d0 = false ∧
    (receiver 127 rxHunt).ioBit (Reg.MEAS_CFG_EN 127) = true ∧ (receiver 127 rxHunt).io (Reg.MEAS_FLAG_RX_STATE 127) = rxHunt ∧
    (receiver 127 rxCheck).io (Reg.MEAS_FLAG_RX_STATE 127) = rxCheck ∧ (receiver 127 rxLocked).io (Reg.MEAS_FLAG_RX_STATE 127) = rxLocked ∧
    (goodF.foldl runStep (((receiver 127 rxHunt).ch 127).lineRun, 0)).2 < 14 ∧
    (∀ h ∈ halvesOf goodF, h.1 ≠ h.2) ∧ frameBad ((halvesOf goodF).map (fun h => !h.2)) (decide (14 ≤ 12)) = false ∧
    14 ≤ (longF.foldl runStep (((receiver 127 rxHunt).ch 127).lineRun, 0)).2 ∧
    (longF.foldl runStep (((receiver 127 rxHunt).ch 127).lineRun, 0)).2 < 16 := by decide +kernel
theorem meets_SenseFrames_dash : markF.length = 200 ∧ 16 ≤ (markF.foldl runStep (((receiver 127 rxHunt).ch 127).lineRun, 0)).1.2 ∧
    16 ≤ (markF.foldl runStep (((receiver 127 rxHunt).ch 127).lineRun, 0)).2 ∧
    (receiver 127 rxLocked).io (Reg.MEAS_FLAG_RX_STATE 127) ≠ rxDash ∧
    (receiver 127 rxDash).io (Reg.MEAS_FLAG_RX_STATE 127) = rxDash ∧ ((receiver 127 rxDash).genCh 127).faulty = false ∧
    (receiver 127 rxDash).pins.live = true := by decide +kernel
/-- A channel with a whole output's bits, and an uncompensated one. -/
def sampled (i : Nat) : State := (receiver i rxLocked).setCh i { fresh := 512 }
theorem meets_Decimation_value : (sampled 127).ioBit (Reg.MEAS_CFG_EN 127) = true ∧ isRemote 127 = true ∧
    2 ^ (sampled 127).io (Reg.MEAS_CFG_RATIO 127) ≤ ((sampled 127).ch 127).fresh ∧ ((sampled 127).ch 127).ow = 0 ∧
    ((sampled 127).ch 127).cal = 0 ∧ ((sampled 127).ch 127).hold ≤ 1 ∧ ((sampled 127).ch 127).opened = false ∧
    (sampled 127).io (Reg.MEAS_CFG_OW 127) ≠ 1 ∧ (sampled 127).ioBit (Reg.MEAS_CFG_FIR_EN 127) = false ∧
    isRemote 143 = false ∧ (sampled 143).ioBit (Reg.MEAS_CFG_EN 143) = true ∧
    2 ^ (sampled 143).io (Reg.MEAS_CFG_RATIO 143) ≤ (((sampled 143).feed 143 ([true].map (fun b => (b, false)))).ch 143).fresh ∧
    (((sampled 143).feed 143 ([true].map (fun b => (b, false)))).ch 143).ow = 0 ∧
    ((receiver 143 0).ch 143).fresh + [true].length < 2 ^ (receiver 143 0).io (Reg.MEAS_CFG_RATIO 143) := by decide +kernel
theorem meets_Decimation : (receiver 127 rxLocked).ioBit (Reg.MEAS_CFG_EN 127) = true ∧ isRemote 127 = true ∧
    2 ^ (receiver 127 rxLocked).io (Reg.MEAS_CFG_RATIO 127) ≤ ({ fresh := 128 } : MeasCh).fresh ∧ ({} : MeasCh).ow = 0 ∧
    ({} : MeasCh).fresh < 2 ^ (receiver 127 rxLocked).io (Reg.MEAS_CFG_RATIO 127) ∧
    8 ≤ ((live.setCh 127 { fpFresh := 8 }).ch 127).fpFresh ∧
    (regW .d0 [(Reg.MEAS_FP_EN 127, 1)] (receiver 127 rxLocked)).ioBit (Reg.MEAS_FP_EN 127) = true ∧
    (receiver 127 rxLocked).io (Reg.MEAS_FLAG_RX_STATE 127) = rxLocked ∧ (live.ch 127).cal = 0 ∧
    bitSum sinc2Coef (([] : List Bool).drop (8 - 8)) 0 15 ≤ live.ioInt (Reg.MEAS_FP_OV_TH 127) ∧
    256 ≤ ((live.setCh 127 { auxFresh := 256 }).ch 127).auxFresh ∧ (receiver 143 0).ioBit (Reg.MEAS_CFG_EN 143) = true ∧
    isRemote 143 = false ∧ (receiver 143 0).lost .d0 = false ∧
    2 ^ (receiver 143 0).io (Reg.MEAS_CFG_RATIO 143) ≤ ((receiver 143 0).ch 143).fresh + (List.replicate 512 true).length := by
  decide +kernel
theorem meets_SelfCalibration :
    (regW .d0 [(Reg.MEAS_CAL_PERIOD_SEC, 5)] (receiver 143 0)).io Reg.MEAS_CAL_PERIOD_SEC ≠ 0 ∧
    (receiver 143 0).ioBit (Reg.MEAS_CFG_EN (128 + 15)) = true ∧ (live.ch (128 + 15)).cal = 0 ∧ live.mayWrite .d0 = true ∧
    (List.replicate 640 true).length = 640 ∧ ((live.setCh 143 { cal := 2 }).ch (128 + 15)).cal = 2 ∧
    calMean (List.replicate 640 false) ≤ calMean (List.replicate 640 false) ∧
    (regW .d0 [(Reg.MEAS_CFG_OW 143, 2)] (receiver 143 0)).io (Reg.MEAS_CFG_OW (128 + 15)) = 2 ∧
    (regW .d0 [(Reg.MEAS_CFG_OW 143, 2)] (receiver 143 0)).pins.live = true ∧
    (regW .d0 [(Reg.MEAS_CFG_OW 143, 2)] (receiver 143 0)).ioBit (Reg.MEAS_CFG_EN (128 + 15)) = true ∧ (live.ch (128 + 15)).ow = 0 ∧
    ((live.setCh 143 { ow := 2, owOuts := [1, 2, 3] }).ch (128 + 15)).ow = 2 ∧
    ((live.setCh 143 { ow := 2, owOuts := [1, 2, 3] }).ch (128 + 15)).owOuts.length < 4 := by decide +kernel
/-- Unit 7 converts channel 143. -/
def injecting (st : Nat) : State :=
  regW .d0 [(Reg.MEAS_INJ_CFG_EN 7, 1), (Reg.MEAS_INJ_CFG_CH 7, 143), (Reg.MEAS_INJ_STAT_STATE 7, st)] live
theorem meets_InjectedConversions : (injecting injRunning).mayWrite .d0 = true ∧
    (injecting injRunning).ioBit (Reg.MEAS_INJ_CFG_EN 7) = true ∧ (injecting injRunning).io (Reg.MEAS_INJ_STAT_STATE 7) = injRunning ∧
    (injecting injQueued).io (Reg.MEAS_INJ_STAT_STATE 7) = injQueued ∧ live.lost .d0 = false ∧
    (injecting injIdle).io (Reg.MEAS_INJ_STAT_STATE 7) = injIdle ∧
    ((injecting injIdle).ch ((injecting injIdle).io (Reg.MEAS_INJ_CFG_CH 7))).cal = 0 ∧
    ((injecting injIdle).ch ((injecting injIdle).io (Reg.MEAS_INJ_CFG_CH 7))).ow = 0 ∧
    ((injecting injRunning).injOf 7).left = 0 := by decide +kernel

/-! ## Control-law engines -/

/-- Instruction `i` stands at the program counter of the running engine 2 of die 0. -/
def loaded (i : CleInstr) : State :=
  ((regW .d0 [(Reg.CLE_STAT_STATE 2, cleRun)] live).setCle .d0 2 { pc := 7 }).setRamBytes 0 (pmAddr 2 7) (bytesOf 8 (cleEncode i))
theorem meets_cleTurn : ∀ i ∈ [(⟨.nop, 0, 0, 0, 0, 0, 0, 0, 0, false⟩ : CleInstr), ⟨.clr, 0, 0, 7, 0, 0, 0, 0, 0, false⟩,
    ⟨.ldi, 0, 0, 7, 0, 100, 0, 0, 0, false⟩, ⟨.mac, 0, 0, 7, 0, 100, 200, 3, 0, false⟩, ⟨.add, 0, 0, 7, 0, 100, 0, 3, 0, false⟩,
    ⟨.addi, 0, 0, 7, 0, 100, 0, 0, 0, false⟩, ⟨.wb, 0, 0, 7, 2, 8191, 0, 0, 0, false⟩, ⟨.wb, 0, 0, 7, 2, 8191, 0, 0, 4, true⟩,
    ⟨.sti, 0, 0, 7, 0, 400, 0, 0, 0, false⟩, ⟨.pre, 0, 0, 7, 0, 400, 100, 0, 0, false⟩, ⟨.fbk, 0, 0, 0, 0, 50, 0, 0, 9, false⟩,
    ⟨.mov, 0, 0, 0, 0, 100, 101, 2, 0, false⟩, ⟨.mov, 0, 0, 0, 0, 100, 99, 2, 0, false⟩, ⟨.get, 0, 0, 0, 0, 601, 600, 4, 0, false⟩,
    ⟨.put, 0, 0, 0, 0, 99, 600, 4, 0, false⟩, ⟨.out, 0, 0, 0, 0, 100, 0, 256, 0, false⟩, ⟨.stop, 0, 0, 0, 0, 0, 0, 0, 0, false⟩],
    (loaded i).cleIssues .d0 2 = true ∧ (loaded i).cleFetch .d0 2 = some i ∧ (loaded i).executes .d0 2 i = true := by
  decide +kernel
theorem meets_CleAccumulate : ∀ j, j < 3 → coefOk ((loaded ⟨.mac, 0, 0, 7, 0, 100, 200, 3, 0, false⟩).sm .d0 2 (200 + j)) = true := by
  decide +kernel
theorem meets_CoefficientValue : coefOk 0x40000001 = true ∧ coefOk 0x20000002 = true ∧ -8 ≤ coefShift 0x40000001 ∧
    coefOk 0x7FFFFF28 = true ∧ coefShift 0x7FFFFF28 < -8 ∧
    coefMantissa 0x40000001 * 2 ^ (coefShift 0x40000001 + 24).toNat
      = coefMantissa 0x20000002 * 2 ^ (coefShift 0x20000002 + 24).toNat := by decide +kernel
theorem meets_AccumulatorBounds : accMin ≤ (⟨accMax, true⟩ : Acc).v ∧ (⟨accMax, true⟩ : Acc).v ≤ accMax ∧
    (⟨accMax, true⟩ : Acc).ovf = true ∧ (([1] : List Int).foldl Acc.plus ⟨0, false⟩).ovf = false ∧
    2 * (wbRound (2 ^ 30) 0 * 2 ^ 31 - 2 ^ 30).natAbs = 2 ^ 31 ∧ 2 * (wbRound (2 ^ 30) 2 * 2 ^ 31 - 2 ^ 30).natAbs = 2 ^ 31 := by
  decide +kernel
theorem meets_CleIntegrators : (⟨.pre, 0, 0, 7, 0, 400, 100, 0, 0, false⟩ : CleInstr).lane < 8 ∧
    (((loaded ⟨.pre, 0, 0, 7, 0, 400, 100, 0, 0, false⟩).setAcc .d0 2 7 ⟨accMax, true⟩).accOf .d0 2 7).ovf = true := by
  decide +kernel
theorem meets_CleMoves : (100 : Nat) < 101 ∧ 101 < 100 + 2 ∧ (99 : Nat) ≤ 100 ∧
    transferOk 2 ((loaded ⟨.get, 0, 0, 0, 0, 601, 600, 4, 0, false⟩).sm .d0 2 600) 4 true = true ∧
    areaOf 2 ((loaded ⟨.get, 0, 0, 0, 0, 601, 600, 4, 0, false⟩).sm .d0 2 600) = .sram 0x10080000 ∧
    transferOk 2 ((loaded ⟨.put, 0, 0, 0, 0, 99, 600, 4, 0, false⟩).sm .d0 2 600) 4 false = true ∧
    (loaded ⟨.out, 0, 0, 0, 0, 100, 0, 256, 0, false⟩).mayWrite .d0 = true := by decide +kernel
/-- GET and PUT of the engine in cluster 2 at an SRAM address of the other region. -/
def crossing (i : CleInstr) : State := (loaded i).setRam32 0 (smAddr 2 600) 0x20000000
theorem meets_CleMoves_crossing :
    (crossing ⟨.get, 0, 0, 0, 0, 601, 600, 4, 0, false⟩).cleFetch .d0 2 = some ⟨.get, 0, 0, 0, 0, 601, 600, 4, 0, false⟩ ∧
    transferOk 2 ((crossing ⟨.get, 0, 0, 0, 0, 601, 600, 4, 0, false⟩).sm .d0 2 600) 4 true = true ∧
    (crossing ⟨.get, 0, 0, 0, 0, 601, 600, 4, 0, false⟩).transferCrosses .d0 2
      ((crossing ⟨.get, 0, 0, 0, 0, 601, 600, 4, 0, false⟩).sm .d0 2 600) = true ∧
    transferOk 2 ((crossing ⟨.put, 0, 0, 0, 0, 99, 600, 4, 0, false⟩).sm .d0 2 600) 4 false = true ∧
    (crossing ⟨.put, 0, 0, 0, 0, 99, 600, 4, 0, false⟩).transferCrosses .d0 2
      ((crossing ⟨.put, 0, 0, 0, 0, 99, 600, 4, 0, false⟩).sm .d0 2 600) = true ∧
    (crossing ⟨.put, 0, 0, 0, 0, 99, 600, 4, 0, false⟩).cleIssues .d0 2 = true := by decide +kernel
def enabled : State := inPhase phaseRun (regW .d0 [(Reg.CLE_CFG_EN 2, 1), (Reg.CLE_CFG_ENTRY 2, 4000)] live)
/-- END at the program counter, before the guard of the period. -/
def ending : State :=
  let s := loaded ⟨.stop, 0, 0, 0, 0, 0, 0, 0, 0, false⟩
  { s with tb := { s.tb with nextB := 10 ^ 9 * nsUnit } }
theorem meets_CleRuns : enabled.cleRuns .d0 2 = true ∧ enabled.rd .d0 (Reg.CLE_STAT_STATE 2) ≠ cleRun ∧
    (enabled.cle .d0 2).sup = false ∧ ((loaded ⟨.stop, 0, 0, 0, 0, 0, 0, 0, 0, false⟩).cle .d0 2).sup = false ∧
    ending.inGuard = false ∧ ending.io Reg.TB_PERIOD_NUM_K = (ending.cle .d0 2).k ∧ ending.cleIssues .d0 2 = true ∧
    (ending.cle .d0 2).sup = false ∧ ending.cleFetch .d0 2 = some ⟨.stop, 0, 0, 0, 0, 0, 0, 0, 0, false⟩ ∧
    ending.executes .d0 2 ⟨.stop, 0, 0, 0, 0, 0, 0, 0, 0, false⟩ = true ∧
    (loaded ⟨.stop, 2, 0, 0, 0, 0, 0, 0, 0, false⟩).cleFetch .d0 2 = some ⟨.stop, 2, 0, 0, 0, 0, 0, 0, 0, false⟩ ∧
    (loaded ⟨.stop, 2, 0, 0, 0, 0, 0, 0, 0, false⟩).cleIssues .d0 2 = true ∧
    (loaded ⟨.stop, 2, 0, 0, 0, 0, 0, 0, 0, false⟩).executes .d0 2 ⟨.stop, 2, 0, 0, 0, 0, 0, 0, 0, false⟩ = false ∧
    (loaded topMac).rd .d0 (Reg.CLE_STAT_STATE 2) = cleRun ∧ (0xFF#8).toNat ≠ causeCleEcc ∧
    tabGet [] (loaded topMac).faultTicks (8 * Die.d0.toNat + 2 * 2 + 1) = [] := by decide +kernel

/-! ## Gates, trips, balancing -/

/-- A channel unit with a pending edge, an echo watch and a placed BYPASS turn-on. -/
def unit127 : State := (lit live).setGenCh 127
  (({ watch := some 3, bypassAt := some 9 } : GenCh).each (fun c => { c with edges := [⟨true, true, 5⟩] }))
theorem meets_GateUnits : unit127.edgeDue 127 true = some ⟨true, true, 5⟩ ∧ unit127.forceBlock 127 = false ∧
    unit127.io (Reg.GEN_STAT_FENCE 127) ∈ [0, 1, 2, 4] ∧
    (regW .d0 [(Reg.GEN_STAT_FENCE 127, 4)] unit127).io (Reg.GEN_STAT_FENCE 127) ∈ [0, 1, 2, 4] ∧
    ((regW .d0 [(Reg.GEN_STAT_FENCE 127, 4)] unit127).genCh 127).diff = 0 ∧ (unit127.genCh 127).faulty = false ∧
    unit127.testState = false ∧ (unit127.genCh 127).watch = some 3 ∧ unit127.io (Reg.GEN_STAT_FENCE 127) = 0 ∧
    (unit127.genCh 127).diff.getLsbD 2 = false ∧ 2 ≤ runOf ({ runs := (2, 2, 2) } : GenCh).runs 2 ∧
    ((unit127.setGenCh 127 { diff := 1, runs := (1, 0, 2) }).genCh 127).diff ≠ 0 ∧
    ((unit127.setGenCh 127 { diff := 1, runs := (1, 0, 2) }).genCh 127).diff.getLsbD 2 = false ∧
    2 ≤ runOf ((unit127.setGenCh 127 { diff := 1, runs := (1, 0, 2) }).genCh 127).runs 2 ∧
    (unit127.setGenCh 127 { diff := 1, runs := (1, 0, 2) }).io (Reg.GEN_STAT_FENCE 127) = 0 ∧
    (regW .d0 [(Reg.GEN_STAT_FENCE 127, 1)] unit127).io (Reg.GEN_STAT_FENCE 127) ≠ 0 ∧
    bitOf ((regW .d0 [(Reg.GEN_STAT_FENCE 127, 1)] unit127).io (Reg.GEN_STAT_FENCE 127)) 2 = false ∧
    live.mayWrite .d0 = true := by decide +kernel
/-- Every group ARMED and released, channel 127 in carrier mode with P = 1000. -/
def carrier : State :=
  let s := regW .d0 ((List.range 16).map fun g => (Reg.TRIP_GRP_STAT_STATE g, grpArmed)) (lit live)
  regW .d0 [(Reg.TRIP_STATE_ASSERTED, 0), (Reg.GEN_CH_CFG_MODE 127, 2), (Reg.GEN_CAR_CFG_P, 1000), (Reg.GEN_CAR_CFG_SRC, 1),
    (Reg.GEN_SYNC_WIN, 50)] { s with trip := { s.trip with package := false }, tb := { s.tb with released := true } }
def tracking (miss : Nat) : State :=
  regW .d0 [(Reg.GEN_SYNC_STAT_TRACK, 1), (Reg.GEN_SYNC_STAT_MISS, miss), (Reg.GEN_SYNC_MISS_LIMIT, 4)] carrier
/-- The carrier of channel 127 by the chain, in the cycle of epoch 3 at tick 900, and at half of its value. -/
def chained (y : Nat) : State :=
  let s := regW .d0 [(Reg.CLE_OUTA_Y 0 0, y), (Reg.GEN_MINPW_MIN_PW, 10)] carrier
  { s with sync := { epoch := 900, epochs := [(3, 900)] }, tb := { s.tb with ticks := 5 } }
def midway : State := (chained 0x40000000).setGenCh 127
  (({ cycRun := true, cycStart := 900 } : GenCh).each (fun c => { c with cyc := 3 }))
theorem meets_CarrierChain_cycle : (chained 0).carrierLive 127 = true ∧ (chained 0).cycleStart 127 = some (3, 900) ∧
    (chained 0).tb.ticks ≤ 900 ∧ ((chained 0).runTo 900).tickAt (chained 0).tb.nextB ≠ 900 ∧ ((chained 0).halfWidth 127).1 = 0 ∧
    ((chained 0x7FFFFFFF).halfWidth 127).1 = 8 * (chained 0).io Reg.GEN_CAR_CFG_P ∧
    ((chained 0x40000000).halfWidth 127).1 = 4000 ∧ (chained 0x40000000).cycleStart 127 = some (3, 900) ∧
    (chained 0x40000000).carrierLive 127 = true ∧ 16 ≤ 8 * (chained 0x40000000).io Reg.GEN_CAR_CFG_P - 4000 ∧
    (regW .d0 [(Reg.GEN_CAR_CFG_SRC, 0)] carrier).cycleStart 127 = some (0, 0) ∧
    midway.carrierLive 127 = true ∧ (midway.genCh 127).cycRun = true ∧
    (midway.runTo ((midway.genCh 127).cycStart + midway.io Reg.GEN_CAR_CFG_P / 2)).tickAt midway.tb.nextB ≠
      (midway.genCh 127).cycStart + midway.io Reg.GEN_CAR_CFG_P / 2 ∧
    midway.tb.ticks ≤ (midway.genCh 127).cycStart + midway.io Reg.GEN_CAR_CFG_P / 2 ∧
    midway.io Reg.GEN_CAR_CFG_P / 2 < (8 * midway.io Reg.GEN_CAR_CFG_P + (midway.halfWidth 127).1) / 16 := by decide +kernel
theorem meets_CarrierChain : carrier.carrierLive 127 = true ∧ carrier.io Reg.GEN_CAR_CFG_P ≠ 0 ∧
    ((carrier.setGenCh 127 { cycRun := true }).genCh 127).cycRun = true ∧
    (carrier.setGenCh 127 { cycRun := true }).carrierLive 127 = true ∧ carrier.io Reg.GEN_CAR_CFG_SRC ≠ 0 ∧
    carrier.io Reg.GEN_SYNC_STAT_TRACK = 0 ∧ (tracking 2).io Reg.GEN_SYNC_STAT_TRACK ≠ 0 ∧
    carrier.tb.released = true ∧ (tracking 2).inWindow ((tracking 2).tb.ticks + 50) (tracking 2).sync.epoch = true ∧
    (tracking 2).inWindow ((tracking 2).tb.ticks + 51) (tracking 2).sync.epoch = false ∧
    (tracking 2).inNextWindow ((tracking 2).tb.ticks + 51) = false ∧
    ({ tracking 2 with sync := { epoch := 0, next := some 900 } } : State).inWindow 850 0 = false ∧
    ({ tracking 2 with sync := { epoch := 0, next := some 900 } } : State).inNextWindow 850 = true ∧
    (tracking 2).io Reg.GEN_CAR_CFG_SRC ≠ 0 ∧ (tracking 2).sync.next = none ∧
    (tracking 2).io Reg.GEN_SYNC_STAT_MISS + 1 < (tracking 2).io Reg.GEN_SYNC_MISS_LIMIT ∧
    (tracking 3).io Reg.GEN_SYNC_MISS_LIMIT ≤ (tracking 3).io Reg.GEN_SYNC_STAT_MISS + 1 := by decide +kernel
theorem meets_CarrierChain_out : (regW .d0 [(Reg.GEN_CAR_CFG_SYNC_OUT, 1)] carrier).io Reg.GEN_CAR_CFG_SYNC_OUT = 1 ∧
    (regW .d0 [(Reg.GEN_CAR_CFG_SYNC_OUT, 1)] carrier).io Reg.GEN_CAR_CFG_SRC ≠ 0 ∧
    (regW .d0 [(Reg.GEN_CAR_CFG_SYNC_OUT, 1)] carrier).testState = false ∧
    (regW .d0 [(Reg.GEN_CAR_CFG_SYNC_OUT, 1)] carrier).pins.live = true := by decide +kernel
/-- TRIP_IN[7], active high, trips group 15. -/
def pinned : State :=
  regW .d0 [(Reg.TRIP_IN_CFG_EN, 0x80), (Reg.TRIP_IN_CFG_POL, 0), (Reg.TRIP_IN_MASK_MASK 7, 0x8000)] carrier
/-- Lane 31 is UP and its block order sets trip group 15. -/
def ordered : State := regW .d0 [(Reg.TRIP_BOS_CFG_MASK, 0x8000), (Reg.TRIP_BOS_FWD_LANES, 5), (Reg.LANE_CFG_USE 31, 1),
  (Reg.LANE_STAT_STATE 31, laneUp), (Reg.LANE_STAT_RX_SVC 31, 1), (Reg.LANE_STAT_CDR_LOCK 31, 1), (Reg.LANE_ALIGN_ALIGNED 31, 1)]
  carrier
/-- Group 15 in HOLD, cleared in this tick, and ARMED, re-armed in it. -/
def justCleared : State := (regW .d0 [(Reg.TRIP_GRP_STAT_STATE 15, grpHold)] carrier).setGrp 15 { cleared := some (0, true) }
def justArmed : State := carrier.setGrp 15 { rearmed := some (0, grpTripped, true) }
theorem armedOrHeld_of {s : State} {g : Nat} (h : s.io (Reg.TRIP_GRP_STAT_STATE g) = grpArmed ∨ s.io (Reg.TRIP_GRP_STAT_STATE g) = grpHold)
    (hc : (s.grp g).cleared = none) (hr : (s.grp g).rearmed = none) : s.armedOrHeld g :=
  ⟨h, fun x hx => by simp [hc] at hx, fun x hx => by simp [hr] at hx⟩
theorem meets_TripSources_ready : carrier.armedOrHeld 15 ∧ pinned.armedOrHeld 15 ∧ ordered.armedOrHeld 15 ∧
    (regW .d0 [(Reg.TRIP_GRP_STAT_STATE 15, grpHold)] carrier).armedOrHeld 15 :=
  ⟨armedOrHeld_of (.inl (by decide +kernel)) (by decide +kernel) (by decide +kernel),
    armedOrHeld_of (.inl (by decide +kernel)) (by decide +kernel) (by decide +kernel),
    armedOrHeld_of (.inl (by decide +kernel)) (by decide +kernel) (by decide +kernel),
    armedOrHeld_of (.inr (by decide +kernel)) (by decide +kernel) (by decide +kernel)⟩
theorem meets_TripSources_now : justCleared.io (Reg.TRIP_GRP_STAT_STATE 15) = grpHold ∧
    (justCleared.grp 15).cleared = some (justCleared.tb.ticks, true) ∧ justCleared.mayWrite .d0 = true ∧
    justArmed.io (Reg.TRIP_GRP_STAT_STATE 15) = grpArmed ∧ justArmed.mayWrite .d0 = true ∧
    (justArmed.grp 15).rearmed = some (justArmed.tb.ticks, grpTripped, true) := by decide +kernel
theorem meets_TripSources : carrier.mayWrite .d0 = true ∧ (0x8000#16).getLsbD 15 = true ∧
    carrier.io (Reg.TRIP_GRP_STAT_STATE 15) = grpArmed ∧
    (regW .d0 [(Reg.TRIP_GRP_STAT_STATE 15, grpHold)] carrier).io (Reg.TRIP_GRP_STAT_STATE 15) = grpHold ∧
    bitOf (pinned.io Reg.TRIP_IN_CFG_EN) 7 = true ∧ true ≠ bitOf (pinned.io Reg.TRIP_IN_CFG_POL) 7 ∧
    bitOf (pinned.io (Reg.TRIP_IN_MASK_MASK 7)) 15 = true ∧ (10 : Nat) ≤ 10 ∧ ordered.seesBos 31 = true ∧
    bitOf (ordered.io Reg.TRIP_BOS_CFG_MASK) 15 = true ∧ ordered.io (Reg.TRIP_GRP_STAT_STATE 15) = grpArmed ∧ (2 : Fin 32) ≠ 31 ∧
    bitOf (ordered.io Reg.TRIP_BOS_FWD_LANES) 2 = true := by decide +kernel
def tripped (fw : BitVec 16) : State :=
  let s := regW .d0 [(Reg.TRIP_GRP_STAT_STATE 15, grpTripped), (Reg.TRIP_STATE_ASSERTED, 0x8000)] carrier
  { s with trip := { s.trip with fw := fw } }
theorem meets_TripSources_clear : (tripped 0).tripScan.io (Reg.TRIP_GRP_STAT_STATE 15) = grpTripped ∧
    (tripped 0).tripScan.sourceNow 15 = false ∧
    (tripped 0x8000).tripScan.io (Reg.TRIP_GRP_STAT_STATE 15) = grpTripped ∧
    (tripped 0x8000).tripScan.sourceNow 15 = true := by decide +kernel
/-- Channel 127 is held in BYPASS by group 15. -/
def bypassed : State := (regW .d0 [(Reg.TRIP_CH_CFG_GROUP 127, 15)] (tripped 0)).setGenCh 127 { bypassAt := some 9 }
theorem meets_TripSources_bypass : (bypassed.genCh 127).bypassAt = some 9 ∧ bypassed.chAsserted 127 = true ∧
    bypassed.forceBlock 127 = false ∧ bypassed.testState = false := by decide +kernel
def record : TripRec := ⟨5, 1, 2, 3, 4, 5⟩
theorem meets_TripRecords : carrier.io (Reg.TRIP_GRP_STAT_STATE 15) ≠ grpFault ∧ carrier.io (Reg.TRIP_GRP_STAT_FENCE 15) = 0 ∧
    (regW .d0 [(Reg.TRIP_GRP_STAT_FENCE 15, 2)] carrier).io (Reg.TRIP_GRP_STAT_STATE 15) ≠ grpFault ∧
    (regW .d0 [(Reg.TRIP_GRP_STAT_FENCE 15, 2)] carrier).io (Reg.TRIP_GRP_STAT_FENCE 15) ≠ 0 ∧
    bitOf ((regW .d0 [(Reg.TRIP_GRP_STAT_FENCE 15, 2)] carrier).io (Reg.TRIP_GRP_STAT_FENCE 15)) 2 = false ∧
    { live.trip with recs := [record] }.recs = [record] ∧
    (regW .d0 [(Reg.TRIP_REC_WP_IDX, 511)] live).io Reg.TRIP_REC_WP_IDX < 512 ∧ live.lost .d1 = false := by decide +kernel
/-- A Cell, and a Hub, whose gates are released, with balancing on. -/
def balancing (role : Nat) : State :=
  regW .d0 [(Reg.SYS_NODE_ROLE, role), (Reg.BAL_CFG_EN, 1), (Reg.GEN_CH_CFG_MODE 127, 1), (Reg.BAL_ARM_CFG_EN 5, 1)]
    { live with tb := { live.tb with released := true } }
theorem meets_Balancing : (balancing 0).inPeriod ((balancing 0).rd .d0 Reg.BAL_TSORT_T_SORT) = true ∧
    (regW .d0 [(Reg.BAL_TSORT_T_SORT, 6000)] (balancing 0)).inPeriod
      ((regW .d0 [(Reg.BAL_TSORT_T_SORT, 6000)] (balancing 0)).rd .d0 Reg.BAL_TSORT_T_SORT) = false ∧
    (balancing 1).inPeriod ((balancing 1).rd .d0 (Reg.BAL_ARM_QS_Q_START (5 : Fin 6))) = true ∧ (balancing 0).balOn .d0 = true ∧ (balancing 0).red.stopAt = none ∧ (balancing 0).isHub = false ∧ ((balancing 0).cellBal .d0).built = false ∧
    (balancing 1).balOn .d0 = true ∧ (balancing 1).isHub = true ∧ (balancing 1).rd .d0 (Reg.BAL_ARM_CFG_EN 5) ≠ 0 ∧
    (balancing 0).tb.released = true ∧ ((balancing 0).cellBal .d0).applied = false ∧
    (((balancing 0).setCellBal .d0 { applied := true }).cellBal .d0).applied = true ∧ (balancing 0).healthOn .d0 = true := by
  decide +kernel
theorem meets_Balancing_population :
    ((balancing 0).channels.filter (fun n => decide (16 ≤ (balancing 0).hlt .d0 n 0x8 2))).length < 16 ∧
    ((balancing 0).channels.filter (fun n => decide (16 ≤ (balancing 0).hlt .d0 n 0xA 2))).length < 16 := by decide +kernel

/-! ## Serial lanes -/

/-- Lane 31 in a state and a phase, as a Nolri lane. -/
def lane (st ph : Nat) : State := regW .d0 [(Reg.LANE_CFG_USE 31, 1), (Reg.LANE_STAT_STATE 31, st), (Reg.LANE_STAT_PHASE 31, ph),
  (Reg.LANE_GLB_CFG_RETRIES, 3), (Reg.LANE_CFG_FOM_MIN 31, 10), (Reg.LANE_STAT_FOM 31, 10)] live
/-- Lane 31 searches its peaking codes 13 to 15. -/
def searching : State := regW .d0 [(Reg.LANE_EQ_CTLE_LO 31, 13), (Reg.LANE_EQ_CTLE_HI 31, 15)] (lane laneTrain phaseEq)
theorem meets_LaneTraining : (lane laneOff 0).io (Reg.LANE_CFG_USE 31) ≠ 0 ∧ (lane laneOff 0).laneState 31 ≤ lanePllWait ∧
    (inPhase phaseLanes (lane laneOff 0)).laneState 31 ≤ lanePllWait ∧
    (inPhase phaseLanes (lane laneOff 0)).io (Reg.LANE_CFG_USE 31) ≠ 0 ∧
    (inPhase phaseLanes (lane laneOff 0)).laneSupply = true ∧ (inPhase phaseLanes (lane laneOff 0)).refOk 31 = true ∧
    phaseLanes ≤ (inPhase phaseLanes (lane laneOff 0)).phase ∧
    (regW .d0 [(Reg.LANE_EQ_FREEZE 31, 1)] (lane laneTrain phaseEq)).ioBit (Reg.LANE_EQ_FREEZE 31) = true ∧
    (searching.ioBit (Reg.LANE_EQ_FREEZE 31) = false ∧ searching.io (Reg.LANE_EQ_CTLE_LO 31) ≤ searching.io (Reg.LANE_EQ_CTLE_HI 31) ∧
      searching.io (Reg.LANE_EQ_CTLE_HI 31) < 16 ∧ searching.laneState 31 = laneTrain ∧
      (searching.lane 31).eqSeen = 0 ∧ (searching.lane 31).eqSeen < searching.eqCodes 31 ∧
      ((searching.setLane 31 { eqSeen := 3, eqBest := (14, 9) }).lane 31).eqSeen = searching.eqCodes 31 ∧ 0 < searching.eqCodes 31 ∧
      ((searching.setLane 31 { eqSeen := 2, eqBest := (14, 9) }).lane 31).eqSeen + 1 = searching.eqCodes 31 ∧
      searching.io (Reg.LANE_STAT_PHASE 31) = phaseEq ∧ searching.io (Reg.LANE_EQ_CTLE_HI 31) + 1
        - searching.io (Reg.LANE_EQ_CTLE_LO 31) = [(9 : Byte), 9, 7].length) ∧
    (lane laneTrain phaseCdr).laneState 31 = laneTrain ∧ (lane laneTrain phaseCdr).io (Reg.LANE_STAT_PHASE 31) = phaseCdr ∧
    (lane laneTrain phaseEq).io (Reg.LANE_STAT_PHASE 31) = phaseEq ∧ (lane laneTrain phaseAlign).io (Reg.LANE_STAT_PHASE 31) = phaseAlign ∧
    wordValid 0x5A 0 3 0 0 0 (0x5A ^^^ 0 ^^^ 3) = true ∧ (0#8).getLsbD 0 = false ∧ (lane laneUp 0).laneState 31 = laneUp ∧
    wordValid 0x5A 1 3 0 0 0 (0x5A ^^^ 1 ^^^ 3) = true ∧ (1#8).getLsbD 0 = true ∧
    (lane laneTrain phaseHandshake).io (Reg.LANE_STAT_PHASE 31) = phaseHandshake ∧ (lane laneUp 0).io (Reg.LANE_CFG_USE 31) = 1 ∧
    (lane laneAbsent 0).laneState 31 = laneAbsent ∧ (lane laneBackoff 0).laneState 31 = laneBackoff := by decide +kernel
/-- Every rail is up. -/
def powered (s : State) : State := { s with power := { s.power with up := 0x3F } }
def shaking : State := (regW .d0 [(Reg.LANE_ALIGN_ALIGNED 31, 1)] (lane laneTrain phaseHandshake)).setLane 31
  { readyGot := 15, readySent := 15, sdSeen := true }
theorem meets_LaneTraining_handshake : shaking.laneState 31 = laneTrain ∧ shaking.io (Reg.LANE_STAT_PHASE 31) = phaseHandshake ∧
    shaking.io (Reg.LANE_CFG_USE 31) = 1 ∧ shaking.sendsReady 31 = true ∧ 15 ≤ (shaking.lane 31).readyGot ∧
    15 ≤ (shaking.lane 31).readySent ∧ shaking.ioBit (Reg.LANE_CTL_TX_SLEEP 31) = false ∧
    shaking.ioBit (Reg.LANE_CTL_RX_SLEEP 31) = false ∧ (shaking.lane 31).sdSeen = true ∧
    (regW .d0 [(Reg.LANE_CFG_USE 31, 2)] shaking).io (Reg.LANE_CFG_USE 31) = 2 ∧
    shaking.io (Reg.LANE_CFG_FOM_MIN 31) ≤ shaking.io (Reg.LANE_STAT_FOM 31) ∧ (powered shaking).laneTx 31 = .training ∧
    (powered shaking).laneState 31 = laneTrain ∧ (powered shaking).io (Reg.LANE_STAT_PHASE 31) = phaseHandshake ∧
    (powered shaking).io (Reg.LANE_CFG_USE 31) = 1 := by decide +kernel
theorem meets_LaneTraining_loss : (lane laneUp 0).rxServes 31 = true ∧ (lane laneUp 0).ioBit (Reg.LANE_CTL_PEER_SLEEP_OK 31) = false ∧
    (regW .d0 [(Reg.LANE_CTL_PEER_SLEEP_OK 31, 1)] (lane laneUp 0)).ioBit (Reg.LANE_CTL_PEER_SLEEP_OK 31) = true := by
  decide +kernel
theorem meets_LaneService : (lane laneUp 0).rxOn 31 = true ∧ alignLimit ((lane laneUp 0).io (Reg.LANE_CFG_RATE 31)) ≤ 16 ∧
    3 < alignLimit ((lane laneUp 0).io (Reg.LANE_CFG_RATE 31)) ∧ (lane laneUp 0).rxServes 31 = true ∧
    fom 2 255 < (lane laneUp 0).io (Reg.LANE_CFG_FOM_MIN 31) ∧ 2 ≤ (((lane laneUp 0).setLane 31 { low := 2 }).lane 31).low ∧
    ¬((lane laneUp 0).laneState 31 = laneTrain ∧ (lane laneUp 0).io (Reg.LANE_STAT_PHASE 31) = phaseCdr) ∧
    (lane laneUp 0).ioBit (Reg.LANE_EQ_FREEZE 31) = false ∧ (lane laneUp 0).mayWrite .d0 = true ∧
    (lane laneUp 0).laneState 31 ≠ laneOff ∧ (lane laneUp 0).laneState 31 ≠ lanePllWait ∧
    (lane laneUp 0).laneState 31 ≠ laneTrain ∧ (lane laneUp 0).laneState 31 ≤ laneHalf ∧
    (lane laneTrain phaseAlign).laneState 31 = laneTrain ∧ (lane laneTrain phaseAlign).io (Reg.LANE_STAT_PHASE 31) = phaseAlign ∧
    (lane laneHalf 0).laneState 31 = laneHalf ∧ (lane laneHalf 0).io (Reg.LANE_STAT_RX_SVC 31) = 0 ∧
    (lane laneHalf 0).io (Reg.LANE_CTL_RX_SLEEP 31) = 0 ∧ (lane laneHalf 0).io (Reg.LANE_CFG_FOM_MIN 31) ≤ fom 3 255 := by
  decide +kernel
theorem meets_LaneService_quad : (31 : Fin 32).val / 4 = (7 : Fin 8).val ∧ (lane laneUp 0).pllOf 31 = 0 ∧
    (31 : Fin 32).val / 16 = (1 : Fin 2).val := by decide +kernel
/-- The pattern checker of lane 31 is one bit from its lock. -/
def locking : State := (regW .d0 [(Reg.LANE_TEST_PRBS 31, 3)] (lane laneOff 0)).setLane 31
  { prbsRef := List.replicate 31 true, prbsGood := 63 }
/-- The same with the lane's own bits looped back. -/
def looped : State := (regW .d0 [(Reg.LANE_TEST_LOOP 31, 1)] locking).setLane 31
  { prbsRef := List.replicate 31 true, prbsGood := 63, prbsGen := List.replicate 31 true }
theorem meets_LaneService_prbs : 1 ≤ locking.io (Reg.LANE_TEST_PRBS 31) ∧ locking.io (Reg.LANE_TEST_PRBS 31) ≤ 3 ∧
    locking.ioBit (Reg.LANE_TEST_CHK_LOCK 31) = false ∧ 63 ≤ (locking.lane 31).prbsGood ∧ 31 ≤ (locking.lane 31).prbsRef.length ∧
    false = prbsNext (locking.io (Reg.LANE_TEST_PRBS 31)) (locking.lane 31).prbsRef ∧
    (regW .d0 [(Reg.LANE_TEST_CHK_LOCK 31, 1)] locking).ioBit (Reg.LANE_TEST_CHK_LOCK 31) = true ∧
    locking.io (Reg.LANE_PRBS_ERR_COUNT 31) < counterMax ∧ (powered locking).laneTx 31 = .pattern ∧
    looped.io (Reg.LANE_TEST_LOOP 31) = 1 ∧ 1 ≤ looped.io (Reg.LANE_TEST_PRBS 31) ∧ looped.io (Reg.LANE_TEST_PRBS 31) ≤ 3 ∧
    looped.ioBit (Reg.LANE_TEST_CHK_LOCK 31) = false ∧ 63 ≤ (looped.lane 31).prbsGood ∧ 31 ≤ (looped.lane 31).prbsRef.length ∧
    prbsNext (looped.io (Reg.LANE_TEST_PRBS 31)) (looped.lane 31).prbsGen
      = prbsNext (looped.io (Reg.LANE_TEST_PRBS 31)) (looped.lane 31).prbsRef := by decide +kernel
theorem meets_LaneService_test : (regW .d0 [(Reg.LANE_CFG_USE 31, 0)] (lane laneOff 0)).testAllowed 31 = true ∧ (3#3).toNat < 4 ∧
    (lane laneUp 0).testAllowed 31 = false := by decide +kernel

/-! ## Nolri -/

/-- Link 31, towards the parent or towards Cells, FULL on lane 31, with room in its buffers, in period 8. -/
def linked (dir : Nat) : State := regW .d0 [(Reg.NOL_LINK_CFG_EN 31, 1), (Reg.NOL_LINK_CFG_DIR 31, dir), (Reg.NOL_LINK_BUF_TC 31, 40),
  (Reg.NOL_LINK_BUF_OPEN 31, 40), (Reg.NOL_LINK_BUF_BULK 31, 40), (Reg.TB_PERIOD_NUM_K, 8), (Reg.NOL_LINK_STAT_STATE 31, linkFull),
  (Reg.NOL_LINK_STAT_TX_SET 31, 1), (Reg.NOL_LINK_LANES_LANE0 31, 31), (Reg.SYS_NODE_NODE_ID, 5), (Reg.SYS_NODE_PARENT, 77)] live
def cell : State := linked dirUp
def hub : State := regW .d0 [(Reg.SYS_NODE_ROLE, 1), (Reg.SYS_NODE_PARENT, 5)] (linked dirDown)
/-- From the parent 77 to the Cell 5 in period 8, to all in period 9, and from member 33 to the Hub 5. -/
def fromParent : NolHeader := ⟨0, 77, 5, 8⟩
def toAll : NolHeader := ⟨1, 77, 5, 9⟩
def fromMember : NolHeader := ⟨0, 33, 5, 8⟩
def cycleP : CyclePayload := ⟨⟨3, 7, 9⟩, 0, 0, 77, 1⟩
def thresholdP : ThresholdPayload := ⟨8, 40, 1, 0, 5⟩
def ladderP : LadderPayload := ⟨8, 2, 0, 3, 0, 0, 0, [7, 7] ++ List.replicate 126 0xFFFF⟩
def statusP : StatusPayload := ⟨⟨1, 2, 3⟩, ⟨1, 2, 3⟩, 5, 9, 3, 0, 5, 1, 2, 3, 4⟩
def following : State := regW .d0 [(Reg.SERVO_CFG_SRC, 1)] cell
def balCell : State := (regW .d0 [(Reg.BAL_CFG_EN, 1), (Reg.GEN_CH_CFG_MODE 127, 1), (Reg.BAL_TSEL_T_SEL, 500)]
  { cell with tb := { cell.tb with released := true } }).setCellBal .d0 { ladder := [(40, 0), (41, 3)], built := true }
def balHub : State := { regW .d0 [(Reg.BAL_CFG_EN, 1), (Reg.BAL_ARM_QS_Q_START 2, 700), (Reg.NOL_MEMBER0_VALID 31, 1),
    (Reg.NOL_MEMBER0_NODE 31, 33), (Reg.NOL_MEMBER1_UID 31, 7)] hub with hubMem := [(33, some { arm := 2, from_ := 8 })] }

theorem meets_NolriData_cycle : (following.nolReceive 31 typeCycle toAll true (cycleBytes cycleP)).2 = true ∧
    following.isHub = false ∧ toAll.period.toNat ≠ following.io Reg.TB_PERIOD_NUM_K ∧ cycleP.flags.getLsbD 0 = true ∧
    following.servoSource = 1 ∧ following.tb.released = false ∧ following.servo.taken = false := by decide +kernel
theorem meets_NolriData_ref : 1 ≤ (List.replicate 64 (9 : Word)).length ∧ (List.replicate 64 (9 : Word)).length ≤ 64 ∧
    (cell.nolReceive 31 typeRef fromParent true ((List.replicate 64 (9 : Word)).flatMap (fun w => bytesOf 4 w.toNat))).2 = true := by
  decide +kernel
theorem meets_NolriData_threshold : (balCell.nolReceive 31 typeThreshold fromParent true (thresholdBytes thresholdP)).2 = true ∧
    balCell.balOn .d0 = true ∧ balCell.isHub = false ∧ balCell.tb.released = true ∧ (balCell.cellBal .d0).applied = false ∧
    thresholdP.period.toNat = balCell.io Reg.TB_PERIOD_NUM_K ∧
    balCell.tb.ticks < balCell.tb.bTick + balCell.rd .d0 Reg.BAL_TSEL_T_SEL ∧
    thresholdP.tie.toNat ≤ ((balCell.cellBal .d0).ladder.filter (fun e => e.1 = thresholdP.k.toNat)).length := by decide +kernel
theorem meets_NolriData_ladder : ladderP.keys.length = 128 ∧ ladderP.ins.toNat ≤ 128 ∧ ladderP.reserved = 0 ∧
    (balHub.nolReceive 31 typeLadder fromMember true (ladderBytes ladderP)).2 = true := by decide +kernel
theorem meets_NolriData_hub : balHub.isHub = true ∧
    balHub.balOn .d0 = true ∧ balHub.hubMember .d0 fromMember.src.toNat = some { arm := 2, from_ := 8 } ∧
    later 8 ladderP.period.toNat = false ∧ ladderP.period.toNat = balHub.io Reg.TB_PERIOD_NUM_K ∧
    balHub.tb.ticks < balHub.tb.bTick + balHub.rd .d0 (Reg.BAL_ARM_QS_Q_START 2) := by decide +kernel
theorem meets_NolriData_keys : ladderP.e.toNat ≤ 128 ∧ ladderP.flags.toNat < 4 ∧
    (∀ x ∈ ladderP.keys.drop ladderP.e.toNat, x = 0xFFFF) ∧ (∀ x ∈ ladderP.keys.take ladderP.e.toNat, x ≠ 0xFFFF) ∧
    (ladderP.keys.take ladderP.e.toNat).Pairwise (fun x y => x.toNat ≤ y.toNat) := by
  have hd : ladderP.keys.drop ladderP.e.toNat = List.replicate 126 0xFFFF := rfl
  have ht : ladderP.keys.take ladderP.e.toNat = [7, 7] := rfl
  refine ⟨by decide, by decide, fun x hx => ?_, ?_, ?_⟩
  · rw [hd] at hx
    exact List.eq_of_mem_replicate hx
  · rw [ht]
    simp
  · rw [ht]
    simp
theorem meets_NolriData_rest : cell.nolPasses 31 typeStatus fromParent (statusBytes statusP).length = true ∧
    (balHub.nolReceive 31 typeHealth fromMember true (healthBytes 0 [⟨104, 1, 2, 3, 4, 5, 6, 7⟩])).2 = true ∧
    balHub.memberOf fromMember.src.toNat = some 31 ∧ tabGet 0 balHub.nol.healthPer 31 ≠ fromMember.period.toNat + 1 ∧
    (cell.nolReceive 31 typeBulk fromParent true [1, 2, 3]).2 = true ∧ cell.lost .d0 = false ∧
    cell.io (Reg.NOL_LINK_RX_CNT_COUNT 31) < counterMax := by decide +kernel
/-- A lane, 31, UP and bonded into link 31 at position 3. -/
def bonded : State := regW .d0 [(Reg.LANE_CFG_USE 31, 1), (Reg.LANE_STAT_STATE 31, laneUp), (Reg.NOL_LINK_LANES_N 31, 3),
  (Reg.NOL_LINK_LANES_LANE0 31, 28), (Reg.NOL_LINK_LANES_LANE1 31, 29), (Reg.NOL_LINK_LANES_LANE2 31, 30),
  (Reg.NOL_LINK_LANES_LANE3 31, 31), (Reg.NOL_LINK_STAT_TX_SET 31, 8)] cell
def slotted (type : Nat) : State := regW .d0 [(Reg.NOL_SCHED0_EN 31 0 31, 1), (Reg.NOL_SCHED0_TYPE 31 0 31, type)] cell
def sending : OutFrame := ⟨typeLeave, false, 1, 5, 77, 8, [1]⟩
theorem meets_NolriLinks : (slotted typeRef).inPeriod
      ((slotted typeRef).io (Reg.NOL_SCHED0_START 31 ((slotted typeRef).io (Reg.NOL_LINK_STAT_FORM 31)) 31)) = true ∧
    (slotted typeThreshold).inPeriod
      ((slotted typeThreshold).io (Reg.NOL_SCHED0_START 31 ((slotted typeThreshold).io (Reg.NOL_LINK_STAT_FORM 31)) 31)) = true ∧ cell.lost .d0 = false ∧ bonded.rxServes 31 = true ∧ bonded.linksOn 31 = [31] ∧
    bonded.io (Reg.NOL_LINK_LANES_N 31) < 4 ∧ 32 < (33 : Nat) ∧ bonded.io (Reg.NOL_LINK_CFG_EN 31) ≠ 0 ∧
    bitOf (bonded.io (Reg.NOL_LINK_STAT_TX_SET 31)) 3 = true ∧ (slotted typeRef).io (Reg.NOL_LINK_CFG_EN 31) ≠ 0 ∧
    (slotted typeRef).io (Reg.NOL_LINK_STAT_STATE 31) ≠ linkDown ∧ (slotted typeRef).io (Reg.NOL_LINK_STAT_STATE 31) ≠ linkPending ∧
    (slotted typeRef).io (Reg.NOL_LINK_STAT_TX_SET 31) ≠ 0 ∧
    (slotted typeRef).io (Reg.NOL_SCHED0_EN 31 ((slotted typeRef).io (Reg.NOL_LINK_STAT_FORM 31)) 31) ≠ 0 ∧
    (slotted typeRef).io (Reg.NOL_SCHED0_RX 31 ((slotted typeRef).io (Reg.NOL_LINK_STAT_FORM 31)) 31) ≠ 1 ∧
    (slotted typeRef).io (Reg.NOL_SCHED0_TYPE 31 ((slotted typeRef).io (Reg.NOL_LINK_STAT_FORM 31)) 31) = typeRef ∧
    (slotted typeThreshold).io (Reg.NOL_SCHED0_TYPE 31 ((slotted typeThreshold).io (Reg.NOL_LINK_STAT_FORM 31)) 31) = typeThreshold ∧
    ((slotted typeThreshold).link 31).tcQ = [] := by decide +kernel
/-- The next boundary is far off and no transmit slot is defined: link 31 has room for an open frame. -/
def roomFor (x : NolLink) (s : State) : State := { s.setLink 31 x with tb := { s.tb with nextB := 10 ^ 9 * nsUnit } }
def accepting : OutFrame := ⟨typeAccept, false, 0, 5, 33, 8, acceptBytes 7 0⟩
theorem meets_NolriLinks_queues : (cell.setLink 31 { busyTo := 10 ^ 18 }).openFits 31
      ((cell.setLink 31 { busyTo := 10 ^ 18 }).openLen 31) = false ∧
    ((roomFor { membQ := [sending] } cell).link 31).membQ = [sending] ∧ sending.type ≠ typeAccept ∧
    (roomFor { membQ := [sending] } cell).openFits 31 sending.payload.length = true ∧
    ((roomFor { membQ := [accepting] } balHub).link 31).membQ = [accepting] ∧ accepting.type = typeAccept ∧ accepting.hops = 0 ∧
    (roomFor { membQ := [accepting] } balHub).openFits 31 accepting.payload.length = true ∧
    (roomFor { membQ := [accepting] } balHub).isHub = true ∧
    (roomFor { membQ := [accepting] } balHub).memberUid (field accepting.payload 0 8) = some 31 ∧
    ((roomFor { statusDue := true } cell).link 31).membQ = [] ∧ ((roomFor { statusDue := true } cell).link 31).statusDue = true ∧
    (roomFor { statusDue := true } cell).openFits 31 48 = true ∧
    ((roomFor { bulkQ := [sending], credit := 64 } cell).link 31).bulkQ = [sending] ∧
    (roomFor { bulkQ := [sending], credit := 64 } cell).openFits 31 sending.payload.length = true ∧
    (cell.setLink 31 { bulkQ := [sending], busyTo := 10 ^ 18 }).openFits 31 sending.payload.length = false ∧
    ((({} : NolLink).bulkSent.map (·.2)).sum + frameUnits sending.payload.length * 64 ≤ ({ credit := 64 } : NolLink).credit) ∧
    ({ credit := 63 } : NolLink).credit < (({} : NolLink).bulkSent.map (·.2)).sum + frameUnits sending.payload.length * 64 := by
  decide +kernel
/-- A Cell in a membership state, in PHASE = MEMBERSHIP, its UP link served. -/
def member (m : Nat) : State := inPhase phaseMembership (regW .d0 [(Reg.NOL_MEMB_STAT_STATE, m), (Reg.LANE_CFG_USE 31, 1),
  (Reg.LANE_STAT_STATE 31, laneUp)] cell)
def joinP : JoinPayload := ⟨9, 50000, 0, 100, 0, 0⟩
theorem meets_Membership_cell : (member membDetached).isHub = false ∧ (member membDetached).memb = membDetached ∧
    phaseMembership ≤ (member membDetached).phase ∧ (member membDetached).phase ≤ phaseRun ∧
    (member membDetached).upLinkServes = true ∧ (member membJoining).memb = membJoining ∧
    (member membJoining).linksOf dirUp = [31] ∧ (member membRefused).memb = membRefused ∧
    (member membAccepted).memb = membAccepted := by decide +kernel
theorem meets_Membership_frames :
    ((member membJoining).nolReceive 31 typeAccept fromParent true (acceptBytes (member membJoining).uid 9)).2 = true ∧
    (member membJoining).uid < 2 ^ 64 ∧
    ((member membJoining).nolReceive 31 typeRefuse fromParent true (reasonBytes (member membJoining).uid 0xFF)).2 = true ∧
    ((member membAccepted).nolReceive 31 typeLeave fromParent true (reasonBytes 3 4)).2 = true ∧
    fromParent.src.toNat = (member membAccepted).sys Reg.SYS_NODE_PARENT := by decide +kernel
theorem meets_Membership_hub : balHub.isHub = true ∧ balHub.io (Reg.NOL_MEMBER0_VALID 31) = 1 ∧ balHub.io (Reg.NOL_MEMBER0_VALID 31) = 1 ∧
    (balHub.nolReceive 31 typeJoin fromMember true (joinBytes joinP)).2 = true ∧ joinP.uid.toNat ∉ balHub.nol.leftNow ∧
    balHub.memberUid joinP.uid.toNat = none ∧ balHub.joinReason fromMember joinP ≠ 0 ∧
    (balHub.nolReceive 31 typeLeave fromMember true (reasonBytes 7 4)).2 = true ∧ balHub.memberUid 7 = some 31 := by
  decide +kernel
/-- A Hub of 1 arm of 4 Cells with CP = 50 000 ticks accepts the JOIN. -/
def roomy : State := regW .d0 [(Reg.SYS_TOPO_ARMS, 1), (Reg.SYS_TOPO_CELLS, 4), (Reg.SYS_TOPO_SM_COUNT, 100),
  (Reg.BAL_ARM_CFG_EN 0, 1), (Reg.TB_PERIOD_CP, 50000)] hub
theorem meets_Membership_accept : (roomy.nolReceive 31 typeJoin fromMember true (joinBytes joinP)).2 = true ∧
    roomy.isHub = true ∧ joinP.uid.toNat ∉ roomy.nol.leftNow ∧ roomy.memberUid joinP.uid.toNat = none ∧
    roomy.joinReason fromMember joinP = 0 := by decide +kernel

/-! ## Station network and time -/

def frameE : EthFrame := ⟨0x1234, 9, [], 0x88BA, 64, true, none, none, none⟩
def asdu : SvAsdu := ⟨4799, 7, 2, false, [⟨5, 0⟩, ⟨6, 0⟩]⟩
def svF : SvFrame := ⟨0x1234, 0x4000, [65, 66, 67], [asdu], 5 * 10 ^ 9 * 2 ^ 32⟩
/-- Sampled-value subscription 31. -/
def subscribed : State := (regW .d0 [(Reg.SV_CFG_EN 31, 1), (Reg.SV_DST_LO_MAC 31, 0x1234), (Reg.SV_CFG_APPID 31, 0x4000),
  (Reg.SV_LIM_ID_LEN 31, 3), (Reg.SV_CONFREV_CONFREV 31, 7), (Reg.SV_QTY0_POS 31 0, 1)] live).setRamBytes 2 (0x40920000 + 0x40 * 31)
    [65, 66, 67]
theorem meets_Network_eth : ethBad { frameE with len := 63 } = true ∧ ethBad frameE = false ∧ frameE.vids = [] ∧
    frameE.etherType ∈ [0x88B5#16, 0x88B8#16, 0x88BA#16, 0x88F7#16, 0x88FB#16] ∧ subscribed.pairMode 1 = 0 ∧
    subscribed.macAccepts 3 frameE.dst.toNat = true ∧ subscribed.io (Reg.ETH_RX_ERR_CNT_COUNT 3) < counterMax ∧
    (regW .d0 [(Reg.ETH_RED_CFG_MODE_B, 1)] live).pairMode (3 / 2) = 1 ∧ (live.pair (3 / 2)).superv < 0xFFFFFFFF ∧ live.pairMode (3 / 2) ≠ 1 ∧
    subscribed.lost .d0 = false := by decide +kernel
/-- Pair B in HSR, and a frame of another node on its ring. -/
def ring : State := regW .d0 [(Reg.ETH_RED_CFG_MODE_B, 2)] live
def ringF : EthFrame := { frameE with hsr := some 0xFFFF }
theorem meets_Network_send : ringF.etherType ≠ 0x8808 ∧ frameE.hsr = none ∧ frameE.src.toNat ≠ ring.portMac 3 ∧
    frameE.dst.toNat ≠ ring.portMac 3 ∧ ethBad frameE = false ∧
    ({ ringF with src := BitVec.ofNat 48 (ring.portMac 3) } : EthFrame).src.toNat = ring.portMac 3 ∧
    ethBad { ringF with src := BitVec.ofNat 48 (ring.portMac 3) } = false ∧ [(4, Output.prpSupervision 0), (1, Output.prpSupervision 1)] ≠ [] ∧ ethBad ringF = false ∧
    ring.pairMode (3 / 2) = 2 ∧ ringF.hsr = some 0xFFFF ∧ ringF.src.toNat ≠ ring.portMac 3 ∧ ringF.dst.toNat ≠ ring.portMac 3 ∧
    (ringF.src.toNat, (0xFFFF#16).toNat) ∉ (ring.pair (3 / 2)).dup ∧ (ring.ethOf 3).queue = [] ∧
    (ring.ethOf 3).busyTo ≤ ring.tb.ticks ∧ ring.tb.ticks < ((ring.setEth 3 { busyTo := 1 }).ethOf 3).busyTo := by decide +kernel
theorem meets_Network_sv : svF.asdus = [asdu] ∧ subscribed.svMatches 31 svF = true ∧
    asdu.confRev.toNat = subscribed.io (Reg.SV_CONFREV_CONFREV 31) ∧ asdu.simulation = false ∧
    asdu.smpCnt.toNat < subscribed.svRate 31 ∧
    (∀ q, q < subscribed.io (Reg.SV_CFG_NQ 31) + 1 → subscribed.io (Reg.SV_QTY0_POS 31 q) < asdu.seqData.length) ∧
    (subscribed.svOf 31).cur = none := by decide +kernel
/-- GOOSE control block 7 publishes a data set that has changed. -/
def publishing : State := { inPhase phaseRun (regW .d0 [(Reg.GOOSE_PUB_CFG_EN 7, 1), (Reg.GOOSE_PUB_SQ_SQNUM 7, 0xFFFFFFFF),
  (Reg.GOOSE_PUB_ST_STNUM 7, 0xFFFFFFFE)] live) with gooseSt := [(7, { iv := 60, at_ := some 3 })], goosePub := [(224, 4)] }
theorem meets_Network_goose : publishing.mayWrite .d0 = true ∧ publishing.goosePublishes 7 = true ∧
    publishing.gooseDiffers 7 = true ∧ publishing.io (Reg.GOOSE_PUB_ST_STNUM 7) < 0xFFFFFFFF ∧ (publishing.gooseOf 7).iv ≠ 0 ∧
    (publishing.gooseOf 7).at_ ≠ some publishing.tb.ticks ∧
    ((publishing.setGoose 7 { at_ := some publishing.tb.ticks }).gooseOf 7).at_ = some publishing.tb.ticks ∧
    publishing.io (Reg.GOOSE_PUB_SQ_SQNUM 7) ≤ 0xFFFFFFFF := by decide +kernel
def gooseF : GooseFrame := ⟨0x1234, 9, [65, 66], 2, false, false, 3, 4, 1000, [.bool true, .int (-4)]⟩
/-- GOOSE subscription 31 takes both entries of the frame. -/
def listening : State := ((regW .d0 [(Reg.GOOSE_SUB_CFG_EN 31, 1), (Reg.GOOSE_SUB_DST_LO_MAC 31, 0x1234),
  (Reg.GOOSE_SUB_CFG_APPID 31, 9), (Reg.GOOSE_SUB_CONFREV_CONFREV 31, 2), (Reg.GOOSE_SUB_CFG_N 31, 1),
  (Reg.GOOSE_SUB_IDX_IDX 31 0, 0x0100)] live).setRam32 2 (0x40A30000 + 68 * 55) 2).setRamBytes 2 (0x40A30000 + 68 * 55 + 4) [65, 66]
theorem meets_Network_gooseFrame : listening.gooseMatches 31 gooseF = true ∧
    gooseF.confRev.toNat = listening.io (Reg.GOOSE_SUB_CONFREV_CONFREV 31) ∧ gooseF.simulation = false ∧ gooseF.ndsCom = false ∧
    (∀ e, e < listening.io (Reg.GOOSE_SUB_CFG_N 31) + 1 →
      ((gooseF.allData[listening.gooseIdx 31 e]?).bind gooseWord).isSome = true) ∧ (listening.gooseSubOf 31).seen = false ∧
    (regW .d0 [(Reg.GOOSE_SUB_STAT_VALID 31, 1)] listening).ioBit (Reg.GOOSE_SUB_STAT_VALID 31) = true := by decide +kernel
/-- PTP port 3 in a state, its servo locked to PTP. -/
def port (st : Nat) : State := (regW .d0 [(Reg.PTP_CFG_EN, 1), (Reg.PTP_CFG_PORTS, 8), (Reg.ETH_PORT_STAT_UP 3, 1),
  (Reg.PTP_CFG_DOMAIN, 4), (Reg.PTP_PORT_STAT_STATE 3, st), (Reg.SERVO_STAT_STATE, servoLocked)] live).setPtp 3
    { delay := some 300, sync := some (0xFFFF, 70000, 9), req := some (0xFFFF, 44), resp := some (0xFFFF, 50, 90, 2) }
theorem meets_PtpPorts : (port ptpSlave).ptpTakes 3 4 = true ∧ (port ptpSlave).pairMode (3 / 2) ≠ 2 ∧ (port ptpSlave).follows 3 = true ∧
    (port ptpSlave).ptpState 3 = ptpSlave ∧ (port ptpSlave).servoSource = 0 ∧ ((port ptpSlave).ptpOf 3).delay = some 300 ∧
    ((port ptpSlave).ptpOf 3).sync = some ((0xFFFF#16).toNat, 70000, 9) ∧
    ((port ptpSlave).ptpOf 3).req = some ((0xFFFF#16).toNat, 44) ∧
    ((port ptpSlave).ptpOf 3).resp = some ((0xFFFF#16).toNat, 50, 90, 2) ∧ (port ptpSlave).ptpState 3 ≠ ptpInit ∧
    (77#64).toNat ≠ (port ptpSlave).clockId ∧ (254#16).toNat < 255 ∧ (port ptpSlave).ptpOn 3 = true ∧
    (port ptpSlave).io Reg.PTP_DISC_CNT_COUNT < counterMax ∧ (port ptpMaster).ptpOn 3 = true ∧
    (port ptpMaster).ptpState 3 = ptpMaster ∧ (port ptpPreMaster).ptpState 3 = ptpPreMaster ∧
    (port ptpSlave).io Reg.SERVO_STAT_STATE = servoLocked ∧ (∀ q, q < 4 → q ≠ (3 : Fin 4).val → (port ptpSlave).follows q = false) ∧
    (regW .d0 [(Reg.PTP_PORT_STAT_STATE 1, ptpSlave)] (port ptpListening)).follows 1 = true ∧
    (regW .d0 [(Reg.PTP_PORT_STAT_STATE 1, ptpSlave)] (port ptpListening)).servoSource = 0 := by decide +kernel
theorem meets_ServoAndPicot : live.testState = false ∧ (regW .d0 [(Reg.SERVO_CFG_SRC, 1)] (port ptpInit)).servoSource = 1 ∧
    (port ptpInit).io Reg.SERVO_STAT_STATE = servoLocked ∧
    (regW .d0 [(Reg.SERVO_STAT_STATE, servoHoldover)] live).io Reg.SERVO_STAT_STATE = servoHoldover ∧
    ({ live with picot := [(7, { next := some 400 })] }.picotOf 7).next = some 400 ∧
    ({ live with picot := [(7, { next := some 400 })] }.picotOf 7).due = none ∧
    ({ live with picot := [(7, { due := some (live.tb.ticks, 5) })] }.picotOf 7).due = some (live.tb.ticks, 5) ∧
    (regW .d0 [(Reg.PICOT_CFG_NEED_VALID 7, 0)] live).ioBit (Reg.PICOT_CFG_NEED_VALID 7) = false ∧
    (regW .d0 [(Reg.PICOT_CFG_NEED_VALID 7, 1)] live).ioBit (Reg.PICOT_CFG_NEED_VALID 7) = true ∧
    live.ioBit Reg.TB_STAT_TIME_VALID = false ∧
    ({ live with picot := [(7, { ends := some 400 })] }.picotOf 7).ends = some 400 := by decide +kernel

/-! ## Adaptation and redundancy -/

def region1 : State := (regW .d1 [(Reg.AVS_STAT_VREQ 1, 51), (Reg.AVS_STAT_VACK 1, 51), (Reg.AVS_CFG_S_LO 1, 30)] live).setRegion .d1 1
  { stepTo := some 7, coolSince := some 3 }
theorem meets_Adaptation_loops : (region1.region .d1 1).emerged = false ∧ region1.avsLost .d1 1 = false ∧
    region1.rd .d1 (Reg.AVS_STAT_VACK 1) = region1.rd .d1 (Reg.AVS_STAT_VREQ 1) ∧
    region1.rd .d1 (Reg.AVS_STAT_VREQ 1) < 52 ∧ min (29#7).toNat (127#7).toNat < region1.rd .d1 (Reg.AVS_CFG_S_LO 1) ∧
    (region1.region .d1 1).stepTo = some 7 ∧ (region1.region .d1 1).coolSince = some 3 := by decide +kernel
theorem meets_Adaptation_hot : (256 * live.rd .d1 Reg.THM_CFG_T_HOT : Nat) ≤ (0x7FFF#16).toInt := by decide +kernel
/-- Placement entry 0 of die 1: home cluster 0, a movable load with a descriptor in every cluster, COST 1000. -/
def placing : State := (regW .d0 [(Reg.TB_PERIOD_CP, 50000)] (regW .d1 [(Reg.PL_CFG_EN, 1), (Reg.PL_CFG_DT, 5), (Reg.THM_TEMP_T 0, 100 * 256),
  (Reg.THM_TEMP_T 1, 60 * 256), (Reg.THM_TEMP_T 2, 70 * 256), (Reg.THM_TEMP_T 3, 70 * 256), (Reg.PL_CFG_BUDGET, 70),
  (Reg.TB_PERIOD_CP, 50000), (Reg.PL_MAP_PHYS, 0xE4)] live)).setRamBytes 1 placeBase
    (bytesOf 2 300 ++ [0, 3, 1, 2, 3, 4] ++ bytesOf 4 1000 ++ bytesOf 4 0)
theorem meets_Adaptation_placement : placing.bit .d1 Reg.PL_CFG_EN = true ∧ (placing.adaptOf .d1).subst = none ∧
    0 ∈ placing.loadClusters .d1 ∧ 1 ∈ placing.loadClusters .d1 ∧
    (∀ x ∈ placing.loadClusters .d1, x ≠ 0 → placing.clusterTemp .d1 x < placing.clusterTemp .d1 0) ∧
    (∀ x ∈ placing.loadClusters .d1, x ≠ 1 → placing.clusterTemp .d1 1 < placing.clusterTemp .d1 x) ∧
    (256 * placing.rd .d1 Reg.PL_CFG_DT : Nat) < placing.clusterTemp .d1 0 - placing.clusterTemp .d1 1 ∧
    placing.entriesOn .d1 0 = [0] ∧ (placing.place .d1 0).movable = true ∧ (placing.place .d1 0).desc.getD 1 0xFF ≠ 0xFF ∧
    placing.costFits .d1 1 (placing.costOn .d1 1 + (placing.place .d1 0).cost) = true ∧
    tabGet 0 placing.movedAt (128 * Die.d1.toNat + 0) = 0 := by decide +kernel
/-- Cluster 2 of the passive die 1 is being substituted by its spare. -/
def substituted : State := regW .d1 [(Reg.PL_MAP_SPARE_USED, 1)] (live.setAdapt .d1 { subst := some 2 })
theorem meets_Substitution : live.bit .d1 Reg.PL_MAP_SPARE_USED = false ∧ live.lost .d1 = false ∧
    substituted.bit .d1 Reg.PL_MAP_SPARE_USED = true ∧ (substituted.adaptOf .d1).subst = some 2 ∧ 2 ≠ substituted.spare .d1 ∧
    (substituted.adaptOf .d1).lostClusters.getLsbD 2 = false ∧ substituted.isWorker .d1 = false ∧
    substituted.lost .d1 = false ∧ substituted.dieState .d1 ≠ 5 ∧
    ((live.setAdapt .d1 { moveCle := some (2, 3) }).adaptOf .d1).subst = none ∧
    ((live.setAdapt .d1 { moveCle := some (2, 3) }).adaptOf .d1).moveCle = some (2, 3) ∧ live.io Reg.RED_GRADE_GRADE < 4 ∧
    (live.setAdapt .d1 { moveCle := some (2, 3) }).red.gradeAt ≠ some (live.setAdapt .d1 { moveCle := some (2, 3) }).tb.ticks ∧
    substituted.inService Die.d1.other = true ∧
    ((alone.setAdapt .d0 { subst := some 3 }).adaptOf .d0).subst = some 3 ∧ alone.inService Die.d0.other = false := by
  decide +kernel
/-- Die 1 in a state with a number of rejoins, couching of one word under way. -/
def couched (st rejoins : Nat) : State :=
  { regW .d0 [(Reg.RED_DIE_STATE 1, st), (Reg.RED_DIE_REJOINS 1, rejoins), (Reg.RED_CFG_REJOIN_MAX, 1)] live with
    red := { live.red with couching := true, snapW := [(2 ^ 32 - 4, 9)], snapP := [(2 ^ 32 - 4, 8)]
                           snapI := [(.band 127, [26, 0, 1], [25, 0, 1]), (.arm 5, [-7, 1], [3, 0]), (.member 0xFFF, [4], []),
                             (.health 511, [9], [8])] } }
theorem meets_Couching : (couched 1 0).couchPair = some (.d0, .d1) ∧ (couched 1 0).red.couching = true ∧
    (couched 1 0).asideOverflow = none ∧ (∀ w ∈ (couched 1 0).red.snapW, w.1 + 4 ≤ 2 ^ 32) ∧
    (couched 1 0).red.snapW.Pairwise (fun v w => v.1 + 4 ≤ w.1 ∨ w.1 + 4 ≤ v.1) ∧
    (∀ w ∈ (couched 1 0).red.snapW, w.1 + 4 ≤ healthAddr 0 ∨ healthAddr 0 + 0x800 ≤ w.1) ∧ ((couched 1 0).red.snapI.map (·.1)).Nodup ∧
    (∀ e ∈ (couched 1 0).red.snapI, e.1.fits e.2.1 = true ∧ (couched 1 0).imageWritten .d1 e.1 ((couched 1 0).imageRead .d1 e.1) = false) ∧
    (couched 1 0).smTaken .d1 (2 ^ 32 - 4) = false ∧ (∀ a ∈ entryAddrs ((couched 2 1).couchEntries .d0), a + 4 ≤ 2 ^ 32 ∧
      (couched 2 1).smTaken .d1 a = false) ∧ (regW .d0 [(Reg.BAL_CFG_EN, 1)] (couched 2 1)).bit .d0 Reg.BAL_CFG_EN = true ∧
    (couched 2 1).couchPair = some (.d0, .d1) ∧ (couched 2 1).dieState .d1 = 2 ∧ (couched 2 0).red.passDone = false ∧
    (couched 4 0).dieState .d1 = 4 ∧ (couched 4 0).io (Reg.RED_DIE_REJOINS 1) < (couched 4 0).io Reg.RED_CFG_REJOIN_MAX ∧
    (couched 1 0).inPeriod ((couched 1 0).io Reg.RED_COUCH_T_START) = true ∧
    (regW .d0 [(Reg.RED_COUCH_T_START, 6000)] (couched 1 0)).inPeriod
      ((regW .d0 [(Reg.RED_COUCH_T_START, 6000)] (couched 1 0)).io Reg.RED_COUCH_T_START) = false ∧
    (couched 4 0).phase ≠ phaseMaint ∧ (inPhase phaseMaint live).phase = phaseMaint ∧ (couched 5 1).phase ≠ phaseMaint ∧
    (couched 5 1).dieState .d1 = 5 ∧ (couched 5 1).testState = false ∧ inTest.testState = true := by decide +kernel
def checking : State := { regW .d0 [(Reg.RED_DIE_STATE 0, 3), (Reg.RED_DIE_STATE 1, 3)] live with
  red := { live.red with checking := true, takeover := some ⟨.d0, 3⟩ } }
theorem meets_VerdictsAndRoles_checking : checking.red.checking = true ∧ checking.worker = some .d0 ∧
    checking.dieState Die.d0.other = 3 ∧ checking.red.workerFault = none ∧ checking.io Reg.RED_GRADE_GRADE < 4 ∧
    checking.red.gradeAt ≠ some checking.tb.ticks ∧
    { checking with red := { checking.red with takeover := none } }.red.takeover = none ∧
    checking.red.takeover = some ⟨.d0, 3⟩ ∧ checking.red.takeoverSync = false := by decide +kernel
def stopping : LogRec := ⟨recStop, 1, 0, 2, 3, 4, 5, 6, 7⟩
/-- A Cell stops, its LEAVE still to depart. -/
def departing : State :=
  let s := regW .d0 [(Reg.TB_PERIOD_CP, 50000)] { live with red := { live.red with stopAt := some 4 } }
  { s with nol := { s.nol with leaving := true } }
theorem meets_VerdictsAndRoles_rest :
    (regW .d1 [(Reg.MEM_SPARE_COPYING 1, 1)] live).bit .d1 (Reg.MEM_SPARE_COPYING 1) = true ∧
    { live with red := { live.red with stopAt := some 4 } }.red.stopAt = some 4 ∧ live.red.stopped = false ∧
    { live with red := { live.red with stopAt := some 4 } }.awaitsLeave = false ∧
    departing.awaitsLeave = true ∧
    { live with red := { live.red with logq := [stopping] } }.red.logq = [stopping] ∧ live.boot.flashOk = true ∧
    stopping.type = recStop ∧ live.red.takeover = none ∧ live.worker = some .d0 ∧ live.inService .d0 = true ∧
    checking.red.takeover.isSome = true ∧ live.red.logq = [] ∧
    { live with trip := { live.trip with seq := 600 } }.tripToCopy = some 88 := by decide +kernel

/-! ## Results the spec works out -/

/-- The example at R172: SYNC 0b110, every other data bit 0. -/
theorem test_crc4 : crc4 ([true, true] ++ List.replicate 19 false) = 15 := by decide +kernel
/-- The example at R184: remote channel 37 of 2 500 V. -/
theorem test_calibrate : (let s := regW .d0 [(Reg.MEAS_GAIN_GAIN 37, 0x50000000), (Reg.MEAS_OFS_OFS 37, 1200),
      (Reg.MEAS_TC_TC 37, 2 ^ 16 - 200), (Reg.MEAS_TC_TREF 37, 6400)] live
    (s.setCh 37 { s.ch 37 with temp := some 9600 }).calibrate 37 5368709) = (6709336, false) := by decide +kernel
/-- The example at R194: 212 000 ones in 400 000 bits, the sixth result. -/
theorem test_injWord : injWord { n := 400000, ones := 212000, measured := true, seq := 5 } = 0x8507AE14 := by decide +kernel
/-- The example at R256: the key of channel 37, inserted, SIGMA 1. -/
theorem test_balKey : (regW .d0 [(Reg.MEAS_SNAP0_Y 37, 6709336), (Reg.BAL_KEY_BASE, 0x400000), (Reg.BAL_KEY_SHIFT, 6),
    (Reg.BAL_STAT_SIGMA, 1), (Reg.BAL_CH_INS 37, 1), (Reg.BAL_CH_H 37, 26)] live).balKey .d0 37 = 26211 := by decide +kernel
/-- The example at R261: the arm of 264 sub-modules in two periods in a row. -/
theorem test_quantise :
    quantise 976895458 0x1000000 264 1771673904 (-20000) 0 0 264 false = (145, false, 17275) ∧
    quantise 976895458 0x1000000 264 1771673904 17275 0 0 264 false = (146, false, -10986) := by decide +kernel
/-- The example at R155: the draws of requesters 4, 13 and 16 with L = 0x59C3. -/
theorem test_draws : (let s := { regW .d0 [(Reg.GND_TKT_CTL 4, 40), (Reg.GND_TKT_CTL 13, 200), (Reg.GND_TKT_BLK 16, 30)] live with
      lfsr := [(0, 0x59C3)] }
    [asks 4 1, asks 13 1, { asks 16 1 with bulk := true }].map (s.drawOf .d0 0)) = [1600, 24000, 4410] := by
  decide +kernel
/-- The example at R422: drift 1 000, an offset of 40 ns, KP 7, KI 12. -/
theorem test_servo : (let s := (regW .d0 [(Reg.SERVO_CFG_KP, 7), (Reg.SERVO_CFG_KI, 12),
      (Reg.SERVO_DRIFT_DRIFT, 1000)] live).servoUpdate 2621440;
    (s.drift, s.io Reg.TB_ADDEND_HI_NS, s.io Reg.TB_ADDEND_LO_FRAC)) = (360, 1, 0xFFFFB168) := by decide +kernel
/-- A signal at half of its full scale of 2 500.0 reads 1 250.0 as binary32 (R404). -/
theorem test_signalValue : signalValue 0x40000000 0x451C4000 = 0x449C4000 := by decide +kernel

end Sys2Proof.Tests
end

section
/-! SUPPORT. What a write keeps: the registers a named update leaves as they were, and the record of what the block sent when an
event posts. -/

namespace Sys2Proof.Machine
open Sys2Proof.Laws

/-! ### Shadow fields -/

@[simp] theorem rdSh_wrSh_same (s : State) (d : Die) (f : Field) (v : Nat) : (s.wrSh d f v).rdSh d f = v % 2 ^ f.width := by
  unfold State.rdSh State.wrSh
  simp only [tabGet_set_same, Nat.xor_assoc, Nat.xor_self, Nat.xor_zero, Nat.mod_mod]

theorem rdSh_wrSh_other (s : State) {d e : Die} {f g : Field} (v : Nat) (h : fieldKey e g ≠ fieldKey d f) :
    (s.wrSh d f v).rdSh e g = s.rdSh e g := by
  unfold State.rdSh State.wrSh
  simp only
  rw [tabGet_set_other _ _ _ h]

/-- A write to a field of the I/O die window is the same write, whichever die addresses it. -/
theorem wr_io_die (s : State) (d e : Die) {f : Field} (v : Nat) (h : f.addr < 0x50000000) : s.wr d f v = s.wr e f v := by
  unfold State.wr
  rw [fieldKey_io d e f h]

theorem wrSh_io_die (s : State) (d e : Die) {f : Field} (v : Nat) (h : f.addr < 0x50000000) : s.wrSh d f v = s.wrSh e f v := by
  unfold State.wrSh
  rw [fieldKey_io d e f h]

/-! ### Registers kept -/

theorem RegsKept.refl (fs : List (Die × Field)) (s : State) : RegsKept fs s s := fun _ _ _ => ⟨rfl, rfl, rfl⟩

theorem RegsKept.trans {fs : List (Die × Field)} {s t u : State} (h1 : RegsKept fs s t) (h2 : RegsKept fs t u) :
    RegsKept fs s u := by
  intro d f hf
  obtain ⟨hr, hs, hp⟩ := h1 d f hf
  obtain ⟨hr', hs', hp'⟩ := h2 d f hf
  exact ⟨hr'.trans hr, hs'.trans hs, hp'.trans hp⟩

theorem RegsKept.mono {fs gs : List (Die × Field)} {s t : State} (h : RegsKept fs s t) (hfg : ∀ p ∈ fs, p ∈ gs) :
    RegsKept gs s t := fun d f hf => h d f (fun p hp => hf p (hfg p hp))

/-- A step that changes neither the registers nor their shadows. -/
theorem RegsKept.of_frame {m : List Fld} {s t : State} (fs : List (Die × Field)) (h : Frame m s t)
    (hm : .regs ∉ m ∧ .shadow ∉ m ∧ .shadowP ∉ m) : RegsKept fs s t := by
  intro d f _
  have hr : t.regs = s.regs := h .regs hm.1
  have hs : t.shadow = s.shadow := h .shadow hm.2.1
  have hp : t.shadowP = s.shadowP := h .shadowP hm.2.2
  simp [State.rd, State.rdSh, State.rdShP, hr, hs, hp]

theorem RegsKept.wr {fs : List (Die × Field)} {s t : State} (d : Die) (f : Field) (v : Nat) (h : RegsKept fs s t)
    (hf : (d, f) ∈ fs) : RegsKept fs s (t.wr d f v) :=
  h.trans fun _ _ hg => ⟨rd_wr_other t v (hg _ hf).symm, rfl, rfl⟩

theorem RegsKept.wrSh {fs : List (Die × Field)} {s t : State} (d : Die) (f : Field) (v : Nat) (h : RegsKept fs s t)
    (hf : (d, f) ∈ fs) : RegsKept fs s (t.wrSh d f v) :=
  h.trans fun _ _ hg => ⟨rfl, rdSh_wrSh_other t v (hg _ hf).symm, rfl⟩

theorem RegsKept.post {fs : List (Die × Field)} {s t : State} (e : Nat) (h : RegsKept fs s t) : RegsKept fs s (t.post e) :=
  h.trans (RegsKept.of_frame fs (frame_post t e) (by decide))

theorem RegsKept.count {fs : List (Die × Field)} {s t : State} (d : Die) (cnt sat : Field) (n : Nat) (h : RegsKept fs s t)
    (hc : (d, cnt) ∈ fs) (hs : (d, sat) ∈ fs) : RegsKept fs s (t.count d cnt sat n) := by
  unfold State.count
  split
  · exact h.wr d cnt _ hc
  · exact (h.wr d cnt _ hc).wr d sat _ hs

/-! ### Roles and posted events -/

/-- Whether a die's writes take effect rests on the registers and the state of redundancy alone (R455, R467). -/
theorem Frame.mayWrite {m : List Fld} {s t : State} (h : Frame m s t) (d : Die) (hm : .regs ∉ m ∧ .red ∉ m) :
    t.mayWrite d = s.mayWrite d := by
  have hr : t.regs = s.regs := h .regs hm.1
  have hd : t.red = s.red := h .red hm.2
  have hio : ∀ f, t.io f = s.io f := fun f => by simp [State.io, State.rd, hr]
  unfold State.mayWrite State.isWorker State.worker
  rw [hio, hio, hd]

theorem lost_postEventDie (s : State) (d e : Die) (n : Nat) : (s.postEventDie e n).lost d = s.lost d := by
  rw [postEventDie_only]
  rfl

theorem mem_out_postEventDie {s : State} {o : Output} (d : Die) (n : Nat) (h : o ∈ s.out) : o ∈ (s.postEventDie d n).out := by
  cases hl : s.lost d with
  | true => simpa [State.postEventDie, hl] using h
  | false => rw [postEventDie_out s d n hl]; exact List.mem_cons_of_mem _ h

/-- A posted event reaches each die that is not lost (R148). -/
theorem event_mem_post (s : State) (d : Die) (n : Nat) (h : s.lost d = false) : Output.event d n ∈ (s.post n).out := by
  unfold State.post
  cases d with
  | d0 =>
    apply mem_out_postEventDie
    rw [postEventDie_out s .d0 n h]
    exact List.mem_cons_self
  | d1 =>
    rw [postEventDie_out _ .d1 n ((lost_postEventDie s .d1 .d0 n).trans h)]
    exact List.mem_cons_self

end Sys2Proof.Machine
end

section
/-! SUPPORT. SAT bits, their counters and the discord counter (R10, R164, R466). -/

namespace Sys2Proof.Machine
open Sys2Proof.Laws

/-- The map of the SAT bits: each has one bit and its counter 32 bits, at different places. -/
theorem satPairs_places : ∀ p ∈ satPairs, p.1.width = 1 ∧ p.2.width = 32 ∧ p.1.lo < 32 ∧ p.2.lo < 32 ∧
    (p.1.addr % 2 ^ 32 ≠ p.2.addr % 2 ^ 32 ∨ p.1.lo ≠ p.2.lo) := by decide +kernel

theorem frame_satClear (s : State) (d : Die) (cnt sat : Field) (n : Nat) : Frame [.regs] s (s.satClear d cnt sat n) :=
  ((Frame.refl _ s).wr d sat 0 (by decide)).wr d cnt 0 (by decide) |>.trans (frame_count _ _ _ _ _)

theorem regsKept_satClear (s : State) (d : Die) (cnt sat : Field) (n : Nat) :
    RegsKept [(d, sat), (d, cnt)] s (s.satClear d cnt sat n) :=
  (((RegsKept.refl _ s).wr d sat 0 (by simp)).wr d cnt 0 (by simp)).count d cnt sat n (by simp) (by simp)

/-- A cleared counter holds the events of its cycle, up to its maximum (R10). -/
theorem rd_satClear_cnt (s : State) {d : Die} {cnt sat : Field} (n : Nat) (hw : cnt.width = 32)
    (hne : fieldKey d sat ≠ fieldKey d cnt) : (s.satClear d cnt sat n).rd d cnt = min n counterMax := by
  have h0 : ((s.wr d sat 0).wr d cnt 0).rd d cnt = 0 := by simp
  unfold State.satClear
  by_cases hn : n ≤ counterMax
  · rw [count_below _ _ _ _ _ (by omega), rd_wr_same, h0, hw]
    simp only [counterMax] at hn ⊢
    omega
  · rw [count_above _ _ _ _ _ (by omega), rd_wr_other _ _ hne.symm, rd_wr_same, hw]
    simp only [counterMax] at hn ⊢
    omega

/-- A cleared SAT bit sets again only where the events of its cycle alone pass the maximum (R10). -/
theorem rd_satClear_sat (s : State) {d : Die} {cnt sat : Field} (n : Nat) (hw : sat.width = 1)
    (hne : fieldKey d sat ≠ fieldKey d cnt) : (s.satClear d cnt sat n).rd d sat = if n ≤ counterMax then 0 else 1 := by
  have h0 : ((s.wr d sat 0).wr d cnt 0).rd d cnt = 0 := by simp
  unfold State.satClear
  by_cases hn : n ≤ counterMax
  · rw [count_below _ _ _ _ _ (by omega), rd_wr_other _ _ hne, rd_wr_other _ _ hne, rd_wr_same, if_pos hn, Nat.zero_mod]
  · rw [count_above _ _ _ _ _ (by omega), rd_wr_same, if_neg hn]
    exact congrArg (fun k => 1 % 2 ^ k) hw

/-! ### The grant counters (R164) -/

theorem frame_grantClear (s : State) (d : Die) (i n : Nat) : Frame [.regs] s (s.grantClear d i n) :=
  (((Frame.refl _ s).wr d _ _ (by decide)).wr d _ _ (by decide)).wr d _ _ (by decide)

theorem rd_grantClear_count (s : State) (d : Die) (i n : Nat) :
    (s.grantClear d i n).rd d (Reg.GND_GRANT_CNT_COUNT i) = n % 2 ^ 32 := by
  have hsat : fieldKey d (Reg.GND_GRANT_CNT_COUNT i) ≠ fieldKey d (Reg.GND_CNT_STAT_GRANT_SAT i) :=
    fieldKey_ne d d (by simp [Reg.GND_GRANT_CNT_COUNT]) (by simp [Reg.GND_CNT_STAT_GRANT_SAT])
      (.inr (by simp [Reg.GND_GRANT_CNT_COUNT, Reg.GND_CNT_STAT_GRANT_SAT]))
  have hwraps : fieldKey d (Reg.GND_GRANT_CNT_COUNT i) ≠ fieldKey d (Reg.GND_CNT_STAT_WRAPS i) :=
    fieldKey_ne d d (by simp [Reg.GND_GRANT_CNT_COUNT]) (by simp [Reg.GND_CNT_STAT_WRAPS])
      (.inl (by simp only [Reg.GND_GRANT_CNT_COUNT, Reg.GND_CNT_STAT_WRAPS]; omega))
  unfold State.grantClear
  rw [rd_wr_other _ _ hsat, rd_wr_other _ _ hwraps, rd_wr_same]
  exact Nat.mod_mod _ _

theorem rd_grantClear_wraps (s : State) (d : Die) (i n : Nat) :
    (s.grantClear d i n).rd d (Reg.GND_CNT_STAT_WRAPS i) = min (n / 2 ^ 32) 0xFF := by
  have hsat : fieldKey d (Reg.GND_CNT_STAT_WRAPS i) ≠ fieldKey d (Reg.GND_CNT_STAT_GRANT_SAT i) :=
    fieldKey_ne d d (by simp [Reg.GND_CNT_STAT_WRAPS]) (by simp [Reg.GND_CNT_STAT_GRANT_SAT])
      (.inr (by simp [Reg.GND_CNT_STAT_WRAPS, Reg.GND_CNT_STAT_GRANT_SAT]))
  unfold State.grantClear
  rw [rd_wr_other _ _ hsat, rd_wr_same]
  exact Nat.mod_eq_of_lt (Nat.lt_succ_of_le (Nat.min_le_right _ _))

/-! ### SAT_CLEAR and RED_CNT_CLR -/

theorem clearSat_counter (s : State) (d : Die) {sat : Field} (cnt : Field) (n : Nat) (h : grantOf sat = none) :
    s.clearSat d sat cnt n = s.satClear d cnt sat n := by
  simp [State.clearSat, h]

theorem clearSat_grant (s : State) (d : Die) {sat : Field} (cnt : Field) {i : Nat} (n : Nat) (h : grantOf sat = some i) :
    s.clearSat d sat cnt n = s.grantClear d i n := by
  simp [State.clearSat, h]

theorem frame_clearSat (s : State) (d : Die) (sat cnt : Field) (n : Nat) : Frame [.regs] s (s.clearSat d sat cnt n) := by
  cases h : grantOf sat with
  | none => rw [clearSat_counter s d cnt n h]; exact frame_satClear s d cnt sat n
  | some i => rw [clearSat_grant s d cnt n h]; exact frame_grantClear s d i n

/-- SAT_CLEAR of a counter's SAT bit, by a die whose write takes effect. -/
theorem exec_satClear (d : Die) (addr : Word) (bit : Fin 32) (n : Nat) (s : State) (p : Field × Field)
    (hp : satPairs.find? (fun p => p.1.addr = addr.toNat && p.1.lo = bit.val) = some p)
    (hw : inIod addr.toNat = true → s.mayWrite d = true) :
    exec (.satClear d addr bit n) s = .next (s.clearSat d p.1 p.2 n) := by
  have hin : ¬(inIod addr.toNat && !s.mayWrite d) = true := by
    cases hi : inIod addr.toNat with
    | false => simp
    | true => simp [hw hi]
  show execSatClear d addr bit n s = _
  unfold execSatClear
  rw [if_neg hin, hp]

/-- What RED_CNT_CLR leaves before event 253: the discords of its tick up to DISC_LIMIT, and whether they reach it (R466, R481). -/
def discCounted (s : State) (n : Nat) : State :=
  (s.setIo Reg.RED_DISC_CNT_COUNT (min n (s.io Reg.RED_CFG_DISC_LIMIT))).setIo Reg.RED_DISC_STAT_AT_LIMIT
    (b2n (decide (s.io Reg.RED_CFG_DISC_LIMIT ≤ n)))

/-- RED_CNT_CLR writes two fields, and posts event 253 where the limit is reached (R466, R481). -/
theorem clearDisc_eq (s : State) (n : Nat) :
    s.clearDisc n = if s.io Reg.RED_CFG_DISC_LIMIT ≤ n then (discCounted s n).post 253 else discCounted s n := by
  have hl : (s.setIo Reg.RED_DISC_CNT_COUNT (min n (s.io Reg.RED_CFG_DISC_LIMIT))).io Reg.RED_CFG_DISC_LIMIT
      = s.io Reg.RED_CFG_DISC_LIMIT := io_setIo_other s _ (by decide)
  unfold State.clearDisc discCounted
  simp only [hl]

/-- The event posted changes no register. -/
theorem io_clearDisc (s : State) (n : Nat) (f : Field) : (s.clearDisc n).io f = (discCounted s n).io f := by
  rw [clearDisc_eq]
  split
  · exact post_io _ _ _
  · rfl

theorem io_clearDisc_count (s : State) (n : Nat) (hl : s.io Reg.RED_CFG_DISC_LIMIT < 2 ^ Reg.RED_DISC_CNT_COUNT.width) :
    (s.clearDisc n).io Reg.RED_DISC_CNT_COUNT = min n (s.io Reg.RED_CFG_DISC_LIMIT) := by
  rw [io_clearDisc, discCounted, io_setIo_other _ _ (by decide), io_setIo_same]
  exact Nat.mod_eq_of_lt (Nat.lt_of_le_of_lt (Nat.min_le_right _ _) hl)

theorem io_clearDisc_atLimit (s : State) (n : Nat) :
    (s.clearDisc n).io Reg.RED_DISC_STAT_AT_LIMIT = 1 ↔ s.io Reg.RED_CFG_DISC_LIMIT ≤ n := by
  rw [io_clearDisc, discCounted, io_setIo_same]
  by_cases h : s.io Reg.RED_CFG_DISC_LIMIT ≤ n <;> simp [b2n, h, Reg.RED_DISC_STAT_AT_LIMIT]

theorem regsKept_clearDisc (s : State) (d : Die) (n : Nat) :
    RegsKept [(d, Reg.RED_DISC_CNT_COUNT), (d, Reg.RED_DISC_STAT_AT_LIMIT)] s (s.clearDisc n) := by
  have h : RegsKept [(d, Reg.RED_DISC_CNT_COUNT), (d, Reg.RED_DISC_STAT_AT_LIMIT)] s (discCounted s n) := by
    unfold discCounted State.setIo
    rw [wr_io_die _ .d0 d _ (by decide), wr_io_die _ .d0 d _ (by decide)]
    exact ((RegsKept.refl _ s).wr d _ _ (by simp)).wr d _ _ (by simp)
  rw [clearDisc_eq]
  split
  · exact h.post 253
  · exact h

theorem frame_clearDisc (s : State) (n : Nat) : Frame (.regs :: mPost) s (s.clearDisc n) := by
  have h : Frame (.regs :: mPost) s (discCounted s n) :=
    ((Frame.refl _ s).setIo _ _ (by decide)).setIo _ _ (by decide)
  rw [clearDisc_eq]
  exact Frame.ite (h.step (frame_post _ 253) (by decide)) h

end Sys2Proof.Machine
end

section
/-! SUPPORT. The obligation on cleared SAT bits and the discord counter. -/

namespace Sys2Proof.Proofs
open Sys2Proof Sys2Proof.Machine Sys2Proof.Laws

/-- What SAT_CLEAR leaves of a counter and its SAT bit, of a grant counter and its wraps, and of the rest (R10, R164). -/
theorem satClear_completes (d : Die) (addr : Word) (bit : Fin 32) (n : Nat) (s : State) (p : Field × Field)
    (hp : satPairs.find? (fun p => p.1.addr = addr.toNat && p.1.lo = bit.val) = some p)
    (hw : inIod addr.toNat = true → s.mayWrite d = true) :
    Completes (.satClear d addr bit n) s (fun t =>
      (grantOf p.1 = none → t.rd d p.2 = min n 0xFFFFFFFF ∧ t.rd d p.1 = (if n ≤ 0xFFFFFFFF then 0 else 1) ∧
        RegsKept [(d, p.1), (d, p.2)] s t) ∧
      (∀ i, grantOf p.1 = some i → t.rd d (Reg.GND_GRANT_CNT_COUNT i) = n % 2 ^ 32 ∧
        t.rd d (Reg.GND_CNT_STAT_WRAPS i) = min (n / 2 ^ 32) 0xFF) ∧
      Frame [.regs] s t) := by
  obtain ⟨hsat, hcnt, hsatLo, hcntLo, hplace⟩ := satPairs_places p (List.mem_of_find?_eq_some hp)
  have hne : fieldKey d p.1 ≠ fieldKey d p.2 := fieldKey_ne d d hsatLo hcntLo hplace
  refine ⟨_, exec_satClear d addr bit n s p hp hw, fun hg => ?_, fun i hg => ?_, frame_clearSat s d p.1 p.2 n⟩
  · rw [clearSat_counter s d p.2 n hg]
    exact ⟨rd_satClear_cnt s n hcnt hne, rd_satClear_sat s n hsat hne, regsKept_satClear s d p.2 p.1 n⟩
  · rw [clearSat_grant s d p.2 n hg]
    exact ⟨rd_grantClear_count s d i n, rd_grantClear_wraps s d i n⟩

/-- RED_CNT_CLR leaves the discords of its tick in the counter, up to DISC_LIMIT, and shows the limit reached (R466, R481). -/
theorem redCntClr_completes (d : Die) (n : Nat) (s : State) (hw : s.mayWrite d = true)
    (hl : s.io Reg.RED_CFG_DISC_LIMIT < 2 ^ Reg.RED_DISC_CNT_COUNT.width) :
    Completes (.redCntClr d n) s (fun t =>
      t.io Reg.RED_DISC_CNT_COUNT = min n (s.io Reg.RED_CFG_DISC_LIMIT) ∧
      (t.io Reg.RED_DISC_STAT_AT_LIMIT = 1 ↔ s.io Reg.RED_CFG_DISC_LIMIT ≤ n) ∧
      RegsKept [(d, Reg.RED_DISC_CNT_COUNT), (d, Reg.RED_DISC_STAT_AT_LIMIT)] s t ∧
      Frame [.regs, .bobs, .cores, .latched, .out] s t) := by
  refine ⟨s.clearDisc n, ?_, io_clearDisc_count s n hl, io_clearDisc_atLimit s n, regsKept_clearDisc s d n, frame_clearDisc s n⟩
  show Host.Outcome.next (if s.mayWrite d then s.clearDisc n else s) = _
  rw [if_pos hw]

/-- Settles O7: SAT_CLEAR is a clear and a count of the cycle's events, and RED_CNT_CLR a write of the discords of its tick. -/
theorem satClearCounts : Obligations.SatClearCounts :=
  ⟨satClear_completes, redCntClr_completes⟩

end Sys2Proof.Proofs
end

section
/-! SUPPORT. The register map: where the words of a family lie, and which fields share a word (R4). -/

namespace Sys2Proof.Machine

/-- The bytes from the first word of a family on within which its words lie. -/
def RegSpec.span (r : RegSpec) : Nat :=
  match r.dims with
  | [] => 1
  | (st, n) :: _ => st * n

theorem lt_span_of_indices {r : RegSpec} {off : Nat} {is : List Nat} (hst : ∀ p ∈ r.dims, 0 < p.1)
    (h : Reg.indices r.dims off = some is) : off < r.span := by
  unfold RegSpec.span
  cases hd : r.dims with
  | nil =>
    rw [hd] at h
    unfold Reg.indices at h
    split at h
    · next h0 => exact h0 ▸ Nat.one_pos
    · cases h
  | cons p ds =>
    obtain ⟨st, n⟩ := p
    rw [hd] at h hst
    unfold Reg.indices at h
    split at h
    · next hlt =>
      have hoff := (Nat.div_lt_iff_lt_mul (hst (st, n) List.mem_cons_self)).mp hlt
      rwa [Nat.mul_comm] at hoff
    · cases h

/-- A word that the table finds is a word of one of its families. -/
theorem mem_of_fieldsIn {l : List RegSpec} {a : Nat} {fs : List Field} (h : Reg.fieldsIn l a = some fs) :
    ∃ r ∈ l, r.base ≤ a ∧ (∃ is, Reg.indices r.dims (a - r.base) = some is) ∧
      fs = r.fields.map (fun f => { f with addr := a }) := by
  induction l with
  | nil => cases h
  | cons r l ih =>
    unfold Reg.fieldsIn at h
    split at h
    · obtain ⟨q, hq, hfound⟩ := ih h
      exact ⟨q, List.mem_cons_of_mem r hq, hfound⟩
    · next hb =>
      split at h
      · next is his => exact ⟨r, List.mem_cons_self, Nat.le_of_not_lt hb, ⟨is, his⟩, (Option.some.inj h).symm⟩
      · obtain ⟨q, hq, hfound⟩ := ih h
        exact ⟨q, List.mem_cons_of_mem r hq, hfound⟩

/-- A word of one family that lies within no other one. -/
theorem fieldsIn_of_only {l : List RegSpec} {r : RegSpec} {a : Nat} {is : List Nat} (hr : r ∈ l) (hb : r.base ≤ a)
    (hi : Reg.indices r.dims (a - r.base) = some is)
    (ho : ∀ q ∈ l, q ≠ r → (∀ p ∈ q.dims, 0 < p.1) ∧ (a < q.base ∨ q.base + q.span ≤ a)) :
    Reg.fieldsIn l a = some (r.fields.map (fun f => { f with addr := a })) := by
  induction l with
  | nil => cases hr
  | cons q l ih =>
    unfold Reg.fieldsIn
    by_cases hq : q = r
    · subst hq
      rw [if_neg (by omega), hi]
    · have hl := ih ((List.mem_cons.mp hr).resolve_left (Ne.symm hq)) (fun p hp => ho p (List.mem_cons_of_mem q hp))
      obtain ⟨hst, hout⟩ := ho q List.mem_cons_self hq
      split
      · exact hl
      · split
        · next js hjs =>
          have := lt_span_of_indices hst hjs
          omega
        · exact hl

/-- The register map: words lie in the I/O die window or above the dies' own start, the fields of a word start at different bits,
and in the window an SH field shares its word with no field whose active value a write changes. -/
theorem table_places : ∀ r ∈ Reg.table, (∀ p ∈ r.dims, 0 < p.1) ∧ 0x40000000 ≤ r.base ∧
    (r.base < 0x50000000 → r.base + r.span ≤ 0x41000000) ∧ r.fields.Pairwise (fun f g => f.lo ≠ g.lo) ∧
    (r.base < 0x50000000 → ∀ f ∈ r.fields, f.acc = .sh → ∀ g ∈ r.fields, g.acc ≠ .rw ∧ g.acc ≠ .w1c) := by decide +kernel

section
variable {a : Nat} {fs : List Field} (h : Reg.fieldsAt a = some fs)
include h

theorem addr_of_fieldsAt : ∀ f ∈ fs, f.addr = a := by
  obtain ⟨r, _, _, _, rfl⟩ := mem_of_fieldsIn h
  intro f hf
  obtain ⟨g, _, rfl⟩ := List.mem_map.mp hf
  rfl

theorem lo_of_fieldsAt : fs.Pairwise (fun f g => f.lo ≠ g.lo) := by
  obtain ⟨r, hr, _, _, rfl⟩ := mem_of_fieldsIn h
  obtain ⟨_, _, _, hlo, _⟩ := table_places r hr
  exact List.pairwise_map.mpr hlo

theorem inIod_of_fieldsAt (ha : a < 0x50000000) : inIod a = true := by
  obtain ⟨r, hr, hb, ⟨is, hi⟩, _⟩ := mem_of_fieldsIn h
  obtain ⟨hst, hlow, hhigh, _, _⟩ := table_places r hr
  have hspan := lt_span_of_indices hst hi
  have hend := hhigh (by omega)
  simp only [inIod, Bool.and_eq_true, decide_eq_true_eq]
  omega

theorem sh_of_fieldsAt (ha : a < 0x50000000) : ∀ f ∈ fs, f.acc = .sh → ∀ g ∈ fs, g.acc ≠ .rw ∧ g.acc ≠ .w1c := by
  obtain ⟨r, hr, hb, _, rfl⟩ := mem_of_fieldsIn h
  obtain ⟨_, _, _, _, hsh⟩ := table_places r hr
  intro f hf hfs g hg
  obtain ⟨f', hf', rfl⟩ := List.mem_map.mp hf
  obtain ⟨g', hg', rfl⟩ := List.mem_map.mp hg
  exact hsh (by omega) f' hf' hfs g' hg'

end

/-- The words of the event routes in the register map. -/
def evcRouteWords : RegSpec := ⟨0x50003000, [(0x4, 256)], [Reg.EVC_ROUTE_EN 0, Reg.EVC_ROUTE_CLUSTER 0, Reg.EVC_ROUTE_DESC 0]⟩

theorem evcRouteWords_alone : evcRouteWords ∈ Reg.table ∧
    ∀ q ∈ Reg.table, q ≠ evcRouteWords → 0x50003400 ≤ q.base ∨ q.base + q.span ≤ 0x50003000 := by decide +kernel

/-- The fields of an event route. -/
theorem fieldsAt_evcRoute (j : Fin 256) :
    Reg.fieldsAt (Reg.EVC_ROUTE_EN j).addr = some [Reg.EVC_ROUTE_EN j, Reg.EVC_ROUTE_CLUSTER j, Reg.EVC_ROUTE_DESC j] := by
  obtain ⟨hmem, hothers⟩ := evcRouteWords_alone
  have hidx : Reg.indices evcRouteWords.dims ((Reg.EVC_ROUTE_EN j).addr - evcRouteWords.base) = some [j.val] := by
    simp [Reg.indices, evcRouteWords, Reg.EVC_ROUTE_EN]
  refine fieldsIn_of_only hmem (Nat.le_add_right _ _) hidx (fun q hq hne => ⟨(table_places q hq).1, ?_⟩)
  have hout := hothers q hq hne
  simp only [Reg.EVC_ROUTE_EN]
  omega

end Sys2Proof.Machine
end

section
/-! SUPPORT. A written register word: each of its fields by its access code, the word of a command, and a word whose write takes no
effect (R4, R455). -/

namespace Sys2Proof.Machine
open Sys2Proof.Laws

/-- Fields of one word that start at different bits are different fields. -/
theorem fieldKey_ne_of_lo (d : Die) {f g : Field} (ha : f.addr = g.addr) (hlo : f.lo ≠ g.lo) : fieldKey d f ≠ fieldKey d g := by
  unfold fieldKey
  rw [ha]
  omega

/-! ### One field -/

section
variable (s : State) (d : Die) (w : Nat) {f : Field}

theorem writeField_kept (h : f.acc = .ro ∨ f.acc = .pk) : s.writeField d w f = s := by
  unfold State.writeField
  obtain h | h := h <;> rw [h]

/-- A plain RW field takes its bits of the word, and the write starts nothing. -/
theorem writeField_rw (h : f.acc = .rw) (hp : plainWord [f] = true) :
    s.writeField d w f = s.wr d f (w / 2 ^ f.lo % 2 ^ f.width) := by
  simp only [plainWord, List.all_cons, List.all_nil, h, ne_eq, not_true_eq_false, decide_false, Bool.false_or, Bool.and_true,
    Bool.and_eq_true, Bool.not_eq_true', Bool.or_eq_false_iff] at hp
  obtain ⟨⟨hdis, hlane⟩, hdesc⟩ := hp.2
  have hdesc' : ¬(0x50004000 ≤ f.addr ∧ f.addr < 0x50004800) := by simpa [within] using hdesc
  unfold State.writeField
  rw [h]
  simp [State.writeRw, hdis, hlane, hdesc']

/-- A plain W1C field loses the bits written as 1. -/
theorem writeField_w1c (h : f.acc = .w1c) (hp : plainWord [f] = true) :
    s.writeField d w f = s.wr d f (s.rd d f - Nat.land (s.rd d f) (w / 2 ^ f.lo % 2 ^ f.width)) := by
  simp only [plainWord, List.all_cons, List.all_nil, h, ne_eq, not_true_eq_false, decide_false, Bool.false_or, Bool.and_true,
    Bool.and_eq_true, decide_eq_true_eq, Option.isNone_iff_eq_none] at hp
  obtain ⟨⟨hcnt, h0⟩, h1⟩ := hp.1.2
  unfold State.writeField
  rw [h]
  simp [State.clearField, hcnt, h0, h1]

/-- An SH field takes its bits in the shadow, a bounded one of the I/O die window its clamped value. -/
theorem writeField_sh (h : f.acc = .sh) (hw : f.addr < 0x50000000 → s.mayWrite d = true) :
    s.writeField d w f = s.wrSh d f
      (if f.addr < 0x50000000 then f.holds (w / 2 ^ f.lo % 2 ^ f.width) else w / 2 ^ f.lo % 2 ^ f.width) := by
  unfold State.writeField
  rw [h]
  by_cases ha : f.addr < 0x50000000
  · simp only [ha, if_true]
    unfold State.writeShIo
    rw [if_pos (hw ha)]
    exact wrSh_io_die s .d0 d _ ha
  · simp only [ha, if_false]

/-- An SH field of the I/O die window, written by a die whose writes take no effect, changes the comparison copy alone (R455). -/
theorem frame_writeField_passive (h : f.acc = .sh) (ha : f.addr < 0x50000000) (hw : s.mayWrite d = false) :
    Frame [.shadowP] s (s.writeField d w f) := by
  unfold State.writeField
  rw [h]
  simp only [ha, if_true]
  unfold State.writeShIo
  rw [if_neg (by simp [hw])]
  exact Frame.ite (Frame.refl _ s) ((Frame.refl _ s).wrShP .d0 f _ (by decide))

end

/-! ### The fields of a word -/

/-- What a write of word `w` by die `d` makes of field `f`, from `s` to `t`, by its access code (R4). -/
structure FieldWritten (d : Die) (w : Nat) (s t : State) (f : Field) : Prop where
  rw : f.acc = .rw → t.rd d f = w / 2 ^ f.lo % 2 ^ f.width
  w1c : f.acc = .w1c → t.rd d f = s.rd d f - Nat.land (s.rd d f) (w / 2 ^ f.lo % 2 ^ f.width)
  sh : f.acc = .sh → t.rd d f = s.rd d f ∧ t.rdSh d f =
    (if f.addr < 0x50000000 then f.holds (w / 2 ^ f.lo % 2 ^ f.width) else w / 2 ^ f.lo) % 2 ^ f.width
  kept : f.acc = .ro ∨ f.acc = .pk → t.rd d f = s.rd d f

/-- What a write of word `w` by die `d` makes of its fields, and what it leaves. -/
structure WordWritten (d : Die) (w : Nat) (fs : List Field) (s t : State) : Prop where
  fields : ∀ f ∈ fs, FieldWritten d w s t f
  regs : RegsKept (fs.map (fun f => (d, f))) s t
  frame : Frame [.regs, .shadow] s t

/-- Where the shadow of the I/O die window is written, the die's writes take effect, and no active value of the word changes. -/
def ShadowOpen (d : Die) (s : State) (fs : List Field) : Prop :=
  ∀ f ∈ fs, f.acc = .sh → f.addr < 0x50000000 → s.mayWrite d = true ∧ ∀ g ∈ fs, g.acc ≠ .rw ∧ g.acc ≠ .w1c

theorem FieldWritten.congr {d : Die} {w : Nat} {s t s' t' : State} {f : Field} (h : FieldWritten d w s t f)
    (hs : s'.rd d f = s.rd d f) (ht : t'.rd d f = t.rd d f) (hsh : t'.rdSh d f = t.rdSh d f) : FieldWritten d w s' t' f := by
  obtain ⟨hrw, hw1c, hsh', hkept⟩ := h
  constructor
  all_goals simpa only [hs, ht, hsh]

theorem WordWritten.refl (d : Die) (w : Nat) (s : State) : WordWritten d w [] s s where
  fields := nofun
  regs := RegsKept.refl _ s
  frame := Frame.refl _ s

/-- Fields written one after the other, at different places. -/
theorem WordWritten.cons {d : Die} {w : Nat} {f : Field} {fs : List Field} {s u t : State} (h1 : WordWritten d w [f] s u)
    (h2 : WordWritten d w fs u t) (hne : ∀ g ∈ fs, fieldKey d f ≠ fieldKey d g) : WordWritten d w (f :: fs) s t where
  fields := by
    intro g hg
    obtain rfl | hg := List.mem_cons.mp hg
    · obtain ⟨hrd, hsh, _⟩ := h2.regs d g (by simpa using fun q hq => (hne q hq).symm)
      exact (h1.fields g (by simp)).congr rfl hrd hsh
    · obtain ⟨hrd, _, _⟩ := h1.regs d g (by simpa using hne g hg)
      exact (h2.fields g hg).congr hrd.symm rfl rfl
  regs := (h1.regs.mono (by simp)).trans (h2.regs.mono (by simp +contextual))
  frame := h1.frame.trans h2.frame

/-- One plain field written. -/
theorem wordWritten_field (s : State) (d : Die) (w : Nat) (f : Field) (hp : plainWord [f] = true)
    (hw : f.acc = .sh → f.addr < 0x50000000 → s.mayWrite d = true) : WordWritten d w [f] s (s.writeField d w f) := by
  have hmem : (d, f) ∈ [f].map (fun f => (d, f)) := by simp
  have hregs : ∀ v, RegsKept ([f].map (fun f => (d, f))) s (s.wr d f v) := fun v => (RegsKept.refl _ s).wr d f v hmem
  have hframe : ∀ v, Frame [.regs, .shadow] s (s.wr d f v) := fun v => (Frame.refl _ s).wr d f v (by decide)
  have one : ∀ {t}, FieldWritten d w s t f → ∀ g ∈ [f], FieldWritten d w s t g := fun ht g hg => List.mem_singleton.mp hg ▸ ht
  cases h : f.acc with
  | rw =>
    rw [writeField_rw s d w h hp]
    exact ⟨one ⟨by simp, by simp [h], by simp [h], by simp [h]⟩, hregs _, hframe _⟩
  | w1c =>
    have hsub : s.rd d f - Nat.land (s.rd d f) (w / 2 ^ f.lo % 2 ^ f.width) < 2 ^ f.width :=
      Nat.lt_of_le_of_lt (Nat.sub_le _ _) (rd_lt s d f)
    rw [writeField_w1c s d w h hp]
    exact ⟨one ⟨by simp [h], fun _ => by rw [rd_wr_same, Nat.mod_eq_of_lt hsub], by simp [h], by simp [h]⟩, hregs _, hframe _⟩
  | sh =>
    rw [writeField_sh s d w h (hw h)]
    refine ⟨one ⟨by simp [h], by simp [h], fun _ => ⟨rfl, ?_⟩, by simp [h]⟩, (RegsKept.refl _ s).wrSh d f _ hmem,
      (Frame.refl _ s).wrSh d f _ (by decide)⟩
    rw [rdSh_wrSh_same]
    split
    · rfl
    · exact Nat.mod_mod _ _
  | ro =>
    rw [writeField_kept s d w (.inl h)]
    exact ⟨one ⟨by simp [h], by simp [h], by simp [h], fun _ => rfl⟩, RegsKept.refl _ s, Frame.refl _ s⟩
  | pk =>
    rw [writeField_kept s d w (.inr h)]
    exact ⟨one ⟨by simp [h], by simp [h], by simp [h], fun _ => rfl⟩, RegsKept.refl _ s, Frame.refl _ s⟩
  | wo => simp [plainWord, h] at hp

/-- A plain field that is neither RW nor W1C changes no active value. -/
theorem frame_writeField_shadow (s : State) (d : Die) (w : Nat) (f : Field) (hp : plainWord [f] = true)
    (hw : f.acc = .sh → f.addr < 0x50000000 → s.mayWrite d = true) (h : f.acc ≠ .rw ∧ f.acc ≠ .w1c) :
    Frame [.shadow] s (s.writeField d w f) := by
  cases hacc : f.acc with
  | rw => exact absurd hacc h.1
  | w1c => exact absurd hacc h.2
  | sh => rw [writeField_sh s d w hacc (hw hacc)]; exact (Frame.refl _ s).wrSh d f _ (by decide)
  | ro => rw [writeField_kept s d w (.inl hacc)]; exact Frame.refl _ s
  | pk => rw [writeField_kept s d w (.inr hacc)]; exact Frame.refl _ s
  | wo => simp [plainWord, hacc] at hp

/-- The fields of a plain word, written in turn. -/
theorem wordWritten_foldl (d : Die) (w : Nat) {a : Nat} (fs : List Field) : ∀ s : State, (∀ f ∈ fs, f.addr = a) →
    fs.Pairwise (fun f g => f.lo ≠ g.lo) → plainWord fs = true → ShadowOpen d s fs →
    WordWritten d w fs s (fs.foldl (fun s f => s.writeField d w f) s) := by
  induction fs with
  | nil => intro s _ _ _ _; exact WordWritten.refl d w s
  | cons f fs ih =>
    intro s ha hlo hp hopen
    obtain ⟨hlo, hlos⟩ := List.pairwise_cons.mp hlo
    have hpf : plainWord [f] = true ∧ plainWord fs = true := by simpa [plainWord] using hp
    have hw : f.acc = .sh → f.addr < 0x50000000 → s.mayWrite d = true := fun hsh hio => (hopen f (by simp) hsh hio).1
    have htail : ShadowOpen d (s.writeField d w f) fs := by
      intro g hg hsh hio
      obtain ⟨hmay, hnone⟩ := hopen g (by simp [hg]) hsh hio
      exact ⟨((frame_writeField_shadow s d w f hpf.1 hw (hnone f (by simp))).mayWrite d (by decide)).trans hmay,
        fun k hk => hnone k (by simp [hk])⟩
    exact (wordWritten_field s d w f hpf.1 hw).cons (ih _ (fun g hg => ha g (by simp [hg])) hlos hpf.2 htail)
      (fun g hg => fieldKey_ne_of_lo d ((ha f (by simp)).trans (ha g (by simp [hg])).symm) (hlo g hg))

/-- The SH fields of a word of the I/O die window, written by a die whose writes take no effect (R455). -/
theorem frame_foldl_passive (d : Die) (w : Nat) (fs : List Field) : ∀ s : State, (∀ f ∈ fs, f.addr < 0x50000000) →
    s.mayWrite d = false → Frame [.shadowP] s (fs.foldl (fun s f => if f.acc = .sh then s.writeField d w f else s) s) := by
  induction fs with
  | nil => intro s _ _; exact Frame.refl _ s
  | cons f fs ih =>
    intro s ha hw
    have h1 : Frame [.shadowP] s (if f.acc = .sh then s.writeField d w f else s) := by
      split
      · next hsh => exact frame_writeField_passive s d w hsh (ha f (by simp)) hw
      · exact Frame.refl _ s
    exact h1.trans (ih _ (fun g hg => ha g (by simp [hg])) ((h1.mayWrite d (by decide)).trans hw))

/-! ### Words -/

section
variable (s : State) (d : Die) {a : Nat} (w : Nat)

/-- Where the write takes effect, the word's fields are written in turn, after the event of a changed PK field (R4). -/
theorem writeWord_fields {fs : List Field} (h : Reg.fieldsAt a = some fs) (hw : inIod a = true → s.mayWrite d = true) :
    s.writeWord d a w = fs.foldl (fun s f => s.writeField d w f) (if s.changesPk d w fs then s.post 255 else s) := by
  unfold State.writeWord
  rw [if_neg (by simpa using hw), h]

/-- Where no register lies, a byte table that would change posts event 255. -/
theorem writeWord_noField (h : Reg.fieldsAt a = none) (hw : inIod a = true → s.mayWrite d = true) :
    s.writeWord d a w = if inRanges tableRanges a 4 && s.ram32 2 a ≠ w then s.post 255 else s := by
  unfold State.writeWord
  rw [if_neg (by simpa using hw), h]

/-- The word of a command is that command. -/
theorem writeWord_command {f : Field} (h : Reg.fieldsAt a = some [f]) (hwo : f.acc = .wo)
    (hw : inIod a = true → s.mayWrite d = true) : s.writeWord d a w = s.writeOnly d f (w / 2 ^ f.lo % 2 ^ f.width) := by
  rw [writeWord_fields s d w h hw]
  simp [State.changesPk, State.writeField, hwo]

/-- A write of a die whose writes take no effect reaches its comparison copy at most (R455). -/
theorem frame_writeWord_passive (hio : inIod a = true) (hw : s.mayWrite d = false) : Frame [.shadowP] s (s.writeWord d a w) := by
  unfold State.writeWord
  rw [if_pos (by simp [hio, hw])]
  apply frame_foldl_passive d w _ s _ hw
  intro f hf
  cases h : Reg.fieldsAt a with
  | none => simp [h] at hf
  | some fs =>
    rw [h] at hf
    simp only [inIod, Bool.and_eq_true, decide_eq_true_eq] at hio
    have := addr_of_fieldsAt h f hf
    omega

/-- A plain word written: its fields by their access codes, event 255 for a changed PK field, and what stays. -/
theorem writeWord_plain {fs : List Field} (h : Reg.fieldsAt a = some fs) (hp : plainWord fs = true)
    (hw : inIod a = true → s.mayWrite d = true) :
    (∀ f ∈ fs, FieldWritten d w s (s.writeWord d a w) f) ∧ RegsKept (fs.map (fun f => (d, f))) s (s.writeWord d a w) ∧
      Frame (.regs :: .shadow :: mPost) s (s.writeWord d a w) ∧
      (s.changesPk d w fs = true → ∀ e, s.lost e = false → Output.event e 255 ∈ (s.writeWord d a w).out) := by
  rw [writeWord_fields s d w h hw]
  have hpost : Frame mPost s (if s.changesPk d w fs then s.post 255 else s) := Frame.ite (frame_post s 255) (Frame.refl _ s)
  have hevent : s.changesPk d w fs = true → ∀ e, s.lost e = false →
      Output.event e 255 ∈ (if s.changesPk d w fs then s.post 255 else s).out := by
    intro hc e he
    rw [if_pos hc]
    exact event_mem_post s e 255 he
  generalize (if s.changesPk d w fs then s.post 255 else s) = u at hpost hevent
  have haddr := addr_of_fieldsAt h
  have hopen : ShadowOpen d u fs := by
    intro f hf hsh hio
    rw [haddr f hf] at hio
    exact ⟨(hpost.mayWrite d (by decide)).trans (hw (inIod_of_fieldsAt h hio)), sh_of_fieldsAt h hio f hf hsh⟩
  obtain ⟨hfields, hregs, hframe⟩ := wordWritten_foldl d w fs u haddr (lo_of_fieldsAt h) hp hopen
  have hrd : ∀ f, u.rd d f = s.rd d f := fun f => by
    simp only [State.rd, show u.regs = s.regs from hpost .regs (by decide)]
  refine ⟨fun f hf => (hfields f hf).congr (hrd f).symm rfl rfl, (RegsKept.of_frame _ hpost (by decide)).trans hregs,
    (hpost.mono (by decide)).step hframe (by decide), fun hc e he => ?_⟩
  rw [show _ = u.out from hframe .out (by decide)]
  exact hevent hc e he

end

end Sys2Proof.Machine
end

section
/-! SUPPORT. The obligation on register writes. -/

namespace Sys2Proof.Proofs
open Sys2Proof Sys2Proof.Machine Sys2Proof.Laws

/-! ### Command words -/

theorem exec_registerWrite (d : Die) (a v : Word) (s : State) :
    exec (.registerWrite d a v false) s = .next (s.writeWord d a.toNat v.toNat) := rfl

theorem ofNat_mod_two_pow (n x : Nat) : BitVec.ofNat n (x % 2 ^ n) = BitVec.ofNat n x := by
  apply BitVec.eq_of_toNat_eq
  simp

section
variable (d : Die) {a : Word} (v : Word) (s : State) {i : Instr} {f : Field} {u : State} (n : Nat)

/-- A word whose one field, from bit 0 up, gives what command `i` gives: its write is that command. -/
theorem registerWrite_eq_command (h : Reg.fieldsAt a.toNat = some [f]) (hf : f.acc = .wo ∧ f.lo = 0 ∧ f.width = n)
    (hw : inIod a.toNat = true → s.mayWrite d = true) (hwrite : s.writeOnly d f (v.toNat % 2 ^ n) = u)
    (hcmd : exec i s = .next u) : exec (.registerWrite d a v false) s = exec i s := by
  obtain ⟨hwo, hlo, hn⟩ := hf
  rw [exec_registerWrite, writeWord_command s d v.toNat h hwo hw, hlo, hn, Nat.pow_zero, Nat.div_one, hwrite, hcmd]

theorem registerWrite_tripFwSet (hw : s.mayWrite d = true) :
    exec (.registerWrite d 0x40500040 v false) s = exec (.tripFwSet d (BitVec.ofNat 16 v.toNat)) s := by
  have hwrite : ∀ x, s.writeOnly d Reg.TRIP_FW_SET_GROUPS x = s.fwSet (BitVec.ofNat 16 x) := fun _ => rfl
  refine registerWrite_eq_command d v s 16 (f := Reg.TRIP_FW_SET_GROUPS) (by decide +kernel) (by decide) (fun _ => hw) ?_
    (congrArg Host.Outcome.next (if_pos hw))
  rw [hwrite, ofNat_mod_two_pow]

theorem registerWrite_tripFwClr (hw : s.mayWrite d = true) :
    exec (.registerWrite d 0x40500044 v false) s = exec (.tripFwClr d (BitVec.ofNat 16 v.toNat)) s := by
  have hwrite : ∀ x, s.writeOnly d Reg.TRIP_FW_CLR_GROUPS x = s.fwClr (BitVec.ofNat 16 x) := fun _ => rfl
  refine registerWrite_eq_command d v s 16 (f := Reg.TRIP_FW_CLR_GROUPS) (by decide +kernel) (by decide) (fun _ => hw) ?_
    (congrArg Host.Outcome.next (if_pos hw))
  rw [hwrite, ofNat_mod_two_pow]

theorem registerWrite_tripClr (hw : s.mayWrite d = true) :
    exec (.registerWrite d 0x4050004C v false) s = exec (.tripClr d (BitVec.ofNat 16 v.toNat)) s := by
  have hwrite : ∀ x, s.writeOnly d Reg.TRIP_CLR_GROUPS x = s.clrGroups (BitVec.ofNat 16 x) := fun _ => rfl
  refine registerWrite_eq_command d v s 16 (f := Reg.TRIP_CLR_GROUPS) (by decide +kernel) (by decide) (fun _ => hw) ?_
    (congrArg Host.Outcome.next (if_pos hw))
  rw [hwrite, ofNat_mod_two_pow]

theorem registerWrite_measCalReq (hw : s.mayWrite d = true) :
    exec (.registerWrite d 0x40206084 v false) s = exec (.measCalReq d (BitVec.ofNat 16 v.toNat)) s := by
  have hwrite : ∀ x, s.writeOnly d Reg.MEAS_CAL_REQ_REQ x = s.calMask x := fun _ => rfl
  refine registerWrite_eq_command d v s 16 (f := Reg.MEAS_CAL_REQ_REQ) (by decide +kernel) (by decide) (fun _ => hw) ?_
    (congrArg Host.Outcome.next (if_pos hw))
  rw [hwrite, BitVec.toNat_ofNat]

theorem registerWrite_fwFallback :
    exec (.registerWrite d 0x50000130 v false) s = exec (.fwFallback d (BitVec.ofNat 8 v.toNat)) s := by
  have hwrite : ∀ x, s.writeOnly d Reg.FW_FALLBACK_KEY x = s.fallbackWrite d x := fun _ => by
    unfold State.writeOnly
    exact if_pos rfl
  refine registerWrite_eq_command d v s 8 (f := Reg.FW_FALLBACK_KEY) (by decide +kernel) (by decide) (absurd · (by decide)) ?_ rfl
  rw [hwrite, BitVec.toNat_ofNat]

theorem registerWrite_gndLongClr :
    exec (.registerWrite d 0x50008400 v false) s = exec (.gndLongClr d (BitVec.ofNat 24 v.toNat)) s := by
  have hwrite : ∀ x, s.writeOnly d Reg.GND_LONG_CLR_CLR x = s.longClr d x := fun _ => rfl
  refine registerWrite_eq_command d v s 24 (f := Reg.GND_LONG_CLR_CLR) (by decide +kernel) (by decide) (absurd · (by decide)) ?_ rfl
  rw [hwrite, BitVec.toNat_ofNat]

theorem registerWrite_redCntClr (hw : s.mayWrite d = true) (hv : v.toNat % 2 = 1) :
    exec (.registerWrite d 0x40D0005C v false) s = exec (.redCntClr d 0) s := by
  have hwrite : s.writeOnly d Reg.RED_CNT_CLR_DISC 1 = s.clearDisc 0 := rfl
  refine registerWrite_eq_command d v s 1 (f := Reg.RED_CNT_CLR_DISC) (by decide +kernel) (by decide) (fun _ => hw) ?_
    (congrArg Host.Outcome.next (if_pos hw))
  rw [Nat.pow_one, hv, hwrite]

theorem fieldsAt_injTrig : ∀ u : Fin 8, Reg.fieldsAt (0x40207004 + 0x10 * u) = some [Reg.MEAS_INJ_TRIG_GO u] := by
  decide +kernel

/-- GO written as 1 triggers its own unit (R192). -/
theorem writeOnly_injTrig (u : Fin 8) : s.writeOnly d (Reg.MEAS_INJ_TRIG_GO u) 1 = s.injTrigger u := by
  have hother : ∀ g : Field, g.addr < 0x40207004 ∨ 0x40207074 < g.addr → Reg.MEAS_INJ_TRIG_GO u ≠ g := by
    rintro g hg rfl
    simp only [Reg.MEAS_INJ_TRIG_GO] at hg
    omega
  have hin : within (0x40207004 + 0x10 * u.val) 0x40207000 0x40207080 = true := by
    simp only [within, Bool.and_eq_true, decide_eq_true_eq]
    omega
  have hunit : (0x40207004 + 0x10 * u.val - 0x40207004) / 0x10 = u.val := by omega
  have hown : (within (Reg.MEAS_INJ_TRIG_GO u).addr 0x40207000 0x40207080 &&
      decide (Reg.MEAS_INJ_TRIG_GO u = Reg.MEAS_INJ_TRIG_GO (((Reg.MEAS_INJ_TRIG_GO u).addr - 0x40207004) / 0x10))) = true :=
    Bool.and_eq_true_iff.mpr ⟨hin, decide_eq_true (congrArg Reg.MEAS_INJ_TRIG_GO hunit.symm)⟩
  unfold State.writeOnly
  rw [if_neg (hother _ (by decide)), if_neg (hother _ (by decide)), if_neg (hother _ (by decide)), if_neg (hother _ (by decide)),
    if_neg (hother _ (by decide)), if_neg (hother _ (by decide)), if_neg Nat.one_ne_zero, if_neg (hother _ (by decide)), if_pos hown]
  exact congrArg s.injTrigger hunit

theorem registerWrite_measInjTrig (u : Fin 8) (ha : a.toNat = 0x40207004 + 0x10 * u) (hw : s.mayWrite d = true)
    (hv : v.toNat % 2 = 1) : exec (.registerWrite d a v false) s = exec (.measInjTrig d u) s := by
  refine registerWrite_eq_command d v s 1 (ha ▸ fieldsAt_injTrig u) ⟨rfl, rfl, rfl⟩ (fun _ => hw) ?_
    (congrArg Host.Outcome.next (if_pos hw))
  rw [Nat.pow_one, hv, writeOnly_injTrig]

end

/-! ### The clauses -/

/-- The fields of an event route are RW fields whose write starts nothing (R149). -/
theorem plainWord_evcRoute (j : Fin 256) : plainWord [Reg.EVC_ROUTE_EN j] = true ∧ plainWord [Reg.EVC_ROUTE_CLUSTER j] = true ∧
    plainWord [Reg.EVC_ROUTE_DESC j] = true := by
  have out : ∀ lo hi, hi ≤ 0x50003000 ∨ 0x50003400 ≤ lo → within (0x50003000 + 0x4 * j) lo hi = false := fun lo hi h => by
    simp only [within, Bool.and_eq_false_iff, decide_eq_false_iff_not]
    omega
  simp [plainWord, Reg.EVC_ROUTE_EN, Reg.EVC_ROUTE_CLUSTER, Reg.EVC_ROUTE_DESC, out]

/-- A write of an event route writes its three fields. -/
theorem writeWord_evcRoute (s : State) (d : Die) (j : Fin 256) (w : Nat) :
    s.writeWord d (Reg.EVC_ROUTE_EN j).addr w = ((s.wr d (Reg.EVC_ROUTE_EN j) (w / 2 ^ 31 % 2 ^ 1)).wr d (Reg.EVC_ROUTE_CLUSTER j)
      (w / 2 ^ 8 % 2 ^ 2)).wr d (Reg.EVC_ROUTE_DESC j) (w / 2 ^ 0 % 2 ^ 7) := by
  obtain ⟨hen, hcluster, hdesc⟩ := plainWord_evcRoute j
  have hpk : s.changesPk d w [Reg.EVC_ROUTE_EN j, Reg.EVC_ROUTE_CLUSTER j, Reg.EVC_ROUTE_DESC j] = false := rfl
  have hio : inIod (Reg.EVC_ROUTE_EN j).addr = false := by
    show inIod (0x50003000 + 0x4 * j.val) = false
    simp only [inIod, Bool.and_eq_false_iff, decide_eq_false_iff_not]
    omega
  rw [writeWord_fields s d w (fieldsAt_evcRoute j) (by simp [hio]), hpk]
  simp only [Bool.false_eq_true, if_false, List.foldl_cons, List.foldl_nil]
  rw [writeField_rw s d w rfl hen, writeField_rw _ d w rfl hcluster, writeField_rw _ d w rfl hdesc]
  rfl

/-- An event route takes its three fields (R149). -/
theorem evcRoute_completes (d : Die) (j : Fin 256) (v : Word) (s : State) :
    Completes (.registerWrite d (BitVec.ofNat 32 (Reg.EVC_ROUTE_EN j).addr) v false) s (fun t =>
      t.rd d (Reg.EVC_ROUTE_EN j) = v.toNat / 2 ^ 31 ∧ t.rd d (Reg.EVC_ROUTE_CLUSTER j) = v.toNat / 2 ^ 8 % 4 ∧
      t.rd d (Reg.EVC_ROUTE_DESC j) = v.toNat % 2 ^ 7 ∧
      RegsKept [(d, Reg.EVC_ROUTE_EN j), (d, Reg.EVC_ROUTE_CLUSTER j), (d, Reg.EVC_ROUTE_DESC j)] s t ∧ Frame [.regs] s t) := by
  have haddr : (BitVec.ofNat 32 (Reg.EVC_ROUTE_EN j).addr).toNat = (Reg.EVC_ROUTE_EN j).addr := by
    rw [BitVec.toNat_ofNat]
    exact Nat.mod_eq_of_lt (by simp only [Reg.EVC_ROUTE_EN]; omega)
  have hexec := exec_registerWrite d (BitVec.ofNat 32 (Reg.EVC_ROUTE_EN j).addr) v s
  rw [haddr, writeWord_evcRoute] at hexec
  have hcluster : fieldKey d (Reg.EVC_ROUTE_EN j) ≠ fieldKey d (Reg.EVC_ROUTE_CLUSTER j) :=
    fieldKey_ne_of_lo d rfl (by simp [Reg.EVC_ROUTE_EN, Reg.EVC_ROUTE_CLUSTER])
  have hdesc : fieldKey d (Reg.EVC_ROUTE_EN j) ≠ fieldKey d (Reg.EVC_ROUTE_DESC j) :=
    fieldKey_ne_of_lo d rfl (by simp [Reg.EVC_ROUTE_EN, Reg.EVC_ROUTE_DESC])
  have hdesc' : fieldKey d (Reg.EVC_ROUTE_CLUSTER j) ≠ fieldKey d (Reg.EVC_ROUTE_DESC j) :=
    fieldKey_ne_of_lo d rfl (by simp [Reg.EVC_ROUTE_CLUSTER, Reg.EVC_ROUTE_DESC])
  have hv : v.toNat / 2 ^ 31 < 2 ^ 1 := by have := v.isLt; omega
  refine ⟨_, hexec, ?_, ?_, ?_, ?_, ?_⟩
  · rw [rd_wr_other _ _ hdesc, rd_wr_other _ _ hcluster, rd_wr_same]
    exact (Nat.mod_mod _ _).trans (Nat.mod_eq_of_lt hv)
  · rw [rd_wr_other _ _ hdesc', rd_wr_same]
    exact Nat.mod_mod _ _
  · rw [rd_wr_same, Nat.pow_zero, Nat.div_one]
    exact Nat.mod_mod _ _
  · exact (((RegsKept.refl _ s).wr d _ _ (by simp)).wr d _ _ (by simp)).wr d _ _ (by simp)
  · exact (((Frame.refl _ s).wr d _ _ (by decide)).wr d _ _ (by decide)).wr d _ _ (by decide)

/-- A plain word takes each field by its access code (R4). -/
theorem plainWord_completes (d : Die) (a v : Word) (s : State) (fs : List Field) (h : Reg.fieldsAt a.toNat = some fs)
    (hp : plainWord fs = true) (hw : inIod a.toNat = true → s.mayWrite d = true) :
    Completes (.registerWrite d a v false) s (fun t =>
      (∀ f ∈ fs,
        (f.acc = .rw → t.rd d f = v.toNat / 2 ^ f.lo % 2 ^ f.width) ∧
        (f.acc = .w1c → t.rd d f = s.rd d f - Nat.land (s.rd d f) (v.toNat / 2 ^ f.lo % 2 ^ f.width)) ∧
        (f.acc = .sh → t.rd d f = s.rd d f ∧ t.rdSh d f =
          (if f.addr < 0x50000000 then f.holds (v.toNat / 2 ^ f.lo % 2 ^ f.width) else v.toNat / 2 ^ f.lo) % 2 ^ f.width) ∧
        (f.acc = .ro ∨ f.acc = .pk → t.rd d f = s.rd d f) ∧
        (f.acc = .pk → v.toNat / 2 ^ f.lo % 2 ^ f.width ≠ s.rd d f →
          ∀ e, s.lost e = false → Output.event e 255 ∈ t.out)) ∧
      RegsKept (fs.map (fun f => (d, f))) s t ∧ Frame (.regs :: .shadow :: mPost) s t) := by
  obtain ⟨hfields, hregs, hframe, hevent⟩ := writeWord_plain s d v.toNat h hp hw
  refine ⟨_, exec_registerWrite d a v s, fun f hf => ?_, hregs, hframe⟩
  obtain ⟨hrw, hw1c, hsh, hkept⟩ := hfields f hf
  have hpk : f.acc = .pk → v.toNat / 2 ^ f.lo % 2 ^ f.width ≠ s.rd d f → s.changesPk d v.toNat fs = true :=
    fun hacc hne => List.any_eq_true.mpr ⟨f, hf, by simp [hacc, hne]⟩
  exact ⟨hrw, hw1c, hsh, hkept, fun hacc hne => hevent (hpk hacc hne)⟩

/-- A write to the word of a command is that command. -/
theorem commandWord_exec (d : Die) (a v : Word) (i : Instr) (s : State) (hw : inIod a.toNat = true → s.mayWrite d = true)
    (h : a = 0x40500040 ∧ i = .tripFwSet d (BitVec.ofNat 16 v.toNat) ∨ a = 0x40500044 ∧ i = .tripFwClr d (BitVec.ofNat 16 v.toNat) ∨
      a = 0x4050004C ∧ i = .tripClr d (BitVec.ofNat 16 v.toNat) ∨ a = 0x40206084 ∧ i = .measCalReq d (BitVec.ofNat 16 v.toNat) ∨
      a = 0x50000130 ∧ i = .fwFallback d (BitVec.ofNat 8 v.toNat) ∨ a = 0x50008400 ∧ i = .gndLongClr d (BitVec.ofNat 24 v.toNat) ∨
      (v.toNat % 2 = 1 ∧ (a = 0x40D0005C ∧ i = .redCntClr d 0 ∨ ∃ u : Fin 8, a.toNat = 0x40207004 + 0x10 * u ∧ i = .measInjTrig d u))) :
    exec (.registerWrite d a v false) s = exec i s := by
  obtain ⟨rfl, rfl⟩ | ⟨rfl, rfl⟩ | ⟨rfl, rfl⟩ | ⟨rfl, rfl⟩ | ⟨rfl, rfl⟩ | ⟨rfl, rfl⟩ | ⟨hv, ⟨rfl, rfl⟩ | ⟨u, ha, rfl⟩⟩ := h
  · exact registerWrite_tripFwSet d v s (hw rfl)
  · exact registerWrite_tripFwClr d v s (hw rfl)
  · exact registerWrite_tripClr d v s (hw rfl)
  · exact registerWrite_measCalReq d v s (hw rfl)
  · exact registerWrite_fwFallback d v s
  · exact registerWrite_gndLongClr d v s
  · exact registerWrite_redCntClr d v s (hw rfl) hv
  · have hio : inIod a.toNat = true := by
      simp only [inIod, Bool.and_eq_true, decide_eq_true_eq]
      omega
    exact registerWrite_measInjTrig d v s u ha (hw hio) hv

/-- A byte table, and a place without a register, stay as they are; event 255 where the write would change a byte table (R4, log
entries 17 and 19). -/
theorem noField_completes (d : Die) (a v : Word) (s : State) (h : Reg.fieldsAt a.toNat = none)
    (hw : inIod a.toNat = true → s.mayWrite d = true) :
    Completes (.registerWrite d a v false) s (fun t => Frame mPost s t ∧
      (inRanges tableRanges a.toNat 4 = true → s.ram32 2 a.toNat ≠ v.toNat → ∀ e, s.lost e = false → Output.event e 255 ∈ t.out)) := by
  refine ⟨_, exec_registerWrite d a v s, ?_⟩
  rw [writeWord_noField s d v.toNat h hw]
  refine ⟨Frame.ite (frame_post s 255) (Frame.refl _ s), fun hin hne e he => ?_⟩
  rw [if_pos (by simp [hin, hne])]
  exact event_mem_post s e 255 he

theorem inIod_of_range {a : Word} (h1 : 0x40000000 ≤ a.toNat) (h2 : a.toNat < 0x41000000) : inIod a.toNat = true := by
  simp [inIod, h1, h2]

/-- A write that takes no effect leaves all but the comparison copy (R48, R455). -/
theorem passive_completes (d : Die) (a v : Word) (s : State) (h1 : 0x40000000 ≤ a.toNat) (h2 : a.toNat < 0x41000000)
    (hw : s.mayWrite d = false) :
    Completes (.registerWrite d a v false) s (fun t => t.regs = s.regs ∧ Frame [.shadowP] s t) := by
  have hframe := frame_writeWord_passive s d v.toNat (inIod_of_range h1 h2) hw
  exact ⟨_, exec_registerWrite d a v s, hframe .regs (by decide), hframe⟩

/-- A write lost in a full FIFO posts event 255 (R60). -/
theorem fullFifo_completes (d : Die) (a v : Word) (s : State) (h1 : 0x40000000 ≤ a.toNat) (h2 : a.toNat < 0x41000000) :
    Completes (.registerWrite d a v true) s (fun t => (∀ e, s.lost e = false → Output.event e 255 ∈ t.out) ∧ Frame mPost s t) := by
  refine ⟨s.post 255, ?_, fun e he => event_mem_post s e 255 he, frame_post s 255⟩
  show Host.Outcome.next (if true && inIod a.toNat then s.post 255 else s.writeWord d a.toNat v.toNat) = _
  rw [inIod_of_range h1 h2]
  rfl

/-- Settles O6: a plain word is a fold of its fields, each written by its access code at a place of its own; the other words are a
command, an event, or a write of the comparison copy. -/
theorem registerWriteRw : Obligations.RegisterWriteRw :=
  ⟨evcRoute_completes, plainWord_completes, commandWord_exec, noField_completes, passive_completes, fullFifo_completes⟩

end Sys2Proof.Proofs
end
